-- ==== Sys2Proof/Word.lean ====
section
/-! DEFINITION. The word types of the KTV-7264 and their plainest arithmetic. -/

namespace Sys2Proof

/-- A byte: the unit of every memory (little-endian, "Numbers, units and fields" of 00_scope.md). -/
abbrev Byte := BitVec 8
/-- A register, an accumulator element or a vector lane. -/
abbrev Word32 := BitVec 32
/-- A scalar register (R159). -/
abbrev Word64 := BitVec 64
/-- A string of bytes, lowest address first. -/
abbrev Bytes := List Byte

end Sys2Proof
end

