-- ==== Sys2Proof/Syntax.lean ====
section
/-! DEFINITION. The commands of the block: one constructor per row of spec/opcode_table.json, with
the operands its rule names. A command comes from the environment: the host, the far end of a
port, a pin, a rail, a timer, or the completion of a unit. -/

namespace Sys2Proof

/-- A physical die, P0 to P71 (R7). -/
abbrev PDie := Fin 72
/-- A hardware thread of a die (R159). -/
abbrev ThreadId := BitVec 11
/-- A host function: 0 is the PF, v + 1 is VF v (R353, R389). -/
abbrev FnId := Fin 9
/-- A reference to a command in progress: its serial number at the host interface (R368). -/
abbrev CmdId := Nat

/-- An op word less its opcode (R152): `FLAGS`, the `WAIT` mask and the operands [95:0]. -/
structure OpWord where
  flags : BitVec 8
  wait  : BitVec 16
  x     : BitVec 96
  deriving DecidableEq, Repr

/-- What may cross a seam (R194, R249): a bead or a remote-accumulate packet. -/
inductive Frame where
  | bead (h : BitVec 256) (payload : Bytes)
  | rap (h : BitVec 512) (payload : Bytes)
  deriving DecidableEq, Repr

/-- Who writes a register (R192, R224, R303): the management complex, a thread of the die, the
vector queue (R189), the host interface, or the host through a function's BAR0. -/
inductive Writer where
  | mgmt | thread (t : ThreadId) | vecQueue | hostIf | host
  deriving DecidableEq, Repr

/-- A register space (R11, R356): a die's, the Punty die's, or a function's BAR0. -/
inductive RegSpace where
  | die (p : PDie) | punty | fn (f : FnId)
  deriving DecidableEq, Repr

/-- A reference clock of R48. -/
inductive Clock where
  | refclk | row (n : BitVec 3) | le (n : BitVec 3) | mgt
  deriving DecidableEq, Repr

/-- A source of the ramping comparators of R44, with what it measures: IMON of a row in mA; IMON of every row and of
VSRAM in mA. -/
inductive PaceSource where
  | overCurrent (row : BitVec 3) (ma : Nat) | excursion (imon : List Nat) (sram : Nat)
  deriving DecidableEq, Repr

/-- What an AVSBus read asks a rail for (R41). -/
inductive AvsRead where
  | voltage | current | temperature | status
  deriving DecidableEq, Repr

/-- The class of an LPDDR access (R289), in the order of `CLASS` of R304. -/
inductive AccClass where
  | dma | needle | acc | spill | host | lehr
  deriving DecidableEq, Repr

/-- One request to a memory controller (R289, R290). -/
structure McReq where
  cls    : AccClass
  write  : Bool
  secure : Bool
  job    : BitVec 4
  addr   : BitVec 35
  data   : Bytes
  deriving DecidableEq, Repr

/-- How a module is lost (R350). -/
inductive LossCause where
  | prsntRise | faultFall | lockLost | readsFailed
  deriving DecidableEq, Repr

/-- What a bay reads of a module (R338, R341, R345): whether it answers, its EEPROM, and whether FAULT# is low. -/
structure ModuleView where
  answers : Bool
  eeprom  : Bytes
  fault   : Bool := false
  deriving DecidableEq, Repr

/-- How a module of an engine trains (R73): whether it trains at all, and whether only with lane repair. -/
structure LinkTrial where
  trained : Bool
  repair  : Bool
  deriving DecidableEq, Repr

/-- How the primary or the alternate modules of the eight engines train again (R80). -/
structure LinkTrials where
  trained : BitVec 8
  repair  : BitVec 8
  deriving DecidableEq, Repr

/-- An AVSBus read that is tried again (R43), and whether it succeeds. -/
structure AvsTrial where
  rail : Fin 9
  what : AvsRead
  ok   : Bool
  deriving DecidableEq, Repr

/-- What a row's comparator measures (R44): its sense lands in µV. -/
structure RowVolts where
  row : BitVec 3
  uv  : Nat
  deriving DecidableEq, Repr

/-- What a row's comparator measures (R44): IMON in mA. -/
structure RowAmps where
  row : BitVec 3
  ma  : Nat
  deriving DecidableEq, Repr

/-- What the package comparator measures (R44): IMON of every row and of VSRAM in mA; `long`: for longer than
9.9 ms. -/
structure PackageAmps where
  imon : List Nat
  sram : Nat
  long : Bool
  deriving DecidableEq, Repr

/-- A bay that is to be released, and whether its usage record can be written (R347, R349). -/
structure BayRelease where
  bay : BitVec 3
  ok  : Bool
  deriving DecidableEq, Repr

/-- A read of a diagnostic aperture (R190, R361): its offset, and whether it is 64 bits wide. -/
structure DiagAccess where
  off  : BitVec 19
  wide : Bool
  deriving DecidableEq, Repr

/-- The commands (spec/opcode_table.json). -/
inductive Instr where
  -- registers (R4, R5)
  | registerWrite (space : RegSpace) (w : Writer) (off : BitVec 32) (v : BitVec 32)
  -- power-up and boot ("Power-up, configuration image and boot order")
  | vddAonApply
  | sysRstRelease
  | sysRstAssert
  | sysPwrokDeassert
  | perst (asserted : Bool)
  | imageVerify
  | diesBoot (answered passed router : BitVec 72)
  | dieAnswerTimeout (p : PDie)
  | memoryBoot (trained : BitVec 72) (readouts : Bytes)
  | engineBringup (e : BitVec 3) (vendor device : BitVec 16) (caps : BitVec 3)
      (primary alternate : LinkTrial)
  | bootDoorbell (packet : Option Bytes)
  | firmwareLoad (image : Bytes)
  | provision
  | imageWrite (boot : Bool) (c : CmdId) (image : Bytes)
  | fwStart
  | linksBoot (views : List ModuleView)
  | ready
  | autostart (manifest programs : Option Bytes) (objects : List Bytes)
  | autostartPortTimeout
  | deviceReset (retrained : BitVec 72) (primary alternate : LinkTrials)
  -- rails, pacing, temperature, clocks
  | setpointChange (row : BitVec 3) (mv : BitVec 10) (pRow total : Nat)
  | avsFrameFail
  | avsRetry (r : AvsTrial)
  | rowOverVoltage (m : RowVolts)
  | overVoltageRelease (m : RowVolts)
  | rowOverCurrent (m : RowAmps)
  | packageExcursion (m : PackageAmps)
  | paceLowerTick (src : PaceSource)
  | paceRaiseTick (src : PaceSource)
  | issueRampStep (p : PDie)
  | thermalThrottle (p : PDie) (celsius : BitVec 8)
  | throttleRemoval (p : PDie)
  | throttleSetpointLower (row : BitVec 3)
  | throttleRecover (row : BitVec 3) (pRow total : Nat)
  | thermalClamp (p : PDie) (celsius : BitVec 8)
  | thermalClampRelease (p : PDie) (celsius : BitVec 8)
  | thermalHalt (p : PDie) (celsius : BitVec 8)
  | thermtrip (p : PDie) (celsius : BitVec 8)
  | refclkLoss
  | rowclkLoss (row : BitVec 3)
  | leclkLoss (e : BitVec 3)
  | mgtclkLoss
  | clockRestored (c : Clock)
  -- matrix ops and the array
  | mma (p : PDie) (t : ThreadId) (w : OpWord)
  | loada (p : PDie) (t : ThreadId) (w : OpWord)
  | loadb (p : PDie) (t : ThreadId) (w : OpWord)
  | swap (p : PDie) (t : ThreadId) (w : OpWord)
  | drain (p : PDie) (t : ThreadId) (w : OpWord)
  | drainStart (p : PDie)
  | zeroAcc (p : PDie) (t : ThreadId) (w : OpWord)
  | accFileAccess (p : PDie) (off : BitVec 41) (len : Nat) (data : Option Bytes)
  | opCompletion (p : PDie) (op : Nat)
  -- vector ops
  | convert (p : PDie) (t : ThreadId) (w : OpWord)
  | rngDraw (p : PDie) (t : ThreadId) (w : OpWord)
  | vadd (p : PDie) (t : ThreadId) (w : OpWord)
  | vsub (p : PDie) (t : ThreadId) (w : OpWord)
  | vmul (p : PDie) (t : ThreadId) (w : OpWord)
  | vfma (p : PDie) (t : ThreadId) (w : OpWord)
  | vdiv (p : PDie) (t : ThreadId) (w : OpWord)
  | vsqrt (p : PDie) (t : ThreadId) (w : OpWord)
  | vmin (p : PDie) (t : ThreadId) (w : OpWord)
  | vmax (p : PDie) (t : ThreadId) (w : OpWord)
  | vminnum (p : PDie) (t : ThreadId) (w : OpWord)
  | vmaxnum (p : PDie) (t : ThreadId) (w : OpWord)
  | vcmp (p : PDie) (t : ThreadId) (w : OpWord)
  | vsel (p : PDie) (t : ThreadId) (w : OpWord)
  | vexp2 (p : PDie) (t : ThreadId) (w : OpWord)
  | vlog2 (p : PDie) (t : ThreadId) (w : OpWord)
  | vrcp (p : PDie) (t : ThreadId) (w : OpWord)
  | vrsqrt (p : PDie) (t : ThreadId) (w : OpWord)
  | vcvt (p : PDie) (t : ThreadId) (w : OpWord)
  | vreduce (p : PDie) (t : ThreadId) (w : OpWord)
  | vload (p : PDie) (t : ThreadId) (w : OpWord)
  | vstore (p : PDie) (t : ThreadId) (w : OpWord)
  | vsplat (p : PDie) (t : ThreadId) (w : OpWord)
  | vget (p : PDie) (t : ThreadId) (w : OpWord)
  | vregWrite (p : PDie) (t : ThreadId) (w : OpWord)
  | vregRead (p : PDie) (t : ThreadId) (w : OpWord)
  -- control and scalar ops, threads, program store
  | nop (p : PDie) (t : ThreadId) (w : OpWord)
  | waitOp (p : PDie) (t : ThreadId) (w : OpWord)
  | waitTimeout (p : PDie) (t : ThreadId)
  | signal (p : PDie) (t : ThreadId) (w : OpWord)
  | branch (p : PDie) (t : ThreadId) (w : OpWord)
  | loopOp (p : PDie) (t : ThreadId) (w : OpWord)
  | endOp (p : PDie) (t : ThreadId) (w : OpWord)
  | yieldOp (p : PDie) (t : ThreadId) (w : OpWord)
  | fence (p : PDie) (t : ThreadId) (w : OpWord)
  | seti (p : PDie) (t : ThreadId) (w : OpWord)
  | alu (p : PDie) (t : ThreadId) (w : OpWord)
  | sload (p : PDie) (t : ThreadId) (w : OpWord)
  | sstore (p : PDie) (t : ThreadId) (w : OpWord)
  | rdtime (p : PDie) (t : ThreadId) (w : OpWord)
  | launch (p : PDie) (w : Writer) (v : BitVec 32)
  | progLoad (p : PDie) (w : Writer) (v : BitVec 32)
  | progLoadComplete (p : PDie)
  | scratchpadClear (p : PDie)
  | spdWriteBack (p : PDie)
  -- movement ops
  | dma (p : PDie) (t : ThreadId) (w : OpWord)
  | skewcopy (p : PDie) (t : ThreadId) (w : OpWord)
  | gather (p : PDie) (t : ThreadId) (w : OpWord)
  | scatter (p : PDie) (t : ThreadId) (w : OpWord)
  | widen (p : PDie) (t : ThreadId) (w : OpWord)
  -- messaging ops, beads, fabric
  | send (p : PDie) (t : ThreadId) (w : OpWord)
  | recv (p : PDie) (t : ThreadId) (w : OpWord)
  | peek (p : PDie) (t : ThreadId) (w : OpWord)
  | peekRecvTimeout (p : PDie) (op : Nat)
  | openOp (p : PDie) (t : ThreadId) (w : OpWord)
  | closeOp (p : PDie) (t : ThreadId) (w : OpWord)
  | routerForward (p : PDie) (out : Fin 8) (f : Frame)
  | beadArrival (p : PDie) (h : BitVec 256) (payload : Bytes) (payloadUe : Bool)
  | openBead (p : PDie) (h : BitVec 256)
  | closeBead (p : PDie) (h : BitVec 256)
  | credit (p : PDie) (h : BitVec 256)
  | delivered (p : PDie) (h : BitVec 256)
  | nak (p : PDie) (h : BitVec 256)
  | answerTimeout (p : PDie) (handle : BitVec 10)
  | stall (p : PDie) (t : ThreadId)
  -- version registry
  | verUseBind (p : PDie) (t : ThreadId) (w : OpWord)
  | verUseByNumber (p : PDie) (t : ThreadId) (w : OpWord)
  | verUseLookup (p : PDie) (t : ThreadId) (w : OpWord)
  | verUseTimeout (p : PDie) (op : Nat)
  | verNewAlloc (p : PDie) (t : ThreadId) (w : OpWord)
  | verNewSeal (p : PDie) (t : ThreadId) (w : OpWord)
  | verNewInitial (p : PDie) (t : ThreadId) (w : OpWord)
  | verPin (p : PDie) (t : ThreadId) (w : OpWord)
  | verReleaseRef (p : PDie) (t : ThreadId) (w : OpWord)
  | verReleaseUnpin (p : PDie) (t : ThreadId) (w : OpWord)
  | verReleaseDiscard (p : PDie) (t : ThreadId) (w : OpWord)
  -- reduction and ledger
  | accumPush (p : PDie) (t : ThreadId) (w : OpWord)
  | rapArrival (p : PDie) (h : BitVec 512) (payload : Bytes)
  | sweepComplete (p : PDie) (mc : Bool) (ctx : BitVec 11)
  | tallyAdd (p : PDie) (t : ThreadId) (w : OpWord)
  | tallyCombine (p : PDie) (dir : BitVec 3) (egress : Option (BitVec 3)) (h : BitVec 256)
  | tallyCombineRelease (p : PDie) (dir : BitVec 3) (h : BitVec 256)
  | collectorTally (p : PDie) (h : BitVec 256)
  | ledgerTally (p : PDie) (h : BitVec 256)
  | ledgerDeadline (p : PDie)
  | noticeResend (p : PDie)
  | commitNotice (p : PDie) (h : BitVec 256)
  | repeatNotice (p : PDie) (h : BitVec 256)
  | stopNotice (p : PDie) (h : BitVec 256)
  | ledgerDoneDone (p : PDie) (t : ThreadId) (w : OpWord)
  | ledgerDoneWaitctx (p : PDie) (t : ThreadId) (w : OpWord)
  | ledgerDoneRelease (p : PDie) (t : ThreadId) (w : OpWord)
  | ledgerDoneTimeout (p : PDie) (op : Nat)
  | ldgEnable (p : PDie) (w : Writer) (v : BitVec 32)
  | ldgDisable (p : PDie) (w : Writer) (v : BitVec 32)
  | contextConfig (p : PDie) (w : Writer) (mc : Bool) (ctx : BitVec 11) (word : BitVec 2) (v : BitVec 32)
  | collectorEnable (p : PDie) (w : Writer) (c : BitVec 8) (v : BitVec 32)
  | reshard (c : CmdId)
  -- memory controllers
  | mcRequest (p : PDie) (r : McReq)
  | mcReadReturn (p : PDie) (mc : Bool) (i : Nat)
  | writeBatchDrain (p : PDie) (mc : Bool) (ch : BitVec 2)
  | mcEccWriteBack (p : PDie) (mc : Bool)
  | patrolScrub (p : PDie) (mc : Bool)
  | refresh (p : PDie) (mc : Bool) (ch : BitVec 2)
  | tempReadout (p : PDie) (mc : Bool) (celsius : BitVec 8)
  | tgStart (p : PDie) (w : Writer) (mc : Bool) (ch : BitVec 2) (v : BitVec 32)
  | tgPassDone (p : PDie) (mc : Bool) (ch : BitVec 2) (ticks : BitVec 48)
  | regionSet (c : CmdId)
  -- Wilkel ports
  | linkTransmit (p : PDie)
  | dataReceive (p : PDie) (pkt : Bytes)
  | idleReceive (p : PDie) (pkt : Bytes)
  | vcBufferRelease (p : PDie) (vc : BitVec 2)
  | linkIdleTimer (p : PDie)
  | gapTimeout (p : PDie)
  | replayTimeout (p : PDie)
  | replayReq (p : PDie) (pkt : Bytes)
  | laneLossOfLock (p : PDie) (lane : Fin 18)
  | laneWindowEnd (p : PDie) (csym ucw : List Nat)
  | laneFail (p : PDie) (pkt : Bytes)
  | laneFailRepeat (p : PDie)
  | laneAck (p : PDie) (pkt : Bytes)
  | linkResume (p : PDie) (pkt : Bytes)
  | linkReset (p : PDie) (pkt : Bytes)
  | linkResetAck (p : PDie) (pkt : Bytes)
  | linkTrainingDone (p : PDie) (goodTx goodRx : BitVec 18) (rttNs : BitVec 20)
  | linkTrainingFail (p : PDie)
  | linkDownRetry (p : PDie)
  | retrainReq (p : PDie) (w : Writer)
  | portDisable (p : PDie) (w : Writer)
  | relayFailover (p : PDie) (alternateOk : Bool)
  -- laser modules
  | moduleInsert (bay : BitVec 3) (view : ModuleView)
  | moduleLock (bay : BitVec 3)
  | moduleLoss (bay : BitVec 3) (cause : LossCause)
  | elsUsagePoll (readings : List (BitVec 16 × BitVec 8))
  | elsUsageWrite (bay : BitVec 3) (ok : Bool)
  | elsReleaseBay (w : Writer) (r : BayRelease)
  | elsAccept (c : CmdId)
  | engineLightLoss (e : BitVec 3)
  | engineProbe (e : BitVec 3)
  -- host attachment
  | doorbell (f : FnId) (ring : BitVec 4) (idx : BitVec 32)
  | commandFetch (f : FnId) (q : BitVec 2) (entry : Bytes) (payload : Option Bytes)
  | completionPost (f : FnId) (q : BitVec 2)
  | hostReadTimeout (c : CmdId)
  | nopCommand (c : CmdId)
  | fenceCommand (c : CmdId)
  | copyIn (c : CmdId) (data : Bytes)
  | copyOut (c : CmdId)
  | bar2Read (f : FnId) (off : BitVec 36) (len : Nat)
  | bar2Write (f : FnId) (off : BitVec 36) (data : Bytes)
  | diagApertureRead (p : PDie) (r : DiagAccess)
  | telemetrySnapshot
  | resultReturn (f : FnId) (hi : BitVec 32)
  | inputDescriptor (f : FnId) (ring : BitVec 3) (desc data : Bytes)
  | inputConsumed (p : PDie) (w : Writer) (b : BitVec 2) (v : BitVec 32)
  | registerRing (f : FnId)
  | unregisterRing (f : FnId)
  | mapWindow (f : FnId)
  | unmapWindow (f : FnId)
  | queryUndelivered (f : FnId)
  | redeliver (f : FnId)
  | discardUndelivered (f : FnId)
  | readReg (f : FnId)
  | elsRelease (f : FnId)
  | recoverySet (f : FnId)
  | hostLinkDown
  | functionLevelReset (f : FnId)
  | busMasterDisable (f : FnId)
  -- Crucible
  | worldAssign (c : CmdId)
  | keyRotate (c : CmdId)
  | debugUnlock (c : CmdId)
  | attest (c : CmdId) (writeOk : Bool)
  | attestPubkey (c : CmdId)
  | attestCert (c : CmdId)
  -- partitions and jobs
  | partitionForm (c : CmdId)
  | partitionDissolve (c : CmdId)
  | jobLoad (c : CmdId)
  | jobUnload (c : CmdId)
  | jobStart (c : CmdId)
  | jobPause (c : CmdId)
  | jobResume (c : CmdId)
  | jobStopDrain (c : CmdId)
  | jobStopAbort (c : CmdId)
  | jobDrainTimeout (j : BitVec 4)
  | jobShare (c : CmdId)
  | evalRun (c : CmdId)
  | autoEval (j : BitVec 4)
  | autoEvalTimeout (j : BitVec 4)
  | kernelSubmit (c : CmdId)
  | jobQuery (c : CmdId)
  | bucketRefill (p : PDie)
  | powerEstimate (p : PDie)
  | powerRequest (p : PDie) (src : PDie) (h : BitVec 256)
  | powerGrant (p : PDie) (h : BitVec 256)
  | tokenAudit
  | tokenAuditRead
  | centralDivision
  | setpointRaiseRetry (row : BitVec 3) (pRow total : Nat)
  -- recovery
  | watchdog (p : PDie)
  | reckonerKick
  | reckonerWdog
  | partitionReset (part : BitVec 3) (late : BitVec 72)
  | escalation (part : BitVec 3)
  | resetPartition (c : CmdId)
  | resetDevice (c : CmdId)
  | sparing (p : PDie) (retrained : Bool)
  | bindTimeout (p : PDie)
  | jobRecovery (part : BitVec 3)
  | replicaRestore (p : PDie) (j : BitVec 4)
  | lehrRequest (p : PDie) (h : BitVec 256)
  | lehrPartReceive (p : PDie)
  | capture (p : PDie) (w : Writer) (v : BitVec 32)
  | lehrRestore (p : PDie) (w : Writer) (v : BitVec 32)
  | shardReady (p : PDie) (w : Writer) (v : BitVec 32)
  | parisonUnpin (p : PDie) (j : BitVec 4)
  | ledgerResume (p : PDie) (w : Writer) (v : BitVec 32)
  | exportSlot (c : CmdId)
  | exportObject (c : CmdId)
  | restore (c : CmdId) (objects : List Bytes)
  | teardownTimeout (j : BitVec 4)
  | receivedLightReturn (e : BitVec 3)
  deriving DecidableEq, Repr

end Sys2Proof
end

