-- ==== Sys2Proof/WellFormed.lean ====
section
/-! DEFINITION. What a command must be like to be one that the spec's environment can send: sizes that its rule fixes. -/

namespace Sys2Proof

/-- A command that keeps the sizes its rule fixes: registers are 32-bit words at offsets that are multiples of 4 (R11);
two readouts per die (R71); eight modules (R336); whole accesses (R104, R290); 18 lanes (R324); entries of 64 bytes (R366)
and descriptors of 32 (R376); TLPs within 4 KiB (R354); frames in units of 32 bytes (R194, R249); packets with their
header (R397). -/
def Instr.wellFormed : Instr → Bool
  | .registerWrite _ _ off _ => decide (off.toNat % 4 = 0)
  | .vddAonApply => true
  | .sysRstRelease => true
  | .sysRstAssert => true
  | .sysPwrokDeassert => true
  | .perst _ => true
  | .imageVerify => true
  | .diesBoot _ _ _ => true
  | .dieAnswerTimeout _ => true
  | .memoryBoot _ readouts => decide (readouts.length = 144)
  | .engineBringup _ _ _ _ _ _ => true
  | .bootDoorbell packet => packet.all (fun b => decide (64 ≤ b.length))
  | .firmwareLoad _ => true
  | .provision => true
  | .imageWrite _ _ _ => true
  | .fwStart => true
  | .linksBoot views => decide (views.length = 8)
  | .ready => true
  | .autostart _ _ _ => true
  | .autostartPortTimeout => true
  | .deviceReset _ _ _ => true
  | .setpointChange _ _ _ _ => true
  | .avsFrameFail => true
  | .avsRetry _ => true
  | .rowOverVoltage _ => true
  | .overVoltageRelease _ => true
  | .rowOverCurrent _ => true
  | .packageExcursion _ => true
  | .paceLowerTick _ => true
  | .paceRaiseTick _ => true
  | .issueRampStep _ => true
  | .thermalThrottle _ _ => true
  | .throttleRemoval _ => true
  | .throttleSetpointLower _ => true
  | .throttleRecover _ _ _ => true
  | .thermalClamp _ _ => true
  | .thermalClampRelease _ _ => true
  | .thermalHalt _ _ => true
  | .thermtrip _ _ => true
  | .refclkLoss => true
  | .rowclkLoss _ => true
  | .leclkLoss _ => true
  | .mgtclkLoss => true
  | .clockRestored _ => true
  | .mma _ _ _ => true
  | .loada _ _ _ => true
  | .loadb _ _ _ => true
  | .swap _ _ _ => true
  | .drain _ _ _ => true
  | .drainStart _ => true
  | .zeroAcc _ _ _ => true
  | .accFileAccess _ _ len data => decide (0 < len) && (data.all (fun bs => decide (bs.length = len)))
  | .opCompletion _ _ => true
  | .convert _ _ _ => true
  | .rngDraw _ _ _ => true
  | .vadd _ _ _ => true
  | .vsub _ _ _ => true
  | .vmul _ _ _ => true
  | .vfma _ _ _ => true
  | .vdiv _ _ _ => true
  | .vsqrt _ _ _ => true
  | .vmin _ _ _ => true
  | .vmax _ _ _ => true
  | .vminnum _ _ _ => true
  | .vmaxnum _ _ _ => true
  | .vcmp _ _ _ => true
  | .vsel _ _ _ => true
  | .vexp2 _ _ _ => true
  | .vlog2 _ _ _ => true
  | .vrcp _ _ _ => true
  | .vrsqrt _ _ _ => true
  | .vcvt _ _ _ => true
  | .vreduce _ _ _ => true
  | .vload _ _ _ => true
  | .vstore _ _ _ => true
  | .vsplat _ _ _ => true
  | .vget _ _ _ => true
  | .vregWrite _ _ _ => true
  | .vregRead _ _ _ => true
  | .nop _ _ _ => true
  | .waitOp _ _ _ => true
  | .waitTimeout _ _ => true
  | .signal _ _ _ => true
  | .branch _ _ _ => true
  | .loopOp _ _ _ => true
  | .endOp _ _ _ => true
  | .yieldOp _ _ _ => true
  | .fence _ _ _ => true
  | .seti _ _ _ => true
  | .alu _ _ _ => true
  | .sload _ _ _ => true
  | .sstore _ _ _ => true
  | .rdtime _ _ _ => true
  | .launch _ _ _ => true
  | .progLoad _ _ _ => true
  | .progLoadComplete _ => true
  | .scratchpadClear _ => true
  | .spdWriteBack _ => true
  | .dma _ _ _ => true
  | .skewcopy _ _ _ => true
  | .gather _ _ _ => true
  | .scatter _ _ _ => true
  | .widen _ _ _ => true
  | .send _ _ _ => true
  | .recv _ _ _ => true
  | .peek _ _ _ => true
  | .peekRecvTimeout _ _ => true
  | .openOp _ _ _ => true
  | .closeOp _ _ _ => true
  | .routerForward _ _ _ => true
  | .beadArrival _ _ payload _ => decide (payload.length % 32 = 0)
  | .openBead _ _ => true
  | .closeBead _ _ => true
  | .credit _ _ => true
  | .delivered _ _ => true
  | .nak _ _ => true
  | .answerTimeout _ _ => true
  | .stall _ _ => true
  | .verUseBind _ _ _ => true
  | .verUseByNumber _ _ _ => true
  | .verUseLookup _ _ _ => true
  | .verUseTimeout _ _ => true
  | .verNewAlloc _ _ _ => true
  | .verNewSeal _ _ _ => true
  | .verNewInitial _ _ _ => true
  | .verPin _ _ _ => true
  | .verReleaseRef _ _ _ => true
  | .verReleaseUnpin _ _ _ => true
  | .verReleaseDiscard _ _ _ => true
  | .accumPush _ _ _ => true
  | .rapArrival _ _ payload => decide (payload.length % 32 = 0)
  | .sweepComplete _ _ _ => true
  | .tallyAdd _ _ _ => true
  | .tallyCombine _ _ _ _ => true
  | .tallyCombineRelease _ _ _ => true
  | .collectorTally _ _ => true
  | .ledgerTally _ _ => true
  | .ledgerDeadline _ => true
  | .noticeResend _ => true
  | .commitNotice _ _ => true
  | .repeatNotice _ _ => true
  | .stopNotice _ _ => true
  | .ledgerDoneDone _ _ _ => true
  | .ledgerDoneWaitctx _ _ _ => true
  | .ledgerDoneRelease _ _ _ => true
  | .ledgerDoneTimeout _ _ => true
  | .ldgEnable _ _ _ => true
  | .ldgDisable _ _ _ => true
  | .contextConfig _ _ _ _ _ _ => true
  | .collectorEnable _ _ _ _ => true
  | .reshard _ => true
  | .mcRequest _ r => !r.write || decide (0 < r.data.length)
  | .mcReadReturn _ _ _ => true
  | .writeBatchDrain _ _ _ => true
  | .mcEccWriteBack _ _ => true
  | .patrolScrub _ _ => true
  | .refresh _ _ _ => true
  | .tempReadout _ _ _ => true
  | .tgStart _ _ _ _ _ => true
  | .tgPassDone _ _ _ _ => true
  | .regionSet _ => true
  | .linkTransmit _ => true
  | .dataReceive _ _ => true
  | .idleReceive _ _ => true
  | .vcBufferRelease _ _ => true
  | .linkIdleTimer _ => true
  | .gapTimeout _ => true
  | .replayTimeout _ => true
  | .replayReq _ _ => true
  | .laneLossOfLock _ _ => true
  | .laneWindowEnd _ csym ucw => decide (csym.length = 18) && decide (ucw.length = 18)
  | .laneFail _ _ => true
  | .laneFailRepeat _ => true
  | .laneAck _ _ => true
  | .linkResume _ _ => true
  | .linkReset _ _ => true
  | .linkResetAck _ _ => true
  | .linkTrainingDone _ _ _ _ => true
  | .linkTrainingFail _ => true
  | .linkDownRetry _ => true
  | .retrainReq _ _ => true
  | .portDisable _ _ => true
  | .relayFailover _ _ => true
  | .moduleInsert _ _ => true
  | .moduleLock _ => true
  | .moduleLoss _ _ => true
  | .elsUsagePoll readings => decide (readings.length = 8)
  | .elsUsageWrite _ _ => true
  | .elsReleaseBay _ _ => true
  | .elsAccept _ => true
  | .engineLightLoss _ => true
  | .engineProbe _ => true
  | .doorbell _ _ _ => true
  | .commandFetch _ _ entry _ => decide (entry.length = 64)
  | .completionPost _ _ => true
  | .hostReadTimeout _ => true
  | .nopCommand _ => true
  | .fenceCommand _ => true
  | .copyIn _ _ => true
  | .copyOut _ => true
  | .bar2Read _ off len => decide (0 < len) && decide (off.toNat % 4096 + len ≤ 4096)
  | .bar2Write _ off data => decide (0 < data.length) && decide (off.toNat % 4096 + data.length ≤ 4096)
  | .diagApertureRead _ r => !r.wide || decide (r.off.toNat % 8 = 0)
  | .telemetrySnapshot => true
  | .resultReturn _ _ => true
  | .inputDescriptor _ _ desc _ => decide (desc.length = 32)
  | .inputConsumed _ _ _ _ => true
  | .registerRing _ => true
  | .unregisterRing _ => true
  | .mapWindow _ => true
  | .unmapWindow _ => true
  | .queryUndelivered _ => true
  | .redeliver _ => true
  | .discardUndelivered _ => true
  | .readReg _ => true
  | .elsRelease _ => true
  | .recoverySet _ => true
  | .hostLinkDown => true
  | .functionLevelReset _ => true
  | .busMasterDisable _ => true
  | .worldAssign _ => true
  | .keyRotate _ => true
  | .debugUnlock _ => true
  | .attest _ _ => true
  | .attestPubkey _ => true
  | .attestCert _ => true
  | .partitionForm _ => true
  | .partitionDissolve _ => true
  | .jobLoad _ => true
  | .jobUnload _ => true
  | .jobStart _ => true
  | .jobPause _ => true
  | .jobResume _ => true
  | .jobStopDrain _ => true
  | .jobStopAbort _ => true
  | .jobDrainTimeout _ => true
  | .jobShare _ => true
  | .evalRun _ => true
  | .autoEval _ => true
  | .autoEvalTimeout _ => true
  | .kernelSubmit _ => true
  | .jobQuery _ => true
  | .bucketRefill _ => true
  | .powerEstimate _ => true
  | .powerRequest _ _ _ => true
  | .powerGrant _ _ => true
  | .tokenAudit => true
  | .tokenAuditRead => true
  | .centralDivision => true
  | .setpointRaiseRetry _ _ _ => true
  | .watchdog _ => true
  | .reckonerKick => true
  | .reckonerWdog => true
  | .partitionReset _ _ => true
  | .escalation _ => true
  | .resetPartition _ => true
  | .resetDevice _ => true
  | .sparing _ _ => true
  | .bindTimeout _ => true
  | .jobRecovery _ => true
  | .replicaRestore _ _ => true
  | .lehrRequest _ _ => true
  | .lehrPartReceive _ => true
  | .capture _ _ _ => true
  | .lehrRestore _ _ _ => true
  | .shardReady _ _ _ => true
  | .parisonUnpin _ _ => true
  | .ledgerResume _ _ _ => true
  | .exportSlot _ => true
  | .exportObject _ => true
  | .restore _ _ => true
  | .teardownTimeout _ => true
  | .receivedLightReturn _ => true

end Sys2Proof
end

