-- ==== Sys2Proof/Config.lean ====
section
/-! DEFINITION. What one part fixes and the spec leaves open: free values with no body, so that
no proof can see what they are. Each is named in the assumption log. -/

namespace Sys2Proof.Config

/-- Draw `n` of the Crucible's entropy source (R54, R199, R328), 128 bits. PRESUMED free (log 2). -/
opaque entropy : Nat → BitVec 128
/-- The silicon revision fused into `DIE_ID` (R191) of physical die `p` (log 4). -/
opaque revision : Nat → BitVec 4
/-- The device root key in one-time storage (R392), 32 bytes (log 4). -/
opaque deviceRootKey : Bytes
/-- The 128-bit device identifier in one-time storage (R392) (log 4). -/
opaque deviceId : BitVec 128
/-- The factory certificate of the attestation key, 2,820 bytes (R392) (log 4). -/
opaque factoryCertificate : Bytes
/-- Draw `n` of a value the spec gives no number for (log 2). -/
opaque freeValue : Nat → BitVec 64
/-- Draw `n` of a value that die `p` finds where the spec gives no number, 64 bits (log 2). -/
opaque freeDie : (p n : Nat) → BitVec 64
/-- Handshakes with an operand wait or an output wait at die `p` between two counts of array steps (R102, R120):
no rule gives the waits' lengths (log 56). -/
opaque feedStalls : (p from_ to_ : Nat) → BitVec 32
/-- As `feedStalls`, for output waits. -/
opaque laneStalls : (p from_ to_ : Nat) → BitVec 32
/-- Handshakes in which the first `n` SWAPs that met an unfinished DRAIN waited (R120) (log 56). -/
opaque swapWaits : (p n : Nat) → BitVec 32
/-- Vector handshakes of a CONVERT or RNG_DRAW of `count` blocks: R423 counts them, and no rule gives
their rate (log 2). -/
opaque convertHandshakes : (count : Nat) → Nat
/-- The fused energies of R430: the estimate, in tokens of 1/32 W, that a die forms from its
array steps, vector handshakes, port accesses, seam flits, row setpoint in mV and junction
temperature (log 7). -/
opaque powerEstimate : (steps vec port flits mv junction : Nat) → BitVec 20
/-- Whether 0 × Inf + quiet NaN raises `INVALID`: IEEE 754-2019 leaves it open and R129 names no
choice (log 2). -/
opaque fmaInvalid : Bool

/-- Where a logical die's owned optimizer shard lies, as LPDDR extents (address, bytes) of job `job`: the
layout is the stage program's (R453), which no rule gives (log 2). -/
opaque shardExtents : (job die : Nat) → List (Nat × Nat)

end Sys2Proof.Config
end

