-- ==== Sys2Proof/Machine/Bits.lean ====
section
/-! DEFINITION. Bit fields, signed readings, little-endian byte strings and the canonical sparse
tables that hold every register and memory ("Numbers, units and fields" of 00_scope.md). -/

namespace Sys2Proof.Machine

/-- Bits [hi:lo] of a natural number. -/
def bitsOf (x hi lo : Nat) : Nat := (x >>> lo) % 2 ^ (hi + 1 - lo)

/-- Bit `i` of a natural number. -/
def bitOf (x i : Nat) : Bool := bitsOf x i i == 1

/-- `x` with bits [hi:lo] replaced by the low bits of `v`. -/
def putBits (x hi lo v : Nat) : Nat :=
  x - (bitsOf x hi lo) <<< lo + (v % 2 ^ (hi + 1 - lo)) <<< lo

/-- A Bool as a bit. -/
def bit (b : Bool) : Nat := if b then 1 else 0

/-- The two's-complement reading of the low `n` bits of `x`. -/
def signedOf (n x : Nat) : Int :=
  let v := x % 2 ^ n
  if v < 2 ^ (n - 1) then (v : Int) else (v : Int) - (2 ^ n : Nat)

/-- The low `n` bits of the two's complement of an integer. -/
def wrapInt (n : Nat) (i : Int) : Nat := (i % (2 ^ n : Nat)).toNat

/-- The smallest multiple of `n` that is at least `x`. -/
def roundUp (x n : Nat) : Nat := (x + n - 1) / n * n

/-- `⌈a / b⌉`. -/
def ceilDiv (a b : Nat) : Nat := (a + b - 1) / b

/-- A count that saturates at the top of its `n` bits. -/
def satAdd (n x y : Nat) : Nat := min (x + y) (2 ^ n - 1)

/-- `n` little-endian bytes of `v`. -/
def leBytes : (n v : Nat) → Bytes
  | 0, _ => []
  | n + 1, v => BitVec.ofNat 8 v :: leBytes n (v / 256)

/-- The number that little-endian bytes spell. -/
def leNat : Bytes → Nat
  | [] => 0
  | b :: bs => b.toNat + 256 * leNat bs

/-- Bytes `[o, o + n)` of a byte string; bytes past its end read 0. -/
def sliceB (bs : Bytes) (o n : Nat) : Bytes :=
  let t := (bs.drop o).take n
  t ++ List.replicate (n - t.length) 0

/-- The little-endian number at byte `o`, `n` bytes long. -/
def natAt (bs : Bytes) (o n : Nat) : Nat := leNat (sliceB bs o n)

/-- `bs` with `vs` laid over it from byte `o`. -/
def overlayB (bs : Bytes) (o : Nat) (vs : Bytes) : Bytes :=
  bs.take o ++ vs ++ bs.drop (o + vs.length)

/-- The integer square root, by bits from the top: `r` with `r² ≤ x < (r + 1)²` for `x < 4^n`. -/
def isqrtFrom : (n x r : Nat) → Nat
  | 0, _, r => r
  | n + 1, x, r =>
    let r' := r + 2 ^ n
    isqrtFrom n x (if r' * r' ≤ x then r' else r)

/-- The integer square root of `x`. -/
def isqrt (x : Nat) : Nat := isqrtFrom (Nat.log2 x / 2 + 1) x 0

/-! ## Checks of headers and packets -/

/-- One bit step of the CRC-16 of R195. -/
def crc16Bit (c : BitVec 16) : BitVec 16 := if c.msb then (c <<< 1) ^^^ 0x1021 else c <<< 1

/-- One byte of the CRC-16 of R195. -/
def crc16Byte (c : BitVec 16) (b : Byte) : BitVec 16 :=
  let c := c ^^^ (b.setWidth 16 <<< 8)
  crc16Bit (crc16Bit (crc16Bit (crc16Bit (crc16Bit (crc16Bit (crc16Bit (crc16Bit c)))))))

/-- CRC-16 with polynomial 0x1021, initial value 0xFFFF, no reflection, no final inversion (R195). -/
def crc16 (bs : Bytes) : BitVec 16 := bs.foldl crc16Byte 0xFFFF

/-- One bit step of the CRC-32 of R313, reflected. -/
def crc32Bit (c : BitVec 32) : BitVec 32 :=
  if c.getLsbD 0 then (c >>> 1) ^^^ 0xEDB88320 else c >>> 1

/-- One byte of the CRC-32. -/
def crc32Byte (c : BitVec 32) (b : Byte) : BitVec 32 :=
  let c := c ^^^ b.setWidth 32
  crc32Bit (crc32Bit (crc32Bit (crc32Bit (crc32Bit (crc32Bit (crc32Bit (crc32Bit c)))))))

/-- The IEEE 802.3 frame check sequence (R313). -/
def crc32 (bs : Bytes) : BitVec 32 := ~~~(bs.foldl crc32Byte 0xFFFFFFFF)

/-- The first index in a list at which `p` holds. -/
def findIdx {α : Type} (p : α → Bool) (l : List α) : Option Nat := l.findIdx? p

/-- `l` with element `i` replaced by `f` of it. -/
def modifyNth {α : Type} (f : α → α) (i : Nat) (l : List α) : List α := l.modify i f

/-- A list of `n` values of `f`, in ascending order. -/
def tabulate {α : Type} (n : Nat) (f : Nat → α) : List α := (List.range n).map f

/-! ## Sparse tables in canonical form -/

/-- What a table of keys and values reads at key `k`; an unlisted key reads `d k`. -/
def tabGet {α : Type} (d : Nat → α) (t : List (Nat × α)) (k : Nat) : α :=
  match t.lookup k with
  | some v => v
  | none => d k

/-- The entries of a run of values at keys `k`, `k + 1`, …: those that differ from the default. -/
def tabRun {α : Type} [DecidableEq α] (d : Nat → α) : (k : Nat) → List α → List (Nat × α)
  | _, [] => []
  | k, v :: vs => if v = d k then tabRun d (k + 1) vs else (k, v) :: tabRun d (k + 1) vs

/-- The table with the values `vs` at keys `k`, `k + 1`, …. -/
def tabPut {α : Type} [DecidableEq α] (d : Nat → α) (t : List (Nat × α)) (k : Nat) (vs : List α) :
    List (Nat × α) :=
  t.filter (fun e => decide (e.1 < k)) ++
    (tabRun d k vs ++ t.filter (fun e => decide (k + vs.length ≤ e.1)))

/-- The table with value `v` at key `k`. -/
def tabSet {α : Type} [DecidableEq α] (d : Nat → α) (t : List (Nat × α)) (k : Nat) (v : α) :
    List (Nat × α) := tabPut d t k [v]

/-- The table with every key of [lo, hi) back at its default. -/
def tabDrop {α : Type} (t : List (Nat × α)) (lo hi : Nat) : List (Nat × α) :=
  t.filter (fun e => decide (e.1 < lo) || decide (hi ≤ e.1))

/-- `n` values of a table from key `k`. -/
def tabSlice {α : Type} (d : Nat → α) (t : List (Nat × α)) : (k n : Nat) → List α
  | _, 0 => []
  | k, n + 1 => tabGet d t k :: tabSlice d t (k + 1) n

/-- The keys of a list of entries rise strictly, all from `lo`, and no entry holds its default. -/
def tabWfFrom {α : Type} [DecidableEq α] (d : Nat → α) : (lo : Nat) → List (Nat × α) → Bool
  | _, [] => true
  | lo, (k, v) :: t => decide (lo ≤ k) && decide (v ≠ d k) && tabWfFrom d (k + 1) t

/-- The canonical form of a table. -/
def tabWf {α : Type} [DecidableEq α] (d : Nat → α) (t : List (Nat × α)) : Bool := tabWfFrom d 0 t

end Sys2Proof.Machine
end

