-- ==== Sys2Proof/Machine/State.lean ====
section
/-! DEFINITION. The state of the block: every piece of state that spec/ gives the KTV-7264, as
plain data, and its state after reset. INVENTORY.md lists each piece with its rule. -/

namespace Sys2Proof.Machine

/-- A sparse table in canonical form: keys rise strictly, and no entry equals what an unlisted key
reads as. -/
abbrev Tab (α : Type) := List (Nat × α)

/-- The status codes of R13. -/
inductive Status where
  | ok | closed | staleEpoch | genMismatch | attemptStale | worldViolation | badTag
  | counterReplay | invalidState | scaleOverrun | poisoned | unreachable | malformed
  | resourceExhausted | timeout | unverified
  deriving DecidableEq, Repr

/-! ## Threads and long ops (06_stage_execution.md) -/

/-- The thread states of R159. -/
inductive ThState where
  | free | ready | waitToken | waitQueue | waitCredit | ending | faulted
  deriving DecidableEq, Repr

/-- An operand descriptor of R113. -/
structure Desc where
  base : BitVec 17
  stride : BitVec 16
  fmt : BitVec 4
  tiles : BitVec 2
  skewN : BitVec 2
  deriving DecidableEq, Repr

/-- The descriptor after a thread's context is reset: `FMT` 0xF (R113, R160). -/
def Desc.reset : Desc := ⟨0, 0, 0xF, 0, 0⟩

/-- What holds a thread (R159, R167): nothing; an op it has not issued; a WAIT op; a FENCE. -/
inductive Hold where
  | none
  | op (opcode : BitVec 8) (w : OpWord)
  | wait (sd : BitVec 5) (collect hoe : Bool) (limitUs : BitVec 20) (since : BitVec 48)
      (mask : BitVec 16)
  | fence
  deriving DecidableEq, Repr

/-- A thread context (R159). -/
structure Thread where
  st : ThState := .free
  pc : BitVec 17 := 0
  s : Tab Word64 := []
  counts : Tab (BitVec 4) := []
  tokSt : Tab Status := []
  descA : Desc := Desc.reset
  descB : Desc := Desc.reset
  last : Status := .ok
  hold : Hold := .none
  deriving DecidableEq, Repr

/-- The unit that carries out a long op (R164). -/
inductive OpUnit where
  | array | vector | dma | msg | red | ver
  deriving DecidableEq, Repr

/-- How far a long op has come: queued, in progress, or finished with a status and not yet
completed towards its thread (R163, R164). -/
inductive OpPhase where
  | queued | running | done (st : Status)
  deriving DecidableEq, Repr

/-- What an entry of an op queue is: an op of a thread; the marker of a DRAIN in the vector queue
(R188); an access through target 0x2 that waits its turn (R105). -/
inductive OpKind where
  | op
  | marker (drain : Nat)
  | access (off : BitVec 41) (len : Nat) (data : Option Bytes)
  deriving DecidableEq, Repr

/-- A long op between issue and completion (R155, R164), with what it took from its thread at
issue: its operands, the `OREG` offset, the scalars it names, both descriptors, and the job. -/
structure LongOp where
  id : Nat
  kind : OpKind := .op
  thread : ThreadId
  opcode : BitVec 8
  flags : BitVec 8
  x : BitVec 96
  off : BitVec 17
  sval : Word64
  sval2 : Word64
  descA : Desc
  descB : Desc
  job : BitVec 4
  unit : OpUnit
  phase : OpPhase
  since : BitVec 48
  /-- scalar register and value written on completion (R189, R210, R238, R271) -/
  result : Option (BitVec 5 × Word64)
  /-- answers still awaited (R208, R258) -/
  pend : Nat
  /-- the lowest-numbered packet not answered `OK`, and its answer (R258) -/
  worst : Option (Nat × Status)
  /-- a DRAIN whose marker is placed (R188), or a SEND of poisoned data (R219) -/
  mark : Bool
  /-- packets of an ACCUM_PUSH already cut, and the pair stamped at issue (R258) -/
  sent : Nat := 0
  stamp : Nat := 0
  deriving DecidableEq, Repr

/-- A range of threads of a job with its class (R415, R429). -/
structure ThreadRange where
  job : BitVec 4
  first : BitVec 11
  count : Nat
  cls : BitVec 2
  deriving DecidableEq, Repr

/-- A check-bit error of a 32-bit scratchpad word (R176, R177). -/
inductive SpdMark where
  | good | single | double
  deriving DecidableEq, Repr

/-- The check word of a 32-byte LPDDR half (R281). -/
inductive LpMark where
  | good | single | bad | poison
  deriving DecidableEq, Repr

/-- A running program-store load (R162). -/
structure ProgLoad where
  src : Nat
  dst : Nat
  count : Nat
  deriving DecidableEq, Repr

/-! ## Rods and sends (07_rods_beads.md) -/

/-- A bead that a rod holds (R197): its header, where it lies, and its place in units. -/
structure HeldBead where
  h : BitVec 256
  spill : Bool
  at_ : Nat
  deriving DecidableEq, Repr

/-- What a send handle stands for (R207, R212, R213, R258), or a bead of
the Lehr (R452, R453). -/
inductive SendKind where
  | send (entry : Nat) (units : Nat)
  | openS (rod : BitVec 12) (credit : Nat)
  | closeS
  | rap (index : Nat)
  | lehr (entry : Nat) (units : Nat)
  deriving DecidableEq, Repr

/-- A send handle in use: the op it serves, what it carries, the epoch and sequence number an answer
must bring back, and the tick of its issue. -/
structure Handle where
  op : Nat
  kind : SendKind
  epoch : BitVec 16
  seq : BitVec 16
  since : BitVec 48
  deriving DecidableEq, Repr

/-- What crosses a seam in one turn (R214): an inline bead, or a segment of a longer bead or of a packet.
`frame` holds the header and this segment's part of the payload; `cont`: not the first of its frame;
`last`: the frame ends with it; `egress`: the port that the looking-up router wrote into the framing
(R307); `op`: the TALLY_ADD of this die that ends when the bead leaves the die (R265). -/
structure Seg where
  frame : Frame
  cont : Bool := false
  last : Bool := true
  egress : Option (BitVec 3) := none
  op : Option Nat := none
  deriving DecidableEq, Repr

/-- A tally bead that a router holds for combining (R264): its output and lane, the TALLY_ADD ops that end
when it leaves (R265), and whether its interval has ended. -/
structure HeldTally where
  dir : BitVec 3
  lane : Nat
  egress : Option (BitVec 3)
  h : BitVec 256
  since : BitVec 48
  ops : List Nat
  due : Bool
  deriving DecidableEq, Repr

/-! ## Memory controllers (10_memory.md) -/

/-- A request that a controller has accepted and not answered, or a queued write (R292). -/
structure McSlot where
  req : McReq
  channel : BitVec 2
  answered : Bool
  since : BitVec 48
  deriving DecidableEq, Repr

/-! ## Port blocks (11_wilkel.md) -/

/-- A DATA packet as the cullet or a buffer holds it (R313, R316): its sequence number, virtual channel,
flags, units used minus 1, and body. -/
structure DataPkt where
  seq : Nat
  vc : Nat
  start : Bool
  cont : Bool
  rap : Bool
  unitsM1 : Nat
  body : Bytes
  deriving DecidableEq, Repr

/-- A segment on its way out (R314): its flags, the units still to be sent, and whether its first
packet is still to come. -/
structure OutSeg where
  cont : Bool
  rap : Bool
  fresh : Bool
  bytes : Bytes
  deriving DecidableEq, Repr

/-- A segment that leaves a receive buffer (R314): its flags, what has left, and the units to come. -/
structure InSeg where
  cont : Bool
  rap : Bool
  bytes : Bytes
  left : Nat
  deriving DecidableEq, Repr

/-- A frame of several segments that has come through the port in part (R314): its header, and the units
to come. -/
structure InFrame where
  head : Frame
  left : Nat
  deriving DecidableEq, Repr

/-- The link layer of a port (R316 to R331), beside its registers. -/
structure Wlk where
  /-- segments waiting on each virtual channel, and the headers of frames whose segments the port is
  still taking -/
  tx : Tab (List OutSeg) := []
  opened : List Frame := []
  cullet : List DataPkt := []
  /-- a pending replay: the next packet of the cullet to be sent again -/
  replay : Option Nat := none
  /-- consecutive replays that released nothing, and consecutive failed trainings -/
  replays : Nat := 0
  retrains : Nat := 0
  /-- LINKCTL bodies waiting to be sent -/
  ctl : List Bytes := []
  lastVc : Nat := 3
  /-- packets held ahead of a gap, with the tick of their arrival -/
  held : List (DataPkt × BitVec 48) := []
  /-- the last REPLAY_REQ: its `NEXT_RX` and its tick -/
  lastReq : Option (Nat × BitVec 48) := none
  /-- units still to be accepted of the segment in progress on each virtual channel -/
  accLeft : Tab Nat := []
  rx : Tab (List DataPkt) := []
  seg : Tab (Option InSeg) := []
  frames : List InFrame := []
  /-- transmit lanes that the far side has marked failed -/
  txFailed : BitVec 18 := 0
  /-- receive lanes named in a LANE_FAIL that no LANE_ACK has settled -/
  unacked : BitVec 18 := 0
  /-- UCIe below 32 GT/s: narrow from the start (R74, R325) -/
  narrow : Bool := false
  /-- the optical path is trained; a RESUME of the far side waits: its epoch and `NEXT_RX` -/
  trained : Bool := false
  farResume : Option (Nat × Nat) := none
  /-- loop time measured by the last training -/
  rtt : Nat := 0
  /-- a sequence history exists since switch-on, and the epoch proposed in state RESET -/
  history : Bool := false
  proposed : Nat := 0
  /-- a link reset has begun and not ended: the history cannot be resumed (R328) -/
  owed : Bool := false
  /-- packets sent on the line, oldest first, each with its lane; the lane last served, and the lanes that
  have carried a packet since the last IDLE (R317, R324) -/
  line : List (Nat × Bytes) := []
  lane : Nat := 17
  busy : BitVec 18 := 0
  deriving DecidableEq, Repr

/-! ## Lehr (16_recovery.md) -/

/-- A part that a running restore waits for (R452): its code 0 OBJECT, 1 SLOT, 2 PROGRAM, 3
MANIFEST; the package that sends it; stage; index or version; place in LPDDR and bytes; bytes received. -/
structure LehrPart where
  pkg : Nat
  part : BitVec 2
  stage : BitVec 2
  index : Nat
  slot : Nat
  dst : Nat
  len : Nat
  got : Bytes
  deriving DecidableEq, Repr

/-- A BULK_PUSH bead that the Lehr has still to send (R452, R453): its rod, job, tag, version and payload,
and whether it belongs to a journal object. -/
structure LehrOut where
  pkg : Nat
  die : Nat
  rod : Nat
  job : Nat
  tag : Nat
  version : Nat
  journal : Bool
  payload : Bytes
  deriving DecidableEq, Repr

/-! ## A Pylek die -/

/-- What a Pylek die runs (R20, R46): its domain off; its router alone; everything. -/
inductive DieRun where
  | off | routeOnly | active
  deriving DecidableEq, Repr

/-- A Pylek die: its register space and every storage behind it. -/
structure Die where
  /-- physical number, fused (R7, R191) -/
  phys : Nat := 0
  run : DieRun := .off
  /-- its router passed its last test (R68) -/
  routerOk : Bool := false
  /-- package and logical number (0x7F: none) bound to the die (R7, R8, R191) -/
  pkg : BitVec 12 := 0
  logical : BitVec 7 := 0x7F
  /-- register words by offset in the die's register space (R11); unlisted: After reset -/
  regs : Tab Word32 := []
  -- sequencer (R159 to R164)
  threads : Tab Thread := []
  lastIssued : ThreadId := 0x7FF
  ranges : List ThreadRange := []
  /-- CLASSES mode of the die's partition (R425), and engine units that each job consumed since the
  last refill (R424) -/
  classes : Bool := false
  used : Tab Nat := []
  /-- the model's own: free values drawn at this die (log 2) -/
  free : Nat := 0
  ops : List LongOp := []
  nextOp : Nat := 0
  prog : Tab (BitVec 128) := []
  progLoad : Option ProgLoad := none
  -- scratchpad, accumulators, vector registers (R172, R103, R184)
  spd : List Host.Cell := []
  spdMarks : Tab SpdMark := []
  spdWb : Option Nat := none
  acc : List Host.Cell := []
  /-- answers to accesses through target 0x2, oldest first (R104) -/
  accOut : List (Status × Bytes) := []
  vregs : Tab Word32 := []
  -- rods, sends and router (R197, R207, R214)
  rods : Tab (List HeldBead) := []
  handles : Tab (Option Handle) := []
  /-- world of each credit cache entry (R388) -/
  ccWorld : Tab Bool := []
  /-- segments that wait at the router's inputs: 2 × input + lane (R214, R215) -/
  rt : Tab (List Seg) := []
  /-- the lane that each output served last, and its last input by 2 × output + lane (R215) -/
  rtLane : Tab Nat := []
  rtLast : Tab Nat := []
  /-- directions of the spanning tree by route table entry, for frames on lane 1 (R216) -/
  tree : Tab Nat := []
  /-- headers of frames refused or discarded in part, whose other segments are still to come -/
  cut : List Frame := []
  /-- frames of which the die has received some segments and not the last -/
  parts : List Frame := []
  inbox : List Frame := []
  held : List HeldTally := []
  -- LPDDR and its controllers (R280, R281, R292)
  lpddr : List Host.Cell := []
  lpMarks : Tab LpMark := []
  lpWb : Tab (Option Nat) := []
  mcReqs : Tab (List McSlot) := []
  mcWrites : Tab (List McSlot) := []
  /-- answers of the controllers to requests, oldest first (R283, R290, R292) -/
  mcOut : List (AccClass × Status × Bytes) := []
  /-- the open page of each bank, plus 1, by 16 × channel + 4 × bank group + bank, and whether each channel
  last served a needle read (R279, R294) -/
  openPage : Tab Nat := []
  lastNeedle : Tab Bool := []
  ctxWait : List (Bool × BitVec 512 × Bytes) := []
  /-- contexts that have sent their CTX_POISON or CTX_GENMISMATCH tally of this arming (R254) -/
  ctxTold : Tab Bool := []
  scrubPos : Tab Nat := []
  -- port block
  wlk : Wlk := {}
  -- step ledger (R267, R268)
  ldgNotice : Option (BitVec 256) := none
  /-- events raised to the management complex, oldest first: block base of the register -/
  events : List Nat := []
  -- power and thermal (R44, R52, R94, R430, R434)
  /-- junction temperature last reported, °C -/
  junction : BitVec 8 := 0
  /-- the halt of R52, and the lost row clock of R49 -/
  thermHalt : Bool := false
  clkLost : Bool := false
  /-- the thermal clamp at 8 of 16 (R52) -/
  clamp : Bool := false
  /-- slots that the pacing wire of the row allows (R44), and those of the issue ramp (R94) -/
  rowPace : Nat := 16
  ramp : Nat := 16
  /-- the MMAs that have begun of late, with their tick and array steps (R94) -/
  admitted : List (BitVec 48 × Nat) := []
  /-- array steps counted at the last reset of the array, and SWAPs that waited for a DRAIN since it (R120) -/
  stallFrom : Nat := 0
  swapsHeld : Nat := 0
  /-- writes of `ARR_DRAIN_GEN0` to `3` while a drain runs: offset and word (R108) -/
  genWrites : List (Nat × Nat) := []
  /-- successive estimates below 15/16 of the holding (R430) -/
  lowEstimates : Nat := 0
  /-- neighbours asked for tokens, with the tick (R431) -/
  asked : Tab (BitVec 48) := []
  /-- counts at the last estimate: array steps, vector handshakes, port accesses, seam flits (R430) -/
  estAt : Nat × Nat × Nat × Nat := (0, 0, 0, 0)
  /-- frames given to a seam (R430) -/
  seamFlits : Nat := 0
  -- health history (R444)
  /-- times of its watchdog expiries and thermal halts on the MGTCLK counter -/
  wdogAt : List Nat := []
  haltAt : List Nat := []
  /-- the patrol period and the uncorrectable errors counted at its start (R285, R444) -/
  patrol : Nat × Nat := (0, 0)
  -- Lehr (R452 to R454)
  /-- parts expected by a running restore, in order: part, stage, index or version, bytes received -/
  lehrWant : List LehrPart := []
  lehrJob : BitVec 4 := 0
  /-- the last journal object written: its window and its bytes (R453, R454) -/
  object : Option (BitVec 48 × Bytes) := none
  /-- a device reset has ended the export of that object (R454) -/
  unsent : Bool := false
  /-- `GO` of `LHR_OP_HI` has been written and the Lehr has not yet acted (R447, R448, R453) -/
  lhrGo : Bool := false
  /-- beads still to be sent, and those of journal objects sent and not yet delivered: handle and sequence
  number (R454) -/
  lehrOut : List LehrOut := []
  lehrSent : List (Nat × Nat) := []
  deriving DecidableEq, Repr

/-! ## The host interface (13_host.md) -/

/-- What ring registration binds an IN ring to (R377). -/
structure Binding where
  die : Nat
  b : Nat
  job : Nat
  /-- staging base in bytes, slot size in 64-byte units, slots -/
  base : Nat
  units : Nat
  slots : Nat
  /-- window entries (R379): window, ring index, `COUNT`, `CONSUMED` -/
  wins : List (Nat × Nat × Nat × Nat)
  /-- window and micro-batch of every descriptor delivered since the oldest entry (R384) -/
  seen : List (Nat × Nat)
  /-- after a new registration: descriptors that are to be skipped (R384) -/
  skip : List (Nat × Nat)
  /-- the first descriptor that the next registration requires, where none is to be skipped (R384) -/
  first : Option (Nat × Nat)
  lastWindow : Nat
  /-- the ring it is registered on: function and IN ring (R363) -/
  ring : Option (Nat × Nat)
  deriving DecidableEq, Repr

/-- A registered ring (R363, R381). -/
structure Ring where
  logS : Nat := 4
  base : Nat := 0
  vector : Option Nat := none
  deriving DecidableEq, Repr

/-- A command in progress (R366, R368). -/
structure Cmd where
  id : CmdId
  fn : FnId
  queue : BitVec 2
  /-- fetched through the boot page (R75) -/
  boot : Bool
  opcode : Nat
  irq : Bool
  resdev : Bool
  fscope : Nat
  partition : Nat
  cookie : BitVec 64
  /-- host address of the payload, its length, and the bytes fetched; of a critical command the payload
  after its header -/
  src : Nat
  srcLen : Nat
  payload : Bytes
  result : Nat
  resultLen : Nat
  imm : BitVec 128
  /-- world of the fetching queue (R388) -/
  world : Bool
  /-- `ATTACH` of the function at its fetch (R382) -/
  attach : Nat
  /-- a command that waits for threads: begun, and the die it runs on (R422, R426) -/
  begun : Bool
  die : Nat
  /-- the result slot that it fills: logical die and LPDDR offset (R374) -/
  slot : Option (Nat × Nat)
  deriving DecidableEq, Repr

/-- Where a result lies that could not be delivered (R383): none; bytes; an extent of a die's LPDDR. -/
inductive ResultData where
  | none
  | bytes (bs : Bytes)
  | lpddr (die off len : Nat)
  deriving DecidableEq, Repr

/-- A finished command whose completion waits (R369). -/
structure Finished where
  cookie : BitVec 64
  opcode : Nat
  status : Status
  irq : Bool
  bytes : Nat
  extra : BitVec 64
  data : ResultData
  attach : Nat
  redelivered : Bool
  /-- the undelivered record that it redelivers (R383) -/
  record : Option Nat := none
  deriving DecidableEq, Repr

/-- An undelivered record (R383). -/
structure Undelivered where
  id : Nat
  queue : Nat
  fin : Finished
  deriving DecidableEq, Repr

/-- A result slot that is not FREE (R374): where it lies, its bytes, and whether it is HELD. -/
structure Slot where
  die : Nat
  off : Nat
  len : Nat
  held : Bool
  deriving DecidableEq, Repr

/-- An entry of BAR2 (R358). -/
structure Window where
  die : Nat
  gib : Nat
  readOnly : Bool
  deriving DecidableEq, Repr

/-- A host function (R353): the PF or a VF. -/
structure Fn where
  /-- words of BAR0 by offset (R385) and of the telemetry snapshot (R362) -/
  regs : Tab Word32 := []
  snap : Tab Word32 := []
  rings : Tab Ring := []
  windows : Tab (Option Window) := []
  slots : List Slot := []
  records : List Undelivered := []
  nextRecord : Nat := 0
  /-- completions of each queue in completion order (R369) -/
  finished : Tab (List Finished) := []
  deriving DecidableEq, Repr

/-- What the device gives to the outside (R40, R369, R371, R357). -/
inductive Output where
  /-- a posted write into host memory; `bulk`: Relaxed Ordering and No-Snoop set (R371) -/
  | hostWrite (f : FnId) (addr : Nat) (data : Bytes) (bulk : Bool)
  | msix (f : FnId) (vector : Nat)
  /-- the data of a completed host read (R359, R361) -/
  | hostRead (f : FnId) (data : Bytes)
  /-- a write-and-commit over AVSBus (R41): rail select and mV, or mV/µs -/
  | avsTarget (rail mv : Nat)
  | avsRate (rail rate : Nat)
  /-- a read over AVSBus (R40, R41) -/
  | avsRead (rail : Nat) (what : AvsRead)
  /-- a write of a module's EEPROM or control page (R341, R344) -/
  | elsEeprom (bay off : Nat) (data : Bytes)
  | elsSetpoint (bay tenthMw : Nat)
  /-- a 2 ms probe of a dark engine (R340) -/
  | probe (engine : Nat)
  deriving DecidableEq, Repr

/-! ## Laser bays and light engines (12_laser_sources.md) -/

/-- A laser bay beside its registers (R345 to R350). -/
structure Bay where
  /-- the seated module as read, and the acceptance of R346: vendor and serial -/
  view : ModuleView := ⟨false, [], false⟩
  accepted : Option (Nat × Bytes) := none
  /-- use beyond whole thousandths, in 1/5,760 of one (R347), and seconds lit and at FULL since
  insertion -/
  frac : Nat := 0
  lit : Nat := 0
  full : Nat := 0
  /-- failed writes of the usage record in a row (R347) -/
  writeFails : Nat := 0
  /-- vendor and serial of the module whose use `MEFPH` counts (R347) -/
  owner : Option (Nat × Bytes) := none
  /-- the power manager's enable, and FAULT# low (R338, R339) -/
  enable : Bool := false
  fault : Bool := false
  /-- the output that the device asks for, in 0.1 mW (R337, R341) -/
  setpoint : Nat := 0
  deriving DecidableEq, Repr

/-- A light engine (R73, R340): its domain on, its transmit lanes dark, its alternate module trained and idle,
and the rate negotiated at the cold start (R80, step 6): 0 down, 1 16, 2 24, 3 32 GT/s. -/
structure Engine where
  on : Bool := false
  rate : Nat := 0
  dark : Bool := false
  alternateOk : Bool := false
  deriving DecidableEq, Repr

/-- A setpoint change that runs (R41, R42): the setpoint before it, the rail's voltage when it was sent, the MGTCLK
count then, and whether a comparator has acted on the row since. -/
structure Slew where
  old : Nat
  volts : Nat
  since : Nat
  tripped : Bool := false
  deriving DecidableEq, Repr

/-- What the power manager and the comparators hold of a row (R41, R42, R44, R434): the target that the regulator
holds, 0.72 V at its boot, and the change that runs. -/
structure Row where
  rail : Nat := 720
  slew : Option Slew := none
  ov : Bool := false
  oc : Nat := 16
  ocOn : Bool := false
  clkLost : Bool := false
  deriving DecidableEq, Repr

/-! ## Jobs and recovery (15_partitions.md, 16_recovery.md) -/

/-- A running evaluation (R427, R428): its version, the host command or the window it was started
for. -/
structure Eval where
  version : Nat
  cmd : Option CmdId
  window : Nat
  deriving DecidableEq, Repr

/-- What the Reckoner keeps of a job beside the job table (R415, R419, R427, R428, R441, R450, R454). -/
structure JobInfo where
  manDie : Nat := 0
  manAddr : Nat := 0
  /-- `LEDGER` and `PLACED` of the manifest's header -/
  ledger : Bool := false
  placed : Bool := false
  /-- PAUSED by a ledger STOP -/
  stopPause : Bool := false
  limitMs : Nat := 0
  eval : Option Eval := none
  /-- a window that waits for its automatic run, and the stages already pinned for it or for the run: 4 ×
  logical die + stage (R428) -/
  evalWait : Option Nat := none
  evalPins : List Nat := []
  /-- logical dies that have applied a COMMIT, with its window (R428) -/
  commits : Tab Nat := []
  /-- parison pins: 4 × logical die + stage, window, and whether it is pinned (R454) -/
  parisons : List (Nat × Nat × Bool) := []
  /-- times of the device resets that its recovery started, on the MGTCLK counter (R441) -/
  resets : List Nat := []
  /-- what a running restore of the job serves: 0 none, 1 recovery (R450), 2 RESTORE (R455), 3 autostart
  (R82) -/
  restoring : Nat := 0
  /-- the Lehr rod that RECOVERY_SET named (R456) -/
  rod : Option Nat := none
  deriving DecidableEq, Repr

/-- A capture record (R447). -/
structure Capture where
  die : Nat
  window : Nat
  job : Nat
  bytes : Bytes
  deriving DecidableEq, Repr

/-- The pins (R56, R58). -/
structure Pins where
  vddAon : Bool := false
  pwrok : Bool := false
  rstReleased : Bool := false
  perstReleased : Bool := false
  deriving DecidableEq, Repr

/-- The worlds of R388, as the bits of the WORLDS section (R389). -/
structure Worlds where
  dies : BitVec 64 := 0
  engines : BitVec 8 := 0
  functions : BitVec 9 := 0
  queues : BitVec 36 := 0
  dbg : BitVec 2 := 0
  deriving DecidableEq, Repr

/-- The Crucible beside its registers (R392 to R398, R404, R407). -/
structure Crucible where
  /-- owner key and K_rec of one-time storage, once PROVISION has written them -/
  otp : Option (Bytes × Bytes) := none
  /-- command master key KM -/
  km : Option Bytes := none
  /-- last accepted counter of each stream: 16 × fetch point + key -/
  streams : Tab Nat := []
  /-- signature indices in hand: next and limit -/
  attNext : Nat := 0
  attEnd : Nat := 0
  deriving DecidableEq, Repr

/-! ## The block -/

/-- The state of the block. -/
structure State where
  /-- commands that wait, first in first out (the model's own) -/
  pending : List Instr := []
  pins : Pins := {}
  dies : Tab Die := []
  /-- words of the Punty die's register space by offset (R11) -/
  punty : Tab Word32 := []
  /-- MGTCLK counter (R48, R362) -/
  mgtclk : BitVec 64 := 0
  mgtLost : Bool := false
  /-- REFCLK_PCIE is lost (R49) -/
  refLost : Bool := false
  /-- rows whose CLOCK_LOSS, and MGTCLK whose CLOCK_LOSS, has been raised: 0 to 7, 8 (R49) -/
  clockEvents : List Nat := []
  rows : Tab Row := []
  /-- package excursion: pace, and whether it holds (R44) -/
  excPace : Nat := 16
  excOn : Bool := false
  /-- the AVSBus frame last sent, its failures, and the pacing of R43 -/
  avsSent : Option Output := none
  avsFails : Nat := 0
  avsPaced : Bool := false
  -- always-on and retained (R54, R64, R75)
  nor : List Host.Cell := []
  image : Bytes := []
  imageDigest : Bytes := []
  firmware : Bytes := []
  fwDigest : Bytes := []
  fwWaiting : Bool := false
  lives : Tab (BitVec 4) := []
  /-- physical die of each logical number (R8, R69) -/
  binds : Tab (Option Nat) := []
  /-- region tables kept for logical dies: 128 words each (R286) -/
  regions : Tab Word32 := []
  worlds : Worlds := {}
  crucible : Crucible := {}
  /-- retired dies that wait for sparing (R444, R445) -/
  sparing : List Nat := []
  /-- the route-only dies that hold a spare's place: dies retired since the cold start (R444) -/
  retired : List Nat := []
  /-- logical dies on a new physical die, with a job whose state they still lack (R450) -/
  fresh : List (Nat × Nat) := []
  jobs : Tab JobInfo := []
  /-- autostart is under way: it waits for its ports or its extents (R82) -/
  autostart : Bool := false
  captures : List Capture := []
  /-- job records: the words of `RED_JOB`j by job (R451) -/
  jobRecs : Tab (List Word32) := []
  /-- registry records by logical die: offset and word of each slot and `LAST_COMMIT` (R451) -/
  regRecs : Tab (List (Nat × Word32)) := []
  engines : Tab Engine := []
  bays : Tab Bay := []
  fns : Tab Fn := []
  cmds : List Cmd := []
  /-- commands that have ended and whose result slot's memory does not serve yet: status, data and bytes 24 to 31
  of the completion (R374, R292) -/
  fills : List (Cmd × Status × Bytes × BitVec 64) := []
  nextCmd : CmdId := 0
  binding : List Binding := []
  outputs : List Output := []
  /-- the model's own: free values drawn outside the dies (log 2) -/
  free : Nat := 0
  deriving DecidableEq, Repr

/-- A stop of the block. No rule of the spec stops it: every command is answered (R13, R14), so there is
no fault. -/
inductive Fault where
  deriving DecidableEq, Repr

/-- A command without a meaning. -/
inductive Refusal where
  /-- The command of this name has no meaning yet; raised by the dispatch alone, and safe. -/
  | notModelled (mnemonic : String)
  deriving DecidableEq, Repr

/-- The block before VDD_AON is applied: every pin down, every register at its After reset value, every
storage empty. -/
def State.reset : State := {}

end Sys2Proof.Machine
end

