-- ==== Sys2Proof/Machine/Ops.lean ====
section
/-! DEFINITION. The named operations over registers, storages and threads of a die. -/

namespace Sys2Proof.Machine

/-! ## Status codes -/

/-- The code of a status (R13). -/
def Status.code : Status → Nat
  | .ok => 0x00
  | .closed => 0x01
  | .staleEpoch => 0x02
  | .genMismatch => 0x03
  | .attemptStale => 0x04
  | .worldViolation => 0x05
  | .badTag => 0x06
  | .counterReplay => 0x07
  | .invalidState => 0x08
  | .scaleOverrun => 0x09
  | .poisoned => 0x0A
  | .unreachable => 0x0B
  | .malformed => 0x0C
  | .resourceExhausted => 0x0D
  | .timeout => 0x0E
  | .unverified => 0x0F

/-- The status of a code; 0x10 to 0xFF are reserved (R13). -/
def statusOf : Nat → Option Status
  | 0x00 => some .ok
  | 0x01 => some .closed
  | 0x02 => some .staleEpoch
  | 0x03 => some .genMismatch
  | 0x04 => some .attemptStale
  | 0x05 => some .worldViolation
  | 0x06 => some .badTag
  | 0x07 => some .counterReplay
  | 0x08 => some .invalidState
  | 0x09 => some .scaleOverrun
  | 0x0A => some .poisoned
  | 0x0B => some .unreachable
  | 0x0C => some .malformed
  | 0x0D => some .resourceExhausted
  | 0x0E => some .timeout
  | 0x0F => some .unverified
  | _ => none

/-- The code of a thread state (R159). -/
def ThState.code : ThState → Nat
  | .free => 0
  | .ready => 1
  | .waitToken => 2
  | .waitQueue => 3
  | .waitCredit => 4
  | .ending => 5
  | .faulted => 6

/-! ## The register space of a die (R11) -/

/-- A field of a register: the register's offset in the die's space and the bits [hi:lo]. -/
structure Fld where
  off : Nat
  hi : Nat
  lo : Nat
  deriving DecidableEq, Repr

/-- Whether `x` is `base + stride * i` for some `i < n`. -/
def inArray (x base stride n : Nat) : Bool :=
  decide (base ≤ x) && decide (x < base + stride * n) && decide ((x - base) % stride = 0)

/-- The After reset word of each register of a Pylek die's space: the values that the register
tables of R120, R151, R193, R223, R275 to R278, R276, R303, R334, R437 and R458 give. Every other
word is 0. -/
def dieReset (off : Nat) : Word32 :=
  if off = 0x10040 then 1                                    -- ARR_DRAIN_GEN0
  else if inArray off 0x40100 8 16 then 0x200                -- VEC_SCALEn_CTL MARGIN 1
  else if inArray off 0x41100 16 64 then BitVec.ofNat 32 ((off - 0x41100) / 16 + 1)
  else if off = 0x2000C then 1                               -- SPD_CLEAR CLEARING
  else if off = 0x50010 then 5000                            -- ROD_ANSWER_LIMIT
  else if inArray off 0x50100 4 73 then 7                    -- ROD_ROUTEn DIR
  else if inArray off 0x90100 0x20 16 then 0xFE00            -- RED_JOBj_CTL NEXT 0x7F
  else if off = 0x92000 then 0x80                            -- LDG_CTL REPEAT_LIMIT 4
  else if off = 0x92018 then 600000                          -- LDG_DEADLINE
  else if off = 0x9201C then 100                             -- LDG_NOTICE
  else if off = 0xA0000 then 1000                            -- TAL_COMBINE
  else if off = 0x70004 ∨ off = 0x80004 then 0x140           -- MCx_SCHED
  else if inArray off 0x71008 0x40 4 || inArray off 0x7100C 0x40 4 || inArray off 0x81008 0x40 4 ||
      inArray off 0x8100C 0x40 4 then 1                      -- MCx_TGc_PAGES, _SEED
  else if inArray off 0x74000 32 1536 || inArray off 0x84000 32 1536 then 0x200  -- CFG MARGIN 2
  else if off = 0xB0008 then 0xF                             -- PWR_STATUS BUDGET_PACE
  else if off = 0xB000C then 720                             -- PWR_SETPOINT
  else if off = 0xD0004 then 0x30800                         -- WLK_CTL
  else if off = 0xD0014 then 12000                           -- WLK_REPLAY_NS
  else if off = 0xD0024 then 0x800008                        -- WLK_LANE_LIMITS
  else if inArray off 0xD0084 8 4 then 1024                  -- WLK_VCv_RX COUNTER
  else if off = 0x400 then 60000                             -- DIE_WDOG_CTL
  else 0

/-- The stored word of a register. -/
def Die.reg (d : Die) (off : Nat) : Nat := (tabGet dieReset d.regs off).toNat

/-- The die with a register word stored. -/
def Die.setReg (d : Die) (off v : Nat) : Die :=
  { d with regs := tabSet dieReset d.regs off (BitVec.ofNat 32 v) }

/-- A field of a register. -/
def Die.get (d : Die) (f : Fld) : Nat := bitsOf (d.reg f.off) f.hi f.lo

/-- The die with a field stored. -/
def Die.put (d : Die) (f : Fld) (v : Nat) : Die :=
  d.setReg f.off (putBits (d.reg f.off) f.hi f.lo v)

/-- A one-bit field as a Bool. -/
def Die.flag (d : Die) (off i : Nat) : Bool := bitOf (d.reg off) i

/-- The die with bit `i` of a register set. -/
def Die.setFlag (d : Die) (off i : Nat) : Die := d.put ⟨off, i, i⟩ 1

/-- A 48-bit field whose bits [47:32] stand in the next register. -/
def Die.reg48 (d : Die) (off : Nat) : Nat := d.reg off + bitsOf (d.reg (off + 4)) 15 0 <<< 32

/-- The die with such a field stored, the other bits of the second word kept. -/
def Die.setReg48 (d : Die) (off v : Nat) : Die :=
  (d.setReg off (v % 2 ^ 32)).put ⟨off + 4, 15, 0⟩ (v >>> 32)

/-- A 48-bit count that wraps, advanced by `n`. -/
def Die.add48 (d : Die) (off n : Nat) : Die := d.setReg48 off ((d.reg48 off + n) % 2 ^ 48)

/-- A 32-bit count that saturates, advanced by `n`. -/
def Die.count (d : Die) (off n : Nat) : Die := d.setReg off (satAdd 32 (d.reg off) n)

/-- The registers of [lo, hi) back at their After reset values. -/
def Die.resetRegs (d : Die) (lo hi : Nat) : Die := { d with regs := tabDrop d.regs lo hi }

/-- Raises the event of a block to the management complex. -/
def Die.event (d : Die) (base : Nat) : Die := { d with events := d.events ++ [base] }

/-- `INVALID_WRITE` of the identity page (R5, R191): `BLOCK` names the block of the first such
write. -/
def Die.invalidWrite (d : Die) (off : Nat) : Die :=
  if d.flag 0x4 0 then d
  else (d.setFlag 0x4 0).put ⟨0x4, 12, 8⟩ (bitsOf off 20 16)

/-- The row-reference counter (R169, R190). -/
def Die.rrc (d : Die) : BitVec 48 := BitVec.ofNat 48 (d.reg48 0x100)

/-- The world of the die (R388, R410). -/
def Die.world (d : Die) : Bool := d.flag 0xC0000 0

/-! ## The scratchpad (R172 to R177) -/

/-- Its size in bytes. -/
def spdBytes : Nat := 50331648
/-- Its size in port words. -/
def spdWords : Nat := 98304

/-- What an unlisted byte of a zeroed storage reads. -/
def zeroByte : Nat → Byte := fun _ => 0
/-- An unmarked word. -/
def goodSpd : Nat → SpdMark := fun _ => .good
/-- A half with a valid check word. -/
def goodLp : Nat → LpMark := fun _ => .good

/-- One correction of a read (R176): counted, and written back unless a write-back is queued. -/
def spdCorrect (d : Die) (w : Nat) : Die :=
  let d := d.count 0x20000 1
  match d.spdWb with
  | none => { d with spdWb := some w }
  | some _ => d

/-- One uncorrectable word (R177). -/
def spdUncorrectable (d : Die) (w : Nat) : Die :=
  let d := d.count 0x20004 1
  let d := if d.flag 0x20008 31 then d
    else d.setReg 0x20008 (w / 128 + (w % 128) <<< 17 + 1 <<< 31)
  (d.setFlag 0x30004 4).event 0x30000

/-- Port accesses granted to a client (R173, R193). -/
def spdGrant (client n : Nat) (d : Die) : Die := d.count (0x20010 + 4 * client) n

/-- Port words that an access of `len` bytes at `addr` touches. -/
def portWords (addr len : Nat) : Nat :=
  if len = 0 then 0 else (addr + len - 1) / 512 - addr / 512 + 1

/-- The marked 32-bit words of a byte range. -/
def spdBad (d : Die) (addr len : Nat) : List (Nat × SpdMark) :=
  if len = 0 then []
  else d.spdMarks.filter (fun e => decide (addr / 4 ≤ e.1) && decide (e.1 ≤ (addr + len - 1) / 4))

/-- A read of the scratchpad by a client: the bytes, the 32-bit words that cannot be corrected, and
what the read leaves behind (R176, R177). -/
def spdRead (client addr len : Nat) (d : Die) : Bytes × List Nat × Die :=
  let bad := spdBad d addr len
  let d' := bad.foldl (fun d e => match e.2 with
    | .single => spdCorrect d e.1
    | .double => spdUncorrectable d e.1
    | .good => d) (spdGrant client (portWords addr len) d)
  (tabSlice zeroByte d.spd addr len,
    (bad.filter (fun e => decide (e.2 = .double))).map (·.1), d')

/-- Clears the marks of the 32-bit words that a write covers whole. -/
def spdClearMarks (d : Die) (addr len : Nat) : Die :=
  { d with spdMarks := tabDrop d.spdMarks ((addr + 3) / 4) ((addr + len) / 4) }

/-- A write of the scratchpad by a client. A 32-bit word covered in part is read first (R172): a
single-bit error there is corrected, an uncorrectable word stays unreadable. -/
def spdWrite (client addr : Nat) (bs : Bytes) (d : Die) : Die :=
  if bs.length = 0 then d
  else
    let n := bs.length
    let head := decide (addr % 4 ≠ 0)
    let tail := decide ((addr + n) % 4 ≠ 0)
    let parts := (if head then [addr / 4] else []) ++
      (if tail && !(head && decide (addr / 4 = (addr + n) / 4)) then [(addr + n) / 4] else [])
    let d := spdGrant client (portWords addr n + parts.length) d
    let d := parts.foldl (fun d w => match tabGet goodSpd d.spdMarks w with
      | .single => { spdCorrect d w with spdMarks := tabSet goodSpd d.spdMarks w .good }
      | .double => spdUncorrectable d w
      | .good => d) d
    let d := spdClearMarks d addr n
    { d with spd := tabPut zeroByte d.spd addr bs }

/-- A write of whole 32-bit words with check bits that read as uncorrectable (R177). -/
def spdWriteBad (client addr : Nat) (bs : Bytes) (d : Die) : Die :=
  let d := spdWrite client addr bs d
  let marks := List.replicate ((addr + bs.length + 3) / 4 - addr / 4) .double
  { d with spdMarks := tabPut goodSpd d.spdMarks (addr / 4) marks }

/-! ## Threads (R159) -/

/-- The context of a thread. -/
def Die.thread (d : Die) (t : ThreadId) : Thread := tabGet (fun _ => {}) d.threads t.toNat

/-- The die with a thread's context stored. -/
def Die.setThread (d : Die) (t : ThreadId) (th : Thread) : Die :=
  { d with threads := tabSet (fun _ => {}) d.threads t.toNat th }

/-- A scalar register (R159). -/
def Thread.sreg (th : Thread) (r : Nat) : Word64 := tabGet (fun _ => 0) th.s r

/-- The thread with a scalar register written. -/
def Thread.setS (th : Thread) (r : Nat) (v : Word64) : Thread :=
  { th with s := tabSet (fun _ => 0) th.s r v }

/-- The count of a token. -/
def Thread.cnt (th : Thread) (t : Nat) : BitVec 4 := tabGet (fun _ => 0) th.counts t

/-- The thread with a token's count stored. -/
def Thread.setCnt (th : Thread) (t : Nat) (v : BitVec 4) : Thread :=
  { th with counts := tabSet (fun _ => 0) th.counts t v }

/-- The status of a token. -/
def Thread.tok (th : Thread) (t : Nat) : Status := tabGet (fun _ => .ok) th.tokSt t

/-- The thread with a token's status stored. -/
def Thread.setTok (th : Thread) (t : Nat) (v : Status) : Thread :=
  { th with tokSt := tabSet (fun _ => .ok) th.tokSt t v }

/-- The tokens that a mask names. -/
def maskedTokens (mask : BitVec 16) : List Nat :=
  (List.range 16).filter (fun i => mask.getLsbD i)

/-- Every token of a mask is ready (R163). -/
def Thread.tokensReady (th : Thread) (mask : BitVec 16) : Bool :=
  (maskedTokens mask).all (fun i => decide (th.cnt i = 0))

/-- The job of a thread: that of the range that holds it (R415, R429); none: job 0 (log 14). -/
def Die.threadJob (d : Die) (t : ThreadId) : BitVec 4 :=
  match d.ranges.find? (fun r => decide (r.first.toNat ≤ t.toNat) &&
      decide (t.toNat < r.first.toNat + r.count)) with
  | some r => r.job
  | none => 0

/-- The long ops that a thread has outstanding. -/
def Die.opsOf (d : Die) (t : ThreadId) : List LongOp :=
  d.ops.filter (fun o => decide (o.thread = t) && decide (o.kind = .op))

/-- A long op by its number. -/
def Die.op? (d : Die) (id : Nat) : Option LongOp := d.ops.find? (fun o => decide (o.id = id))

/-- The die with a long op changed. -/
def Die.modOp (d : Die) (id : Nat) (f : LongOp → LongOp) : Die :=
  { d with ops := d.ops.map (fun o => if o.id = id then f o else o) }

/-- A long op finished with a status and waiting for its completion. -/
def Die.opDone (d : Die) (id : Nat) (st : Status) : Die :=
  d.modOp id (fun o => { o with phase := .done st })

/-- Whether the entry takes one of the queue's places: markers do, accesses do not (R112, R188). -/
def LongOp.counts (o : LongOp) : Bool :=
  match o.kind with
  | .access _ _ _ => false
  | _ => true

/-- Entries of a unit's queue (R112, R183, R188). -/
def Die.depth (d : Die) (u : OpUnit) : Nat :=
  (d.ops.filter (fun o => decide (o.unit = u) && o.counts)).length

/-- Send handles in use (R207, R223). -/
def Die.sendsOut (d : Die) : Nat := d.handles.length

/-- No send handle in use. -/
def noHandle : Nat → Option Handle := fun _ => none

/-- `ROD_BLOCKED`t, word 1: the entry a thread waits on, and whether it waits (R221, R223). -/
def blockedReg (t : Nat) : Nat := 0x5C004 + 8 * t

/-- The record of R221 is cleared. -/
def unblock (t : Nat) (d : Die) : Die := (d.setReg (blockedReg t - 4) 0).setReg (blockedReg t) 0

/-- A thread faults (R158): it waits for nothing (R221), and `SEQ_FAULT` holds the first since `FAULT` was
clear. -/
def threadFault (t : ThreadId) (st : Status) (opcode : Nat) (d : Die) : Die :=
  let d := unblock t.toNat d
  let d := d.setThread t { d.thread t with st := .faulted, hold := .none }
  let d := if d.flag 0x30004 0 then d
    else d.setReg 0x30008 (t.toNat + st.code <<< 16 + opcode <<< 24)
  (d.setFlag 0x30004 0).event 0x30000

/-- Array and vector unit stand still: a thermal halt (R52) or a lost row clock (R49). -/
def Die.halted (d : Die) : Bool := d.thermHalt || d.clkLost

/-- The scratchpad's clearing pass runs and no client is served (R175). -/
def Die.clearing (d : Die) : Bool := d.flag 0x2000C 0

end Sys2Proof.Machine
end

