-- ==== Sys2Proof/Machine/Operands.lean ====
section
/-! DEFINITION. The operand forms of an op word (R152, R153) and the issue of an op (R155 to R158,
R163): its stalls, its checks, its rejection, its acceptance, its completion. -/

namespace Sys2Proof.Machine

/-- Bits [hi:lo] of the operands. -/
def opField (x : BitVec 96) (hi lo : Nat) : Nat := bitsOf x.toNat hi lo

/-- `HOE` (R153). -/
def wHoe (w : OpWord) : Bool := w.flags.getLsbD 0
/-- `SERIAL` (R153). -/
def wSerial (w : OpWord) : Bool := w.flags.getLsbD 1
/-- `OREG` (R153). -/
def wOreg (w : OpWord) : Nat := bitsOf w.flags.toNat 5 2

/-- The offset that `OREG` adds to every address field (R153). -/
def oregOff (th : Thread) (w : OpWord) : BitVec 17 :=
  if wOreg w = 0 then 0 else (th.sreg (wOreg w)).setWidth 17

/-- The operand bits that a list of fields covers. -/
def fieldMask : List (Nat × Nat) → Nat
  | [] => 0
  | (hi, lo) :: fs => (2 ^ (hi + 1) - 2 ^ lo) ||| fieldMask fs

/-- A reserved bit of `FLAGS` or of the operands is set (R156, check 2). -/
def reservedSet (w : OpWord) (fields : List (Nat × Nat)) : Bool :=
  decide (bitsOf w.flags.toNat 7 6 ≠ 0) || decide (w.x.toNat &&& fieldMask fields ≠ w.x.toNat)

/-- An op word from the program store (R152): its opcode and the rest. -/
def opWordOf (v : BitVec 128) : BitVec 8 × OpWord :=
  (v.extractLsb' 120 8, ⟨v.extractLsb' 112 8, v.extractLsb' 96 16, v.extractLsb' 0 96⟩)

/-- The unit of an opcode (R154, R164); `none`: a short op. -/
def unitOf (opcode : Nat) : Option OpUnit :=
  if opcode = 0x11 ∨ opcode = 0x12 then none
  else if opcode < 0x10 then none
  else if opcode < 0x20 then some .array
  else if opcode < 0x40 then some .vector
  else if opcode < 0x50 then some .dma
  else if opcode < 0x60 then some .msg
  else if opcode < 0x70 then some .red
  else some .ver

/-- The op needs a send handle (R207, R212, R213, R258). -/
def needsHandle (opcode : Nat) (x : BitVec 96) : Bool :=
  match opcode with
  | 0x50 => true
  | 0x53 => true
  | 0x54 => bitOf x.toNat 18
  | 0x60 => decide (opField x 64 49 ≠ 0)
  | _ => false

/-- A full queue of the op's unit (R112, R183, R188), or no send handle free (R207). -/
def queueFull (d : Die) (opcode : Nat) (x : BitVec 96) : Bool :=
  match unitOf opcode with
  | some .array => decide (16 ≤ d.depth .array)
  | some .vector => decide (32 ≤ d.depth .vector)
  | some .dma => decide (64 ≤ d.depth .dma)
  | _ => needsHandle opcode x && decide (1024 ≤ d.sendsOut)

/-- The sequencer of the die can issue (R20, R49, R175; a halt of R52 stops the array and the vector
unit, not the sequencer). -/
def seqRuns (d : Die) : Bool := decide (d.run = .active) && !d.clearing && !d.clkLost

/-- The class of a thread's range (R415); 4 for a thread outside every range, which has none. -/
def threadClass (d : Die) (t : ThreadId) : Nat :=
  match d.ranges.find? (fun r => decide (r.first.toNat ≤ t.toNat) &&
      decide (t.toNat < r.first.toNat + r.count)) with
  | some r => r.cls.toNat
  | none => 4

/-- `PAUSE` of a job at this die (R420, R436). -/
def paused (d : Die) (job : Nat) : Bool := d.flag (0x300 + 4 * job) 1

/-- The offset of a job's engine tallies and scheduling fields (R436). -/
def talJob (job : Nat) : Nat := 0xA9000 + 0x40 * job

/-- A job of class LATENCY_CRITICAL in CLASSES mode (R425, R436). -/
def latencyCritical (d : Die) (job : Nat) : Bool := d.classes && !d.flag (talJob job + 0x18) 8

/-- The scheduling gate of an array or vector op: a negative bucket in SHARES mode (R424); in CLASSES
mode a BEST_EFFORT job, and in either mode a thread of class EVAL, goes behind every other READY thread
that is LATENCY_CRITICAL or TRAIN and behind a queue of 4 (R425). -/
def gated (d : Die) (t : ThreadId) (opcode : Nat) : Bool :=
  let job := (d.threadJob t).toNat
  match unitOf opcode with
  | some u =>
    if u ≠ .array ∧ u ≠ .vector then false
    else
      let eval := decide (threadClass d t = 1)
      let ahead := d.threads.any (fun e => decide (e.1 ≠ t.toNat) && decide (e.2.st = .ready) &&
        (let o := BitVec.ofNat 11 e.1
         latencyCritical d (d.threadJob o).toNat || decide (threadClass d o = 0)))
      (!d.classes && d.flag (talJob job + 0x1C) 31) ||
        ((eval || (d.classes && decide (job ≠ 0) && !latencyCritical d job)) &&
          (ahead || decide (4 ≤ d.depth u)))
  | none => false

/-- The thread can issue its next op, or the op it is held at (R159, R156); a
paused job issues nothing (R420). -/
def canIssue (d : Die) (t : ThreadId) : Bool :=
  let th := d.thread t
  seqRuns d && !paused d (d.threadJob t).toNat && (decide (th.st = .ready) || (match th.hold with
    | .op _ _ => true
    | _ => false))

/-- An unready `WAIT` token or an earlier long op under `SERIAL` (R152, R153). -/
def preStall (d : Die) (t : ThreadId) (opcode : Nat) (w : OpWord) : Bool :=
  (decide (opcode ≠ 0x01) && !(d.thread t).tokensReady w.wait) ||
    (wSerial w && !(d.opsOf t).isEmpty)

/-- The thread waits at the op (R156). -/
def stallAt (d : Die) (t : ThreadId) (st : ThState) (opcode : Nat) (w : OpWord) : Die :=
  d.setThread t { d.thread t with st := st, hold := .op (BitVec.ofNat 8 opcode) w }

/-- The op has been issued: the thread moves past it and `SEQ_ISSUED` counts it (R161, R192). -/
def issued (d : Die) (t : ThreadId) : Die :=
  let th := d.thread t
  ({ d with lastIssued := t }.setThread t
    { th with pc := th.pc + 1, st := .ready, hold := .none }).add48 0x30030 1

/-- A short op or a rejected op finishes with a status other than `OK` (R157, R158). -/
def notOk (d : Die) (t : ThreadId) (opcode : Nat) (hoe : Bool) (st : Status) : Die :=
  let d := d.setThread t { d.thread t with last := st }
  if hoe then threadFault t st opcode d else d

/-- The op is rejected (R156, R157, R158). -/
def reject (d : Die) (t : ThreadId) (opcode : Nat) (w : OpWord) (st : Status) : Die :=
  notOk (issued d t) t opcode (wHoe w) st

/-- The stalls and checks of R156 that come before an op's own effect: `go` runs once the op issues
and passes. `chk` gives the reserved fields and the op's own checks in order. -/
def issueOp (opcode : Nat) (t : ThreadId) (w : OpWord) (fields : List (Nat × Nat))
    (chk : Die → Thread → Option Status) (go : Die → Thread → Die) (d : Die) : Die :=
  let th := d.thread t
  if !canIssue d t then d
  else if preStall d t opcode w then stallAt d t .waitToken opcode w
  else if reservedSet w fields then reject d t opcode w .malformed
  else match chk d th with
    | some st => reject d t opcode w st
    | none => go d th

/-- A new long op of a thread as it stands at issue (R155). -/
def newOp (d : Die) (t : ThreadId) (opcode : Nat) (w : OpWord) (u : OpUnit) : LongOp :=
  let th := d.thread t
  { id := d.nextOp, thread := t, opcode := BitVec.ofNat 8 opcode, flags := w.flags, x := w.x,
    off := oregOff th w, sval := 0, sval2 := 0, descA := th.descA, descB := th.descB,
    job := d.threadJob t, unit := u, phase := .queued, since := d.rrc, result := none, pend := 0,
    worst := none, mark := false }

/-- `TOKEN` of a long op (R155). -/
def LongOp.token (o : LongOp) : Nat := opField o.x 3 0
/-- `SIG` of a long op (R155). -/
def LongOp.sig (o : LongOp) : Bool := bitOf o.x.toNat 4
/-- An address field of a long op with its `OREG` offset (R153). -/
def LongOp.addr (o : LongOp) (hi lo : Nat) : Nat := opField o.x hi lo + o.off.toNat

/-- The op enters its unit: the thread moves on and the token counts it (R163). -/
def accept (d : Die) (t : ThreadId) (o : LongOp) : Die :=
  let d := { issued d t with ops := d.ops ++ [o], nextOp := d.nextOp + 1 }
  if o.sig then
    let th := d.thread t
    d.setThread t (th.setCnt o.token (th.cnt o.token + 1))
  else d

/-- A token count at 15 that the op would raise (R163). -/
def tokenFull (th : Thread) (w : OpWord) : Bool :=
  bitOf w.x.toNat 4 && decide (th.cnt (opField w.x 3 0) = 15)

/-- The issue of a long op (R155, R156, R163): checks, then a full queue or a token count at 15
stalls the thread in WAIT_QUEUE, else the op enters its unit and `post` is what the unit does at
once. -/
def issueLong (opcode : Nat) (u : OpUnit) (t : ThreadId) (w : OpWord) (fields : List (Nat × Nat))
    (chk : Die → Thread → Option Status) (mk : Thread → LongOp → LongOp)
    (post : LongOp → Die → Die) (d : Die) : Die :=
  issueOp opcode t w fields chk (fun d th =>
    if queueFull d opcode w.x || tokenFull th w || gated d t opcode then stallAt d t .waitQueue opcode w
    else
      let o := mk th (newOp d t opcode w u)
      post o (accept d t o)) d

/-- What a thread in WAIT_QUEUE or WAIT_TOKEN still lacks (R156). -/
def stillHeld (d : Die) (t : ThreadId) (th : Thread) : Bool :=
  match th.hold with
  | .op opc w =>
    if th.st = .waitToken then preStall d t opc.toNat w
    else if th.st = .waitQueue then
      queueFull d opc.toNat w.x || gated d t opc.toNat ||
        (if opc.toNat = 0x02 then
          decide ((d.thread (w.x.setWidth 11)).cnt (opField w.x 14 11) = 15)
        else (unitOf opc.toNat).isSome && tokenFull th w)
    else true
  | .wait _ _ _ _ _ mask => !th.tokensReady mask
  | .fence => !(d.opsOf t).isEmpty
  | .none => false

/-- s`SD` of a WAIT with `COLLECT` (R167): on expiry the first token that is not ready, else the
first status that is not `OK`. -/
def collectWord (th : Thread) (mask : BitVec 16) (expired : Bool) : Word64 :=
  let toks := maskedTokens mask
  let errs := toks.filter (fun i => decide (th.tok i ≠ .ok))
  let list := errs.foldl (fun a i => a + 1 <<< (16 + i)) 0
  let first := match errs with
    | i :: _ => (th.tok i).code + i <<< 8
    | [] => 0
  let low := if expired then
      Status.timeout.code + (match toks.find? (fun i => decide (th.cnt i ≠ 0)) with
        | some i => i <<< 8
        | none => 0)
    else first
  BitVec.ofNat 64 (low + list)

/-- A WAIT whose tokens are all ready finishes (R167): `COLLECT` writes s`SD` and clears the
statuses of the masked tokens. -/
def finishWait (th : Thread) (sd : BitVec 5) (collect : Bool) (mask : BitVec 16) : Thread :=
  let th' := if collect then
      (maskedTokens mask).foldl (fun th i => th.setTok i .ok)
        (th.setS sd.toNat (collectWord th mask false))
    else th
  { th' with st := .ready, hold := .none }

/-- One thread moves on if what held it is gone (R159, R166, R167). -/
def settleThread (d : Die) (t : ThreadId) : Die :=
  let th := d.thread t
  match th.st with
  | .ending => if (d.opsOf t).isEmpty then d.setThread t { th with st := .free } else d
  | .waitToken | .waitQueue =>
    if stillHeld d t th then d
    else match th.hold with
      | .wait sd c _ _ _ mask => d.setThread t (finishWait th sd c mask)
      | _ => d.setThread t { th with st := .ready, hold := .none }
  | _ => d

/-- Every thread that is held moves on if what held it is gone. -/
def settle (d : Die) : Die :=
  d.threads.foldl (fun d e => settleThread d (BitVec.ofNat 11 e.1)) d

/-- The token and `LAST_STATUS` effects of a long op's completion, and the fault of `HOE` (R157,
R158, R163). -/
def signalOp (o : LongOp) (st : Status) (d : Die) : Die :=
  if o.kind ≠ .op then d
  else
    let th := d.thread o.thread
    let th := match o.result with
      | some (r, v) => th.setS r.toNat v
      | none => th
    let th := if o.sig then
        let th := th.setCnt o.token (th.cnt o.token - 1)
        if st ≠ .ok ∧ th.tok o.token = .ok then th.setTok o.token st else th
      else th
    let th := if st = .ok then th else { th with last := st }
    let d := d.setThread o.thread th
    if st ≠ .ok ∧ o.flags.getLsbD 0 ∧ th.st ≠ .faulted then
      threadFault o.thread st o.opcode.toNat d
    else d

/-- A long op leaves its unit with a status (R163). -/
def finishOp (id : Nat) (st : Status) (d : Die) : Die :=
  match d.op? id with
  | none => d
  | some o =>
    let d := { d with ops := d.ops.filter (fun o => decide (o.id ≠ id)) }
    settle (signalOp o st d)

end Sys2Proof.Machine
end

