-- ==== Sys2Proof/Machine/Seq.lean ====
section
/-! DEFINITION. The control and scalar ops of R167 (SLOAD and SSTORE stand with the registers), and
thread launch (R160). -/

namespace Sys2Proof.Machine

/-- A short op that only changes its thread (R155): fields, checks, effect. -/
def shortOp (opcode : Nat) (t : ThreadId) (w : OpWord) (fields : List (Nat × Nat))
    (chk : Option Status) (eff : Die → Thread → Thread) (d : Die) : Die :=
  issueOp opcode t w fields (fun _ _ => chk)
    (fun d _ =>
      let d := issued d t
      d.setThread t (eff d (d.thread t))) d

/-- NOP (R167). -/
def dieNop (t : ThreadId) (w : OpWord) (d : Die) : Die :=
  shortOp 0x00 t w [] none (fun _ th => th) d

/-- WAIT (R167): issues whatever the tokens of `WAIT` are, then holds the thread on them. -/
def dieWait (t : ThreadId) (w : OpWord) (d : Die) : Die :=
  shortOp 0x01 t w [(25, 0)] none (fun d th =>
    let sd := BitVec.ofNat 5 (opField w.x 4 0)
    let collect := bitOf w.x.toNat 5
    if th.tokensReady w.wait then finishWait th sd collect w.wait
    else { th with st := .waitToken, hold := .wait sd collect (wHoe w)
                                      (BitVec.ofNat 20 (opField w.x 25 6)) d.rrc w.wait }) d

/-- The `TIMEOUT` of a WAIT expires (R167): `COLLECT` writes s`SD`, no status is cleared, and the op
finishes with `TIMEOUT` (R157, R158). It does not count while its job is paused (R420). -/
def dieWaitTimeout (t : ThreadId) (d : Die) : Die :=
  let th := d.thread t
  match th.hold with
  | .wait sd collect hoe limit _ mask =>
    if decide (limit = 0) || paused d (d.threadJob t).toNat || decide (d.run ≠ .active) then d
    else
      let th := if collect then th.setS sd.toNat (collectWord th mask true) else th
      notOk (d.setThread t { th with st := .ready, hold := .none }) t 0x01 hoe .timeout
  | _ => d

/-- SIGNAL (R167): arm adds 1 to a token of a thread of this die and stalls at 15; fire subtracts 1. -/
def dieSignal (t : ThreadId) (w : OpWord) (d : Die) : Die :=
  let u : ThreadId := BitVec.ofNat 11 (opField w.x 10 0)
  let k := opField w.x 14 11
  let fire := bitOf w.x.toNat 15
  issueOp 0x02 t w [(15, 0)]
    (fun d _ =>
      let o := d.thread u
      if o.st = .free ∨ o.st = .ending ∨ (fire ∧ o.cnt k = 0) then some .invalidState else none)
    (fun d _ =>
      if !fire && decide ((d.thread u).cnt k = 15) then stallAt d t .waitQueue 0x02 w
      else
        let d := issued d t
        let o := d.thread u
        settle (d.setThread u (o.setCnt k (if fire then o.cnt k - 1 else o.cnt k + 1)))) d

/-- The conditions of BRANCH (R167). -/
def branchTaken (cond : Nat) (v : Word64) : Bool :=
  match cond with
  | 0 => true
  | 1 => decide (v = 0)
  | 2 => decide (v ≠ 0)
  | 3 => v.msb
  | _ => !v.msb

/-- BRANCH (R167). -/
def dieBranch (t : ThreadId) (w : OpWord) (d : Die) : Die :=
  shortOp 0x03 t w [(24, 0)] (if 4 < opField w.x 24 22 then some .malformed else none) (fun _ th =>
    if branchTaken (opField w.x 24 22) (th.sreg (opField w.x 21 17)) then
      { th with pc := BitVec.ofNat 17 (opField w.x 16 0) }
    else th) d

/-- LOOP (R167). -/
def dieLoop (t : ThreadId) (w : OpWord) (d : Die) : Die :=
  shortOp 0x04 t w [(21, 0)] none (fun _ th =>
    let v := th.sreg (opField w.x 21 17) - 1
    let th := th.setS (opField w.x 21 17) v
    if v ≠ 0 then { th with pc := BitVec.ofNat 17 (opField w.x 16 0) } else th) d

/-- END (R166): ENDING until the thread's last long op completes, then FREE. -/
def dieEnd (t : ThreadId) (w : OpWord) (d : Die) : Die :=
  issueOp 0x05 t w [] (fun _ _ => none)
    (fun d _ =>
      let d := issued d t
      settleThread (d.setThread t { d.thread t with st := .ending }) t) d

/-- YIELD (R161): the issuing thread is last in the round-robin order, which starts after the thread
that last issued. -/
def dieYield (t : ThreadId) (w : OpWord) (d : Die) : Die :=
  shortOp 0x06 t w [] none (fun _ th => th) d

/-- FENCE (R167): holds the thread until its earlier long ops have completed. A SEND or ACCUM_PUSH
completes with its delivery answer (R208, R258), so `SCOPE` adds nothing to that. -/
def dieFence (t : ThreadId) (w : OpWord) (d : Die) : Die :=
  shortOp 0x07 t w [(0, 0)] none (fun d th =>
    if (d.opsOf t).isEmpty then th else { th with st := .waitToken, hold := .fence }) d

/-- SETI (R167). -/
def dieSeti (t : ThreadId) (w : OpWord) (d : Die) : Die :=
  shortOp 0x08 t w [(4, 0), (95, 32)] none (fun _ th =>
    th.setS (opField w.x 4 0) (w.x.extractLsb' 32 64)) d

/-- The ALU functions (R167). -/
def aluFn (f : Nat) (a b : Word64) : Word64 :=
  match f with
  | 0x0 => a + b
  | 0x1 => a - b
  | 0x2 => a &&& b
  | 0x3 => a ||| b
  | 0x4 => a ^^^ b
  | 0x5 => a <<< (b.toNat % 64)
  | 0x6 => a >>> (b.toNat % 64)
  | 0x7 => a.sshiftRight (b.toNat % 64)
  | 0x8 => a * b
  | 0x9 => if a.toInt ≤ b.toInt then a else b
  | 0xA => if a.toInt ≤ b.toInt then b else a
  | _ => if a.toNat < b.toNat then 1 else 0

/-- ALU (R167). -/
def dieAlu (t : ThreadId) (w : OpWord) (d : Die) : Die :=
  shortOp 0x09 t w [(19, 0), (95, 64)] (if 0xB < opField w.x 19 16 then some .malformed else none)
    (fun _ th =>
      let b := if bitOf w.x.toNat 15 then (w.x.extractLsb' 64 32).signExtend 64
        else th.sreg (opField w.x 14 10)
      th.setS (opField w.x 4 0) (aluFn (opField w.x 19 16) (th.sreg (opField w.x 9 5)) b)) d

/-- RDTIME (R167, R169). -/
def dieRdtime (t : ThreadId) (w : OpWord) (d : Die) : Die :=
  shortOp 0x0C t w [(4, 0)] none (fun d th => th.setS (opField w.x 4 0) (d.rrc.setWidth 64)) d

/-! ## Launch (R160) -/

/-- Whether `n` threads from `first` are all FREE and within the die. -/
def threadsFree (d : Die) (first n : Nat) : Bool :=
  decide (first + n ≤ 2048) && d.threads.all (fun e =>
    decide (e.1 < first) || decide (first + n ≤ e.1) || decide (e.2.st = .free))

/-- The contexts of a launch (R160): s0 is the index within it. -/
def launchThreads (first n : Nat) (entry : BitVec 17) (d : Die) : Die :=
  let ths := tabulate n (fun i => (({ st := .ready, pc := entry } : Thread).setS 0 (BitVec.ofNat 64 i)))
  { d with threads := tabPut (fun _ => {}) d.threads first ths }

/-- The launch that `GO` starts (R160): whether it was made. -/
def goLaunch (d : Die) : Bool × Die :=
  let first := d.get ⟨0x30010, 10, 0⟩
  let n := d.get ⟨0x30010, 21, 11⟩ + 1
  if threadsFree d first n then
    (true, launchThreads first n (BitVec.ofNat 17 (d.get ⟨0x30014, 16, 0⟩)) d)
  else (false, d.setFlag 0x30004 1)

/-- A write of `SEQ_LAUNCH1` (R160, R192). -/
def dieLaunch (mgmt : Bool) (v : Nat) (d : Die) : Die :=
  if !mgmt then d.invalidWrite 0x30014
  else
    let d := if bitsOf v 30 17 ≠ 0 then d.invalidWrite 0x30014 else d
    let d := d.put ⟨0x30014, 16, 0⟩ v
    if bitOf v 31 then (goLaunch d).2 else d

/-! ## The program store (R162) -/

/-- What an unloaded op word holds: `OPCODE` 0xFF (R162). The spec gives the other bits no value; they
are never read past the rejected opcode (log 15). -/
def noOp : Nat → BitVec 128 := fun _ => BitVec.allOnes 128

/-- The load that `GO` asks for is refused (R162). -/
def progRefused (d : Die) (dst n : Nat) : Bool :=
  d.progLoad.isSome || decide (131072 < dst + n) ||
    d.threads.any (fun e => decide (e.2.st ≠ .free) && decide (dst ≤ e.2.pc.toNat) &&
      decide (e.2.pc.toNat < dst + n))

/-- A write of `SEQ_PROG_LEN` (R162, R192); a count above 131,072 is a reserved encoding (R5). -/
def dieProgLoad (mgmt : Bool) (v : Nat) (d : Die) : Die :=
  if !mgmt then d.invalidWrite 0x30028
  else
    let n := bitsOf v 17 0
    let d := if bitsOf v 30 18 ≠ 0 ∨ 131072 < n then d.invalidWrite 0x30028 else d
    let d := if 131072 < n then d else d.put ⟨0x30028, 17, 0⟩ n
    if bitOf v 31 then
      let n := d.get ⟨0x30028, 17, 0⟩
      let dst := d.get ⟨0x30024, 16, 0⟩
      if progRefused d dst n then d.setFlag 0x30004 2
      else { d with progLoad := some ⟨64 * d.get ⟨0x30020, 28, 0⟩, dst, n⟩ }
    else d

/-! ## The scratchpad's own work -/

/-- The clearing pass ends (R175): zeros with valid check bits everywhere. -/
def dieScratchpadClear (d : Die) : Die :=
  if d.clearing && !d.clkLost then
    ({ d with spd := [], spdMarks := [], spdWb := none }).put ⟨0x2000C, 0, 0⟩ 0
  else d

/-- The queued corrected word is written back (R176). -/
def dieSpdWriteBack (d : Die) : Die :=
  match d.spdWb with
  | none => d
  | some w =>
    let d := { d with spdWb := none }
    if tabGet goodSpd d.spdMarks w = .single then
      { d with spdMarks := tabSet goodSpd d.spdMarks w .good }
    else d

end Sys2Proof.Machine
end

