-- ==== Sys2Proof/Machine/Mem.lean ====
section
/-! DEFINITION. The memory controllers: the region table (R286 to R291), reads and writes of LPDDR with
their check words (R280 to R284), and the program-store load (R162). -/

namespace Sys2Proof.Machine

/-- An LPDDR offset has storage behind it (R280). -/
def lpStored (a : Nat) : Bool := decide (a < 2 ^ 35) && decide (a % 2 ^ 34 < 15 * 2 ^ 30)

/-- The canonical form of a byte memory that reads zero where nothing is listed (R71, R175): addresses rise
strictly, and no zero byte is listed. -/
def Memory.wf (m : List Host.Cell) : Bool := tabWf zeroByte m

/-- The controller's block of registers that serves an offset (R280, R303). -/
def mcBase (a : Nat) : Nat := if a < 2 ^ 34 then 0x70000 else 0x80000

/-! ## Where an offset lies (R279, R280) -/

/-- The controller of an offset: false A, true B. -/
def lpMc (a : Nat) : Bool := decide (2 ^ 34 ≤ a)
/-- The channel, within its controller, of an LPDDR offset. -/
def mcChannel (a : Nat) : Nat := a / 64 % 4
/-- The unit of 64 bytes within its channel. -/
def lpUnit (a : Nat) : Nat := a % 2 ^ 34 / 256
/-- The 32-byte half within its unit. -/
def lpHalf (a : Nat) : Nat := a / 32 % 2
/-- The page within the channel. -/
def lpPage (a : Nat) : Nat := lpUnit a / 30
/-- The column slot of the unit in its page. -/
def lpCol (a : Nat) : Nat := lpUnit a % 30
/-- The bank group of a page. -/
def pageBg (page : Nat) : Nat := page % 4 ^^^ page / 16 % 4
/-- The bank of a page within its group. -/
def pageBank (page : Nat) : Nat := page / 4 % 4
/-- The row of a page in its bank. -/
def pageRow (page : Nat) : Nat := page / 16
/-- The byte of its page at which a half's data begin. -/
def lpDataAt (a : Nat) : Nat := 64 * lpCol a + 32 * lpHalf a
/-- The byte of its page at which the check word of a half lies. -/
def lpCheckAt (a : Nat) : Nat := 1920 + 4 * lpCol a + 2 * lpHalf a
/-- What byte `i` of a 2 KiB page holds: data, check words, or the zero bytes at its end. -/
inductive PageByte where
  | data | check | zero
  deriving DecidableEq, Repr
/-- The kind of a page's byte. -/
def pageByte (i : Nat) : PageByte := if i < 1920 then .data else if i < 2040 then .check else .zero

/-- The code of a class (R304). -/
def classCode : AccClass → Nat
  | .dma => 0
  | .needle => 1
  | .acc => 2
  | .spill => 3
  | .host => 4
  | .lehr => 5

/-- A requester of an LPDDR access (R289). -/
structure Req where
  cls : AccClass
  write : Bool
  secure : Bool
  job : Nat
  deriving DecidableEq, Repr

/-- The words LO and HI of region entry `k` (R287, R304). -/
def regionLo (d : Die) (k : Nat) : Nat := d.reg (0xC1000 + 8 * k)
/-- Word HI of a region entry. -/
def regionHi (d : Die) (k : Nat) : Nat := d.reg (0xC1004 + 8 * k)

/-- A valid entry that contains an access. -/
def regionHas (d : Die) (a len k : Nat) : Bool :=
  let lo := regionLo d k
  let base := bitsOf lo 14 0 * 2 ^ 20
  let size := (bitsOf lo 30 16 + 1) * 2 ^ 20
  bitOf lo 31 && decide (base ≤ a) && decide (a + len ≤ base + size)

/-- The check of an access against the region table (R290). -/
def regionChk (d : Die) (r : Req) (a len : Nat) : Option Status :=
  match (List.range 64).find? (regionHas d a len) with
  | none => some .malformed
  | some k =>
    let hi := regionHi d k
    if !r.secure && bitOf hi 0 then some .worldViolation
    else if decide (r.cls ≠ .host) && !bitOf hi 5 && decide (r.job ≠ 0) &&
        decide (bitsOf hi 4 1 ≠ r.job) then some .invalidState
    else if !bitOf hi (8 + classCode r.cls) ||
        (decide (r.cls ≠ .acc) && !bitOf hi (if r.write then 7 else 6)) then some .invalidState
    else none

/-- A refusal is recorded and counted (R290, R304, R391). -/
def regionRefused (r : Req) (a : Nat) (st : Status) (d : Die) : Die :=
  let d := if d.flag 0xC1200 31 then d
    else (d.setReg 0xC1200 (st.code + classCode r.cls <<< 8 + 1 <<< 31)).setReg 0xC1204 (a / 32)
  let d := d.count 0xC1208 1
  if st = .worldViolation then d.count 0xC0004 1 else d

/-! ## The controllers' queues (R292 to R296, R299, R301, R302) -/

/-- First register of a controller (R303). -/
def mcReg (mc : Bool) : Nat := if mc then 0x80000 else 0x70000
/-- The index of a controller. -/
def mcIx (mc : Bool) : Nat := bit mc

/-- Outstanding requests of a controller. -/
def mcSlots (d : Die) (mc : Bool) : List McSlot := tabGet (fun _ => []) d.mcReqs (mcIx mc)
/-- Queued writes of a controller. -/
def mcQueue (d : Die) (mc : Bool) : List McSlot := tabGet (fun _ => []) d.mcWrites (mcIx mc)
/-- The die with a controller's outstanding requests stored. -/
def setMcSlots (mc : Bool) (l : List McSlot) (d : Die) : Die :=
  { d with mcReqs := tabSet (fun _ => []) d.mcReqs (mcIx mc) l }
/-- The die with a controller's queued writes stored. -/
def setMcQueue (mc : Bool) (l : List McSlot) (d : Die) : Die :=
  { d with mcWrites := tabSet (fun _ => []) d.mcWrites (mcIx mc) l }

/-- The controller admits requests: trained, not in self-refresh (R301, R303). -/
def mcOpen (d : Die) (mc : Bool) : Bool := d.flag (mcReg mc) 0 && !d.flag (mcReg mc) 1
/-- `REFRESH_ONLY` (R299). -/
def refreshOnly (d : Die) (mc : Bool) : Bool := d.flag (mcReg mc) 3
/-- First register of a channel's traffic generator. -/
def tgReg (mc : Bool) (ch : Nat) : Nat := mcReg mc + 0x1000 + 0x40 * ch
/-- A generator holds its channel (R302). -/
def tgBusy (d : Die) (mc : Bool) (ch : Nat) : Bool := d.flag (tgReg mc ch) 5
/-- A channel serves requests now. -/
def mcServes (d : Die) (mc : Bool) (ch : Nat) : Bool :=
  mcOpen d mc && !refreshOnly d mc && !tgBusy d mc ch

/-- A needle request (R292). -/
def isNeedle (s : McSlot) : Bool := decide (s.req.cls = .needle)

/-- A controller has a slot for a request on one of its channels: 256 normal, 128 needle, 32 needle on one
channel (R292, R296). -/
def slotFree (d : Die) (needle mc : Bool) (ch : Nat) : Bool :=
  let l := mcSlots d mc
  if needle then
    decide ((l.filter isNeedle).length < 128) &&
      decide ((l.filter (fun s => isNeedle s && decide (s.channel.toNat = ch))).length < 32)
  else decide ((l.filter (fun s => !isNeedle s)).length < 256)

/-- An extent reaches a channel. -/
def onChannel (a len : Nat) (mc : Bool) (ch : Nat) : Bool :=
  let lo := max a (if mc then 2 ^ 34 else 0)
  let hi := min (a + len) (if mc then 2 ^ 35 else 2 ^ 34)
  decide (lo < hi) && (decide (256 ≤ hi - lo) ||
    (List.range ((hi - 1) / 64 - lo / 64 + 1)).any (fun i => decide ((lo / 64 + i) % 4 = ch)))

/-- Every channel that an extent reaches serves requests and has a slot (R292, R299, R302). While one does
not, the access waits: nothing of it is done and nothing is refused. An access is one step here, so the
slots that it takes are free again at its end. -/
def lpServes (needle : Bool) (a len : Nat) (d : Die) : Bool :=
  [false, true].all (fun mc => (List.range 4).all (fun ch =>
    !onChannel a len mc ch || (mcServes d mc ch && slotFree d needle mc ch)))

/-- Writes queued on a channel. -/
def mcDepth (d : Die) (mc : Bool) (ch : Nat) : Nat :=
  ((mcQueue d mc).filter (fun s => decide (s.channel.toNat = ch))).length

/-- The whole write queue of a channel goes to the memory (R294). Its data stand in `lpddr` from the answer
on, since every later read returns them (R293). -/
def drainChannel (mc : Bool) (ch : Nat) (d : Die) : Die :=
  setMcQueue mc ((mcQueue d mc).filter (fun s => decide (s.channel.toNat ≠ ch))) d

/-- Every write queue of the die is drained (R301). -/
def drainWrites (d : Die) : Die := { d with mcWrites := [] }

/-- A write enters its channel's queue (R292); a queue of 64 is at its batch depth and drains first
(R294). -/
def postWrite (r : Req) (a : Nat) (bs : Bytes) (d : Die) : Die :=
  let mc := lpMc a
  let ch := mcChannel a
  let d := if 64 ≤ mcDepth d mc ch then drainChannel mc ch d else d
  setMcQueue mc (mcQueue d mc ++
    [⟨⟨r.cls, true, r.secure, BitVec.ofNat 4 r.job, BitVec.ofNat 35 a, bs⟩, BitVec.ofNat 2 ch, true, d.rrc⟩]) d

/-- The units of 64 bytes, cut at their boundaries, that an extent is written in: offset and length. -/
def unitPieces (a len : Nat) : List (Nat × Nat) :=
  if len = 0 then []
  else tabulate ((a + len - 1) / 64 - a / 64 + 1) (fun i =>
    let lo := max a (64 * (a / 64 + i))
    (lo, min (a + len) (64 * (a / 64 + i) + 64) - lo))

/-- The writes of an extent enter the write queues, unit by unit. -/
def postWrites (r : Req) (a : Nat) (bs : Bytes) (d : Die) : Die :=
  (unitPieces a bs.length).foldl (fun d u => postWrite r u.1 (sliceB bs (u.1 - a) u.2) d) d

/-- How many leading 64-byte units of an extent pass the region table, and the status of the first
that does not (R178, R290). -/
def unitsOk (d : Die) (r : Req) : (n a : Nat) → Nat × Option Status
  | 0, _ => (0, none)
  | n + 1, a =>
    match regionChk d r a 64 with
    | some st => (0, some st)
    | none =>
      let (k, st) := unitsOk d r n (a + 64)
      (k + 1, st)

/-- A corrected half (R282). -/
def lpCorrect (d : Die) (h : Nat) : Die :=
  let b := mcBase (32 * h)
  let d := d.count (b + 0x10) 1
  let k := if b = 0x70000 then 0 else 1
  match tabGet (fun _ => none) d.lpWb k with
  | none => { d with lpWb := tabSet (fun _ => none) d.lpWb k (some h) }
  | some _ => d

/-- A read of an uncorrectable half (R283). -/
def lpUncorrectable (d : Die) (h : Nat) : Die :=
  let b := mcBase (32 * h)
  let d := d.count (b + 0x14) 1
  let d := if d.flag (b + 0x1C) 31 then d else d.setReg (b + 0x1C) (h + 1 <<< 31)
  (d.setFlag (b + 8) 0).event b

/-- What one half's check word does to a read of it (R281 to R283). -/
def lpTouch (d : Die) (e : Nat × LpMark) : Die :=
  match e.2 with
  | .good => d
  | .single => lpCorrect d e.1
  | .bad => lpUncorrectable d e.1
  | .poison => d.count (mcBase (32 * e.1) + 0x18) 1

/-- The halves of a byte range whose check word is not valid. -/
def lpBad (d : Die) (a len : Nat) : List (Nat × LpMark) :=
  if len = 0 then []
  else d.lpMarks.filter (fun e => decide (a / 32 ≤ e.1) && decide (e.1 ≤ (a + len - 1) / 32))

/-- A read of LPDDR (R281 to R283): bytes, the halves that cannot be read or carry the poison mark, and
what the read leaves behind. -/
def lpRead (a len : Nat) (d : Die) : Bytes × List Nat × Die :=
  let bad := lpBad d a len
  (tabSlice zeroByte d.lpddr a len,
    (bad.filter (fun e => decide (e.2 ≠ .single))).map (·.1), bad.foldl lpTouch d)

/-- A write of whole halves, which clears their marks (R281, R284). -/
def lpWrite (a : Nat) (bs : Bytes) (d : Die) : Die :=
  { d with lpddr := tabPut zeroByte d.lpddr a bs,
           lpMarks := tabDrop d.lpMarks (a / 32) ((a + bs.length + 31) / 32) }

/-- Marks halves with the poison mark (R284). -/
def lpPoison (hs : List Nat) (d : Die) : Die :=
  hs.foldl (fun d h => { d with lpMarks := tabSet goodLp d.lpMarks h .poison }) d

/-- A write of part of a half, as a host write through BAR2 may be (R281): the half is read, a
single-bit error corrected, and a mark that cannot be corrected becomes the poison mark. -/
def lpWritePart (a : Nat) (bs : Bytes) (d : Die) : Die :=
  if bs.length = 0 then d
  else
    let ends := (if a % 32 ≠ 0 then [a / 32] else []) ++
      (if (a + bs.length) % 32 ≠ 0 then [(a + bs.length) / 32] else [])
    let marked := d.lpMarks.filter (fun e => ends.contains e.1)
    let d := marked.foldl lpTouch d
    let d := lpWrite a bs d
    lpPoison ((marked.filter (fun e => decide (e.2 ≠ .single))).map (·.1)) d

/-- Bytes up to a multiple of 32. No rule gives those past their end: free values (log 64). -/
def padHalf (bs : Bytes) (d : Die) : Bytes × Die :=
  let n := roundUp bs.length 32 - bs.length
  (bs ++ tabulate n (fun i => (Config.freeDie d.phys (d.free + i)).truncate 8), { d with free := d.free + n })

/-- A write of an extent by a requester of the device (R281, R292): it covers whole halves. -/
def lpStore (r : Req) (a : Nat) (bs : Bytes) (d : Die) : Die :=
  let (bs, d) := padHalf bs d
  postWrites r a bs (lpWrite a bs d)

/-- The 32-byte halves that an extent reaches. -/
def halfCount (a len : Nat) : Nat := if len = 0 then 0 else (a + len - 1) / 32 - a / 32 + 1

/-- How many leading 32-byte halves of an extent pass the region table, and the status of the first that
does not (R290). -/
def halvesOk (d : Die) (r : Req) : (n a : Nat) → Nat × Option Status
  | 0, _ => (0, none)
  | n + 1, a =>
    match regionChk d r a 32 with
    | some st => (0, some st)
    | none =>
      let (k, st) := halvesOk d r n (a + 32)
      (k + 1, st)

/-! ## The program-store load (R162) -/

/-- The op words of a load, from its source bytes: an op word of a half that cannot be read, or of a
unit from the first refused one on, is `OPCODE` 0xFF. -/
def progWords (src n ok : Nat) (bs : Bytes) (bad : List Nat) : List (BitVec 128) :=
  tabulate n (fun i =>
    if ok ≤ i / 4 || bad.contains ((src + 16 * i) / 32) then noOp i
    else BitVec.ofNat 128 (natAt bs (16 * i) 16))

/-- A started load reaches the end of its range (R162): class DMA, job 0. -/
def dieProgLoadComplete (d : Die) : Die :=
  match d.progLoad with
  | none => d
  | some l =>
    if !lpServes false l.src (16 * l.count) d then d else
    let r : Req := ⟨.dma, false, d.world, 0⟩
    let (ok, st) := unitsOk d r (ceilDiv l.count 4) l.src
    let d := match st with
      | some s => regionRefused r (l.src + 64 * ok) s d
      | none => d
    let (bs, bad, d) := lpRead l.src (min (64 * ok) (16 * l.count)) d
    let d := { d with progLoad := none,
                      prog := tabPut noOp d.prog l.dst (progWords l.src l.count ok bs bad) }
    let d := if st.isSome || !bad.isEmpty then d.setFlag 0x30004 2 else d
    d.setFlag 0x30004 3

end Sys2Proof.Machine
end

