-- ==== Sys2Proof/Machine/Beads.lean ====
section
/-! DEFINITION. Bead headers (R194, R195), the answers of the rod unit and of a router (R205), send
handles (R207), and the credit cache (R200, R223). -/

namespace Sys2Proof.Machine

/-! ## The header -/

/-- The fields of a bead header (R195). -/
structure Bead where
  dstPkg : Nat := 0
  dstDie : Nat := 0
  dstRod : Nat := 0
  world : Bool := false
  srcPkg : Nat := 0
  srcDie : Nat := 0
  srcRod : Nat := 0
  job : Nat := 0
  kind : Nat := 0
  csub : Nat := 0
  status : Nat := 0
  epoch : Nat := 0
  seq : Nat := 0
  handle : Nat := 0
  tag : Nat := 0
  version : Nat := 0
  length : Nat := 1
  credit : Nat := 0
  deriving DecidableEq, Repr

/-- Bits [hi:lo] of a header. -/
def hf (h : BitVec 256) (hi lo : Nat) : Nat := bitsOf h.toNat hi lo

/-- The fields that a header spells (R195). -/
def beadOf (h : BitVec 256) : Bead :=
  { dstPkg := hf h 11 0, dstDie := hf h 18 12, dstRod := hf h 30 19, world := bitOf h.toNat 31,
    srcPkg := hf h 43 32, srcDie := hf h 50 44, srcRod := hf h 62 51, job := hf h 67 64,
    kind := hf h 71 68, csub := hf h 75 72, status := hf h 83 76, epoch := hf h 99 84,
    seq := hf h 115 100, handle := hf h 125 116, tag := hf h 159 128, version := hf h 167 160,
    length := hf h 191 168, credit := hf h 215 192 }

/-- Bytes 0 to 27 of a header as a number. -/
def beadLow (b : Bead) : Nat :=
  b.dstPkg % 2 ^ 12 + (b.dstDie % 2 ^ 7) <<< 12 + (b.dstRod % 2 ^ 12) <<< 19 + bit b.world <<< 31 +
  (b.srcPkg % 2 ^ 12) <<< 32 + (b.srcDie % 2 ^ 7) <<< 44 + (b.srcRod % 2 ^ 12) <<< 51 +
  (b.job % 16) <<< 64 + (b.kind % 16) <<< 68 + (b.csub % 16) <<< 72 + (b.status % 256) <<< 76 +
  (b.epoch % 2 ^ 16) <<< 84 + (b.seq % 2 ^ 16) <<< 100 + (b.handle % 2 ^ 10) <<< 116 +
  (b.tag % 2 ^ 32) <<< 128 + (b.version % 256) <<< 160 + (b.length % 2 ^ 24) <<< 168 +
  (b.credit % 2 ^ 24) <<< 192

/-- The header of a bead, `HCHK` included (R195). -/
def packBead (b : Bead) : BitVec 256 :=
  let low := beadLow b
  BitVec.ofNat 256 (low + (crc16 (leBytes 28 low)).toNat <<< 224)

/-- `HCHK` is right (R195). -/
def hdrOk (h : BitVec 256) : Bool := decide (crc16 (leBytes 28 h.toNat) = h.extractLsb' 224 16)

/-- A reserved bit of a header is set. -/
def hdrReserved (h : BitVec 256) : Bool :=
  bitOf h.toNat 63 || decide (hf h 127 126 ≠ 0) || decide (hf h 223 216 ≠ 0) ||
    decide (hf h 255 240 ≠ 0)

/-- A die number that R8 reserves. -/
def dieReserved (n : Nat) : Bool := decide (64 ≤ n) && decide (n ≤ 126)

/-- Check 3 of R205: a reserved encoding, `LENGTH` out of range, or a kind that carries rod 0 naming
another. Fields that R195 fixes at 0 for a kind are encodings too; CONTROL subkinds 2 to 7 give their
fields in their own chapters (R263, R268, R431, R452). -/
def beadBad (h : BitVec 256) : Bool :=
  let b := beadOf h
  let data := decide (b.kind ≤ 1)
  hdrReserved h || dieReserved b.dstDie || dieReserved b.srcDie || decide (5 < b.kind) ||
  (decide (b.kind = 0) && !(decide (1 ≤ b.length) && decide (b.length ≤ 8))) ||
  (decide (b.kind = 1) && decide (b.length < 2)) || (decide (2 ≤ b.kind) && decide (b.length ≠ 1)) ||
  (!data && decide (b.dstRod ≠ 0)) ||
  (decide (b.kind = 5) && decide (7 < b.csub)) || (decide (b.kind ≠ 5) && decide (b.csub ≠ 0)) ||
  (data && decide (b.status ≠ 0) && decide (b.status ≠ 0xA)) ||
  (decide (b.kind = 2) && (statusOf b.status).isNone) ||
  (!data && decide (b.kind ≠ 2) && decide (b.status ≠ 0)) ||
  (decide (b.kind = 3) && decide (2 ^ 15 ≤ b.tag)) ||
  ((decide (b.kind = 2) || decide (b.kind = 4) || (decide (b.kind = 5) && decide (b.csub ≤ 1))) &&
    decide (b.tag ≠ 0)) ||
  (decide (b.kind ≠ 3) && !(decide (b.kind = 5) && decide (1 ≤ b.csub)) && decide (b.credit ≠ 0))

/-- A requester of one world may use a thing of another (R391). -/
def worldOk (requester target : Bool) : Bool := requester || !target

/-- A world refusal at this die (R391). -/
def worldRefused (d : Die) : Die := d.count 0xC0004 1

/-! ## Frames out of a die -/

/-- The pieces of 4,096 bytes of what follows a first segment (R214). -/
def cutBytes : (fuel : Nat) → Bytes → List Bytes
  | 0, _ => []
  | n + 1, bs => if bs.isEmpty then [] else bs.take 4096 :: cutBytes n (bs.drop 4096)

/-- The segments of a frame with header `head` (R214): the first holds `room` bytes of payload, every
other 4,096; the last is marked. -/
def cutFrame (head : Bytes → Frame) (room : Nat) (payload : Bytes) : List Seg :=
  let parts := payload.take room :: cutBytes (payload.length / 4096 + 1) (payload.drop room)
  parts.zipIdx.map (fun e =>
    { frame := head e.1, cont := decide (e.2 ≠ 0), last := decide (e.2 + 1 = parts.length) })

/-- A frame as it crosses the seams (R214, R249): segments of at most 4 KiB, the header in the first. -/
def frameCut : Frame → List Seg
  | .bead h p => cutFrame (.bead h) 4064 p
  | .rap h p => cutFrame (.rap h) 4032 p

/-- The header of a frame alone. -/
def frameHead : Frame → Frame
  | .bead h _ => .bead h []
  | .rap h _ => .rap h []

/-- The payload of a frame, or of a segment of one. -/
def framePayload : Frame → Bytes
  | .bead _ p => p
  | .rap _ p => p

/-- The flits of 512 bytes that a segment takes (R214). -/
def segFlits (g : Seg) : Nat :=
  let head := if g.cont then 0 else match g.frame with
    | .bead _ _ => 32
    | .rap _ _ => 64
  ceilDiv (head + (framePayload g.frame).length) 512

/-- The segments that wait at an input and lane of the die's router. -/
def rtQueue (d : Die) (key : Nat) : List Seg := tabGet (fun _ => []) d.rt key

/-- Those segments stored. -/
def setRtQueue (key : Nat) (l : List Seg) (d : Die) : Die :=
  { d with rt := tabSet (fun _ => []) d.rt key l }

/-- Segments join the end of a queue. -/
def rtPush (key : Nat) (gs : List Seg) (d : Die) : Die := setRtQueue key (rtQueue d key ++ gs) d

/-- A sender of the die gives a frame to the die's router (R215): input 0. -/
def emit (f : Frame) (d : Die) : Die := rtPush 0 (frameCut f) d

/-- A header-only bead from this die (R195): its source is this die, its world this die's. -/
def emitBead (b : Bead) (d : Die) : Die :=
  emit (.bead (packBead
    { b with srcPkg := d.pkg.toNat, srcDie := d.logical.toNat, world := b.world }) []) d

/-- A tally bead of an op of this die (R265): the op ends when the bead leaves the die. -/
def emitTally (op : Nat) (h : BitVec 256) (d : Die) : Die :=
  rtPush 0 [{ frame := .bead h [], op := some op }] d

/-- The rod that a refused or answered bead concerns: the destination rod, and for OPEN and CLOSE the
rod they name on their source die (R195). -/
def rodConcerned (b : Bead) : Nat := if b.kind = 3 ∨ b.kind = 4 then b.srcRod else b.dstRod

/-- The header of an answer to a bead (R205): it goes to the bead's source, comes from the bead's
destination, and carries its `EPOCH`, `SEQ` and `HANDLE` and the rod concerned. -/
def answerTo (world : Bool) (b : Bead) (kind csub status : Nat) : BitVec 256 :=
  packBead { dstPkg := b.srcPkg, dstDie := b.srcDie, world := world, srcPkg := b.dstPkg,
             srcDie := b.dstDie, srcRod := rodConcerned b, job := b.job, kind := kind, csub := csub,
             status := status, epoch := b.epoch, seq := b.seq, handle := b.handle }

/-- An answer goes out, unless the bead named as its source a die number that R8 reserves: no answer can
reach it, and none is formed that spells a reserved encoding (R6). -/
def sendAnswer (b : Bead) (h : BitVec 256) (d : Die) : Die :=
  if dieReserved b.srcDie then d else emit (.bead h []) d

/-- A NAK of the rod unit (R205). -/
def nakBead (b : Bead) (st : Status) (d : Die) : Die :=
  sendAnswer b (answerTo d.world b 2 0 st.code) d

/-- A CONTROL DELIVERED of the rod unit (R205). -/
def deliverBead (b : Bead) (d : Die) : Die := sendAnswer b (answerTo d.world b 5 0 0) d

/-- A bead or packet is discarded at a router for a bad `HCHK` (R205, check 1). -/
def hdrError (d : Die) : Die := ((d.count 0x50014 1).setFlag 0x50008 1).event 0x50000

/-- An answer or CREDIT bead is discarded (R202, R209, R222). -/
def lateAnswer (d : Die) : Die := d.count 0x50018 1

/-- The die's rod unit works: a die in route-only state has its router alone (R20). -/
def rodUnitOn (d : Die) : Bool := decide (d.run = .active)

/-! ## Send handles (R207) -/

/-- The first free handle from `h` on, cyclically over 1,024. -/
def freeHandleFrom (d : Die) (h : Nat) : Nat :=
  (((List.range 1024).map (fun i => (h + i) % 1024)).find? (fun k =>
    (tabGet noHandle d.handles k).isNone)).getD 0

/-- A free handle. The rules fix no choice among the free ones: the search starts at a free value
(log 2). -/
def pickHandle (d : Die) : Nat × Die :=
  (freeHandleFrom d ((Config.freeDie d.phys d.free).toNat % 1024), { d with free := d.free + 1 })

/-- The handle in use stands for an op. -/
def takeHandle (k : Nat) (h : Handle) (d : Die) : Die :=
  { d with handles := tabSet noHandle d.handles k (some h) }

/-- The handle is free again. -/
def dropHandle (k : Nat) (d : Die) : Die := { d with handles := tabSet noHandle d.handles k none }

/-! ## The credit cache (R200, R223) -/

/-- First register of credit cache entry `e`. -/
def ccBase (e : Nat) : Nat := 0x52000 + 32 * e
/-- An entry is in use. -/
def ccValid (d : Die) (e : Nat) : Bool := d.flag (ccBase e) 31
/-- `EPOCH` of an entry. -/
def ccEpoch (d : Die) (e : Nat) : Nat := d.get ⟨ccBase e + 4, 15, 0⟩
/-- `STATE` of an entry: 0 OPEN, 1 CLOSED, 2 STALE. -/
def ccState (d : Die) (e : Nat) : Nat := d.get ⟨ccBase e + 4, 17, 16⟩
/-- `AVAIL` of an entry. -/
def ccAvail (d : Die) (e : Nat) : Nat := d.reg (ccBase e + 8)
/-- `GRANT` of an entry. -/
def ccGrant (d : Die) (e : Nat) : Nat := d.reg (ccBase e + 12)
/-- `NEXT_SEQ` of an entry. -/
def ccSeq (d : Die) (e : Nat) : Nat := d.reg (ccBase e + 16)

/-- The first word of the entry of a rod. -/
def ccKey (pkg die rod : Nat) : Nat := pkg + die <<< 12 + rod <<< 19 + 1 <<< 31

/-- The entry that describes a rod. -/
def ccFind (d : Die) (pkg die rod : Nat) : Option Nat :=
  (List.range 512).find? (fun e => decide (d.reg (ccBase e) = ccKey pkg die rod))

/-- A thread in WAIT_CREDIT on an entry. -/
def waitsOn (d : Die) (e t : Nat) : Bool :=
  d.flag (blockedReg t) 31 && decide (d.get ⟨blockedReg t, 24, 16⟩ = e)

/-- The `LENGTH` that the SEND of an op word needs. -/
def sendUnits (x : BitVec 96) : Nat := opField x 70 47 + 1

/-- The entry that a SEND names through its `SDST` (R207). -/
def sendTarget (d : Die) (th : Thread) (w : OpWord) : Option Nat :=
  let dst := (th.sreg (opField w.x 9 5)).toNat
  ccFind d (bitsOf dst 63 52) (bitsOf dst 51 45) (bitsOf dst 11 0)

/-- The SEND that a thread is held at in WAIT_QUEUE, past its checks (R207). -/
def queuedSend (th : Thread) : Option OpWord :=
  match th.hold with
  | .op opc w => if opc = 0x50 ∧ th.st = .waitQueue then some w else none
  | _ => none

/-- A waiting or outstanding send refers to the entry (R200): a SEND in WAIT_CREDIT or WAIT_QUEUE, or one
that holds a handle. -/
def ccReferred (d : Die) (e : Nat) : Bool :=
  d.threads.any (fun t => (decide (t.2.st = .waitCredit) && waitsOn d e t.1) ||
    (match queuedSend t.2 with
      | some w => sendTarget d t.2 w == some e
      | none => false)) ||
    d.handles.any (fun h => match h.2 with
      | some hd => (match hd.kind with
        | .send e' _ => decide (e' = e)
        | .lehr e' _ => decide (e' = e)
        | _ => false)
      | none => false)

/-- An entry takes what an OPEN bead brings (R200): its epoch, OPEN, `AVAIL` = `GRANT` = `CREDIT`,
sequence 0, the stall limit, and the rod's world (R388). -/
def ccFill (b : Bead) (e : Nat) (d : Die) : Die :=
  let o := ccBase e
  let d := (((((d.setReg o (ccKey b.srcPkg b.srcDie b.srcRod)).setReg (o + 4) b.epoch).setReg
    (o + 8) b.credit).setReg (o + 12) b.credit).setReg (o + 16) 0).setReg (o + 20) (b.tag % 2 ^ 15)
  { d with ccWorld := tabSet (fun _ => false) d.ccWorld e b.world }

/-- The record of R221: when the thread began to wait, and on which entry. -/
def block (t e : Nat) (d : Die) : Die :=
  let now := d.reg48 0x100
  (d.setReg (blockedReg t - 4) (now % 2 ^ 32)).setReg (blockedReg t)
    (now >>> 32 + e <<< 16 + 1 <<< 31)

/-- A SEND waits for credit on entry `e` (R207, R221). -/
def stallCredit (t : ThreadId) (e : Nat) (w : OpWord) (d : Die) : Die :=
  let d' := stallAt d t .waitCredit 0x50 w
  if waitsOn d e t.toNat then d' else block t.toNat e d'

/-- A SEND that never left the die completes with a status (R208): the thread moves on, and the
status is recorded as R157 and R163 set. -/
def endSend (t : ThreadId) (w : OpWord) (st : Status) (d : Die) : Die :=
  let d := issued (unblock t.toNat d) t
  let th := d.thread t
  let k := opField w.x 3 0
  let th := if bitOf w.x.toNat 4 ∧ th.tok k = .ok then th.setTok k st else th
  notOk (d.setThread t th) t 0x50 (wHoe w) st

/-- A SEND in WAIT_CREDIT on entry `e` after a change of the credit cache (R207, R208): a CLOSED or STALE
entry ends it, credit releases it. -/
def creditWait (t : ThreadId) (e : Nat) (w : OpWord) (d : Die) : Die :=
  if ccState d e = 1 then endSend t w .closed d
  else if ccState d e = 2 then endSend t w .staleEpoch d
  else if sendUnits w.x ≤ ccAvail d e then
    unblock t.toNat (d.setThread t { d.thread t with st := .ready, hold := .none })
  else d

/-- One thread's SEND after a change of the credit cache (R207, R208): a SEND that waits for a handle goes
back to WAIT_CREDIT if credit fell short. -/
def creditThread (d : Die) (t : ThreadId) : Die :=
  let th := d.thread t
  match th.hold with
  | .op opc w =>
    if opc ≠ 0x50 then d
    else if th.st = .waitCredit then creditWait t (d.get ⟨blockedReg t.toNat, 24, 16⟩) w d
    else if th.st = .waitQueue then
      match sendTarget d th w with
      | some e =>
        if ccAvail d e < sendUnits w.x then creditWait t e w (stallCredit t e w d) else d
      | none => d
    else d
  | _ => d

/-- Every held SEND after a change of the credit cache. -/
def creditGo (d : Die) : Die :=
  d.threads.foldl (fun d e => creditThread d (BitVec.ofNat 11 e.1)) d

/-- An entry becomes CLOSED, with `AVAIL` = `GRANT` = 0 (R201, R208). -/
def ccClose (e : Nat) (d : Die) : Die :=
  creditGo (((d.put ⟨ccBase e + 4, 17, 16⟩ 1).setReg (ccBase e + 8) 0).setReg (ccBase e + 12) 0)

/-- An entry becomes STALE, with `AVAIL` = 0 (R208, R209). -/
def ccStale (e : Nat) (d : Die) : Die :=
  creditGo ((d.put ⟨ccBase e + 4, 17, 16⟩ 2).setReg (ccBase e + 8) 0)

/-- Units come back to an entry, up to `GRANT` (R202, R208). -/
def ccReturn (e units : Nat) (d : Die) : Die :=
  creditGo (d.setReg (ccBase e + 8) (min (ccGrant d e) (ccAvail d e + units)))

/-- A bead of a kind (R195). -/
def isKind (h : BitVec 256) (kind : Nat) : Bool := decide ((beadOf h).kind = kind)
/-- A CONTROL bead of a subkind (R195). -/
def isControl (h : BitVec 256) (csub : Nat) : Bool := isKind h 5 && decide ((beadOf h).csub = csub)
/-- A bead that the rod unit itself takes: INLINE, BULK_PUSH, or of a reserved kind or subkind (R205). -/
def isData (h : BitVec 256) : Bool :=
  decide ((beadOf h).kind ≤ 1) || decide (5 < (beadOf h).kind) || (isKind h 5 && decide (7 < (beadOf h).csub))

/-- The die takes the frame at the front of its inbox, if it is this one and one that the command acts on (R206,
R217): what reaches the die is acted on in the order in which it arrived. -/
def fromInbox (ok : Bool) (f : Frame) (k : Die → Die) (d : Die) : Die :=
  match d.inbox with
  | g :: rest => if ok && decide (g = f) then k { d with inbox := rest } else d
  | [] => d

/-- What the rod unit checks of an arriving bead before its own row: it is on, and the header is
whole (R205, check 1); `k`: what follows. -/
def arriving (h : BitVec 256) (k : Die → Die) (d : Die) : Die :=
  if !rodUnitOn d then d else if !hdrOk h then hdrError d else k d

/-- An OPEN bead at the writer die (R200). -/
def dieOpenBead (h : BitVec 256) (d : Die) : Die :=
  arriving h (fun d =>
    let b := beadOf h
    if b.kind ≠ 3 then d
    else if beadBad h ∨ b.dstDie = 127 then nakBead b .malformed d
    else match ccFind d b.srcPkg b.srcDie b.srcRod with
      | some e =>
        if ccState d e = 0 ∧ ccEpoch d e = b.epoch then
          if 16777215 < ccGrant d e + b.credit then nakBead b .resourceExhausted d
          else
            let d := (d.setReg (ccBase e + 8) (ccAvail d e + b.credit)).setReg (ccBase e + 12)
              (ccGrant d e + b.credit)
            let d := { d with ccWorld := tabSet (fun _ => false) d.ccWorld e b.world }
            creditGo (deliverBead b (d.setReg (ccBase e + 20) b.tag))
        else creditGo (deliverBead b (ccFill b e d))
      | none =>
        match (List.range 512).find? (fun e => !ccValid d e) with
        | some e => creditGo (deliverBead b (ccFill b e d))
        | none =>
          match (List.range 512).find? (fun e => decide (ccState d e ≠ 0) && !ccReferred d e) with
          | some e => creditGo (deliverBead b (ccFill b e d))
          | none => nakBead b .resourceExhausted d) d

/-- A CLOSE bead at the writer die (R201). -/
def dieCloseBead (h : BitVec 256) (d : Die) : Die :=
  arriving h (fun d =>
    let b := beadOf h
    if b.kind ≠ 4 then d
    else if beadBad h ∨ b.dstDie = 127 then nakBead b .malformed d
    else match ccFind d b.srcPkg b.srcDie b.srcRod with
      | some e => deliverBead b (if ccEpoch d e = b.epoch then ccClose e d else d)
      | none => deliverBead b d) d

/-- A CONTROL CREDIT bead (R202). It receives no answer: one that fails check 3 of R205 is discarded and
counted as every other that adds nothing. -/
def dieCredit (h : BitVec 256) (d : Die) : Die :=
  arriving h (fun d =>
    let b := beadOf h
    if b.kind ≠ 5 ∨ b.csub ≠ 1 then d
    else if beadBad h then lateAnswer d
    else match ccFind d b.srcPkg b.srcDie b.srcRod with
      | some e =>
        if ccState d e = 0 ∧ ccEpoch d e = b.epoch then ccReturn e b.credit d else lateAnswer d
      | none => lateAnswer d) d

/-- STALL (R221): a thread's wait for credit has outlasted the stall limit of its entry, 0 being
none. -/
def dieStall (t : ThreadId) (d : Die) : Die :=
  let e := d.get ⟨blockedReg t.toNat, 24, 16⟩
  if rodUnitOn d && decide ((d.thread t).st = .waitCredit) && d.flag (blockedReg t.toNat) 31 &&
      decide (d.reg (ccBase e + 20) ≠ 0) then
    let d := if d.flag 0x50008 0 then d else d.setReg 0x5000C t.toNat
    (d.setFlag 0x50008 0).event 0x50000
  else d

end Sys2Proof.Machine
end

