-- ==== Sys2Proof/Machine/Rods.lean ====
section
/-! DEFINITION. Rods (R196 to R199, R205) and the messaging ops SEND, RECV, PEEK, OPEN and CLOSE
(R207 to R213). -/

namespace Sys2Proof.Machine

/-! ## The rod table (R196) -/

/-- First register of rod `n`. -/
def rodBase (n : Nat) : Nat := 0x100000 + 32 * n
/-- `STATE` is OPEN. -/
def rodOpen (d : Die) (n : Nat) : Bool := decide (d.get ⟨rodBase n, 1, 0⟩ = 1)
/-- `WORLD` of a rod. -/
def rodWorld (d : Die) (n : Nat) : Bool := d.flag (rodBase n) 2
/-- `JOB` of a rod. -/
def rodJob (d : Die) (n : Nat) : Nat := d.get ⟨rodBase n, 7, 4⟩
/-- The rod's count within its life (R199). -/
def rodCount (d : Die) (n : Nat) : Nat := d.get ⟨rodBase n, 27, 16⟩
/-- The rod's epoch: the die's life and the rod's count (R199). The die holds the life once, in
`ROD_LIFE`. -/
def rodEpoch (d : Die) (n : Nat) : Nat := d.get ⟨0x5001C, 3, 0⟩ <<< 12 + rodCount d n
/-- Units of the ring. -/
def ringUnits (d : Die) (n : Nat) : Nat := 16 * d.get ⟨rodBase n + 8, 16, 0⟩
/-- Units of the spill region. -/
def spillUnits (d : Die) (n : Nat) : Nat := 32768 * d.get ⟨rodBase n + 12, 25, 15⟩
/-- First byte of the ring in the scratchpad. -/
def ringByte (d : Die) (n : Nat) : Nat := 512 * d.get ⟨rodBase n + 4, 16, 0⟩
/-- First byte of the spill region in LPDDR. -/
def spillByte (d : Die) (n : Nat) : Nat := 2 ^ 20 * d.get ⟨rodBase n + 12, 14, 0⟩
/-- The rod's capacity in units (R196). -/
def rodCapacity (d : Die) (n : Nat) : Nat := ringUnits d n + spillUnits d n
/-- `ROD_GRANTED`n. -/
def grantedReg (n : Nat) : Nat := 0x56000 + 4 * n
/-- What the rod holds, oldest first. -/
def rodBeads (d : Die) (n : Nat) : List HeldBead := tabGet (fun _ => []) d.rods n

/-- The die with a rod's beads stored. -/
def setRodBeads (n : Nat) (bs : List HeldBead) (d : Die) : Die :=
  { d with rods := tabSet (fun _ => []) d.rods n bs }

/-- Where a bead of `len` units goes (R197): into the ring, if the spill region is empty and the ring
has room; else to the spill region's tail; else nowhere. -/
def rodPlace (d : Die) (n len : Nat) : Option (Bool × Nat) :=
  let o := rodBase n
  let ru := ringUnits d n
  let su := spillUnits d n
  if d.reg (o + 28) = 0 ∧ d.reg (o + 20) + len ≤ ru then
    some (false, (d.reg (o + 16) + d.reg (o + 20)) % ru)
  else if d.reg (o + 28) + len ≤ su then some (true, (d.reg (o + 24) + d.reg (o + 28)) % su)
  else none

/-- The pieces, in bytes from the start of a ring or spill region of `total` units, of `len` units from
unit `at_`: the run to its end and the rest from its start (R197). -/
def wrapPieces (total at_ len : Nat) : List (Nat × Nat) :=
  let first := min len (total - at_)
  [(32 * at_, 32 * first)] ++ (if first < len then [(0, 32 * (len - first))] else [])

/-- Bytes laid over pieces of the scratchpad by the rod unit. Pieces are whole units, so no 32-bit word is
read first. -/
def layPieces (base : Nat) : List (Nat × Nat) → Bytes → Die → Die
  | [], _, d => d
  | (o, n) :: ps, bs, d =>
    layPieces base ps (bs.drop n)
      { spdClearMarks d (base + o) n with spd := tabPut zeroByte d.spd (base + o) (bs.take n) }

/-- The port words that pieces touch, each once (R197). -/
def pieceWords (base : Nat) (ps : List (Nat × Nat)) : Nat :=
  (ps.flatMap (fun p => tabulate (portWords (base + p.1) p.2) (fun i => (base + p.1) / 512 + i))).dedup.length

/-- The rod unit writes a bead over pieces of the scratchpad: one access per port word touched (R197). -/
def writePieces (base : Nat) (ps : List (Nat × Nat)) (bs : Bytes) (d : Die) : Die :=
  layPieces base ps bs (spdGrant 2 (pieceWords base ps) d)

/-- Bytes laid over pieces of LPDDR. -/
def spillPieces (r : Req) (base : Nat) : List (Nat × Nat) → Bytes → Die → Die
  | [], _, d => d
  | (o, n) :: ps, bs, d => spillPieces r base ps (bs.drop n) (lpStore r (base + o) (bs.take n) d)

/-- The pieces of LPDDR can be reached now. -/
def piecesServed (base : Nat) (ps : List (Nat × Nat)) (d : Die) : Bool :=
  ps.all (fun p => lpServes false (base + p.1) p.2 d)

/-- The first 32-byte half of pieces of LPDDR that a requester may not reach (R290). -/
def piecesChk (d : Die) (r : Req) (base : Nat) (ps : List (Nat × Nat)) : Option (Nat × Status) :=
  (ps.flatMap (fun p => tabulate (p.2 / 32) (fun i => base + p.1 + 32 * i))).findSome?
    (fun a => (regionChk d r a 32).map (fun st => (a, st)))

/-- The spill requester of a rod (R289). -/
def spillReq (d : Die) (n : Nat) (write : Bool) : Req := ⟨.spill, write, rodWorld d n, rodJob d n⟩

/-- The oldest bead's place as PEEK reports it (R210): 32-byte units in the scratchpad or in LPDDR. -/
def beadLoc (d : Die) (n : Nat) (b : HeldBead) : Nat :=
  (if b.spill then spillByte d n else ringByte d n) / 32 + b.at_

/-- s`SD` of a PEEK that finds a bead (R210). -/
def peekWord (d : Die) (n : Nat) (b : HeldBead) : Word64 :=
  BitVec.ofNat 64 (beadLoc d n b % 2 ^ 30 + bit b.spill <<< 30 +
    bit (decide ((beadOf b.h).status = 0xA)) <<< 31 + (beadOf b.h).length <<< 32)

/-- The oldest bead leaves the rod: its units are free, and an OPEN rod sends its credit back to the
bead's source (R203, R210). -/
def releaseBead (n : Nat) (b : HeldBead) (rest : List HeldBead) (d : Die) : Die :=
  let o := rodBase n
  let len := (beadOf b.h).length
  let k := if b.spill then 24 else 16
  let total := if b.spill then spillUnits d n else ringUnits d n
  let d := (d.setReg (o + k) ((b.at_ + len) % total)).setReg (o + k + 4) (d.reg (o + k + 4) - len)
  let d := setRodBeads n rest d
  if rodOpen d n then
    let x := beadOf b.h
    emitBead { dstPkg := x.srcPkg, dstDie := x.srcDie, srcRod := n, world := d.world, job := x.job,
               kind := 5, csub := 1, epoch := x.epoch, credit := len } d
  else d

/-- The copy that RECV with `COPY` makes (R210): of a bead in the ring all of it, unwrapped; of a
spilled bead the header alone. Units that cannot be read are copied to read as uncorrectable (R177,
R283). -/
def copyBead (n dest : Nat) (b : HeldBead) (d : Die) : Option Status × Die :=
  let len := (beadOf b.h).length
  let bytes := if b.spill then 32 else 32 * len
  if spdBytes < 512 * dest + bytes then (some .malformed, d)
  else if b.spill then
    let a := spillByte d n + 32 * b.at_
    match regionChk d (spillReq d n false) a 32 with
    | some st => (some st, regionRefused (spillReq d n false) a st d)
    | none =>
      let (bs, bad, d) := lpRead a 32 d
      let d := spdWrite 2 (512 * dest) bs d
      (if bad.isEmpty then none else some .poisoned,
        if bad.isEmpty then d else spdSpoilAt (512 * dest) 8 d)
  else
    let ps := wrapPieces (ringUnits d n) b.at_ len
    let (bad, _, d) := ps.foldl (fun (acc : Bool × Nat × Die) p =>
      let a := ringByte acc.2.2 n + p.1
      let (bs, lost, d) := spdRead 2 a p.2 acc.2.2
      let d := spdWrite 2 (512 * dest + acc.2.1) bs d
      (acc.1 || !lost.isEmpty, acc.2.1 + p.2,
        lost.foldl (fun d w => spdSpoilAt (4 * (w + (512 * dest + acc.2.1) / 4 - a / 4)) 1 d) d))
      (false, 0, d)
    (if bad then some .poisoned else none, d)
where
  /-- `k` 32-bit words from byte `a` read as uncorrectable. -/
  spdSpoilAt (a k : Nat) (d : Die) : Die :=
    { d with spdMarks := tabPut goodSpd d.spdMarks (a / 4) (List.replicate k .double) }

/-- s`SD` of a PEEK that ends without a bead is 0 (R210). -/
def zeroPeek (o : LongOp) (d : Die) : Die :=
  if o.opcode = 0x52 then
    d.modOp o.id (fun o => { o with result := some (BitVec.ofNat 5 (opField o.x 21 17), 0) })
  else d

/-- A RECV with `COPY` waits for the storage of its bead: the memory of a spilled one, the scratchpad that is
being cleared (R175, R299). -/
def copyWaits (n : Nat) (o : LongOp) (b : HeldBead) (d : Die) : Bool :=
  decide (o.opcode = 0x51) && bitOf o.x.toNat 17 &&
    (d.clearing || (b.spill && !lpServes false (spillByte d n + 32 * b.at_) 32 d))

/-- A PEEK or RECV that finds its rod as it is now (R210, R211). -/
def serveOp (n : Nat) (o : LongOp) (d : Die) : Die :=
  match rodBeads d n with
  | b :: rest =>
    if copyWaits n o b d then d
    else if o.opcode = 0x52 then
      finishOp o.id .ok (d.modOp o.id (fun o =>
        { o with result := some (BitVec.ofNat 5 (opField o.x 21 17), peekWord d n b) }))
    else if bitOf o.x.toNat 17 then
      match copyBead n (o.addr 34 18) b d with
      | (some .poisoned, d) => finishOp o.id .poisoned (releaseBead n b rest d)
      | (some st, d) => finishOp o.id st d
      | (none, d) => finishOp o.id .ok (releaseBead n b rest d)
    else finishOp o.id .ok (releaseBead n b rest d)
  | [] =>
    if !rodOpen d n then finishOp o.id .closed (zeroPeek o d)
    else if o.opcode = 0x52 ∧ bitOf o.x.toNat 42 then finishOp o.id .ok (zeroPeek o d)
    else d

/-- The ops that wait on rod `n`, in the order in which the rod unit received them. -/
def rodWaiters (d : Die) (n : Nat) : List LongOp :=
  d.ops.filter (fun o => decide (o.unit = .msg) && (decide (o.opcode = 0x51) ||
    decide (o.opcode = 0x52)) && decide (opField o.x 16 5 = n))

/-- The rod unit serves every op that waits on rod `n` (R211). An op that waits for its bead's storage holds
the later ones back. -/
def serveWaiters (n : Nat) : List LongOp → Die → Die
  | [], d => d
  | o :: os, d =>
    match rodBeads d n with
    | b :: _ => if copyWaits n o b d then d else serveWaiters n os (serveOp n o d)
    | [] => serveWaiters n os (serveOp n o d)

/-- The rod unit serves every op that waits on rod `n` (R211). -/
def serveRod (n : Nat) (d : Die) : Die := serveWaiters n (rodWaiters d n) d

/-- The rod unit serves every rod that an op waits on. -/
def serveRods (d : Die) : Die :=
  ((d.ops.filter (fun o => decide (o.unit = .msg) && (decide (o.opcode = 0x51) || decide (o.opcode = 0x52)))).map
    (fun o => opField o.x 16 5)).foldl (fun d n => serveRod n d) d

/-! ## Arrival (R197, R205) -/

/-- The bead is written where R197 places it, and the rod holds it. -/
def storeBead (n : Nat) (h : BitVec 256) (payload : Bytes) (spill : Bool) (at_ : Nat) (d : Die) :
    Die :=
  let o := rodBase n
  let len := (beadOf h).length
  let bs := leBytes 32 h.toNat ++ payload
  let k := if spill then 24 else 16
  let d := if spill then spillPieces (spillReq d n true) (spillByte d n) (wrapPieces (spillUnits d n) at_ len) bs d
    else writePieces (ringByte d n) (wrapPieces (ringUnits d n) at_ len) bs d
  let d := if d.reg (o + k + 4) = 0 then d.setReg (o + k) at_ else d
  setRodBeads n (rodBeads d n ++ [⟨h, spill, at_⟩]) (d.setReg (o + k + 4) (d.reg (o + k + 4) + len))

/-- The header as the rod holds it: a double-bit error in a payload flit marks the bead (R219). -/
def heldHeader (h : BitVec 256) (ue : Bool) : BitVec 256 :=
  if ue then packBead { beadOf h with status := Status.poisoned.code } else h

/-- The bead is of a row of its own: OPEN, CLOSE, NAK, or a CONTROL bead of a subkind that is not
reserved. -/
def ownRow (b : Bead) : Bool :=
  decide (2 ≤ b.kind) && decide (b.kind ≤ 4) || decide (b.kind = 5) && decide (b.csub ≤ 7)

/-- Checks 3 to 7 of R205 for a bead at its rod unit: the first that fails, or where R197 places it. -/
def beadVerdict (h : BitVec 256) (payload : Bytes) (d : Die) : Except Status (Bool × Nat) :=
  let b := beadOf h
  let n := b.dstRod
  if beadBad h ∨ b.dstDie = 127 ∨ payload.length + 32 ≠ 32 * b.length then .error .malformed
  else if !worldOk b.world (rodWorld d n) then .error .worldViolation
  else if b.epoch ≠ rodEpoch d n then .error .staleEpoch
  else if !rodOpen d n ∨ b.job ≠ rodJob d n then .error .closed
  else match rodPlace d n b.length with
    | none => .error .resourceExhausted
    | some at_ => .ok at_

/-- The bead would be placed in storage that serves no one now: a scratchpad that is being cleared (R175), a
channel that waits (R299, R302). It stays where it is. -/
def arrivalWaits (h : BitVec 256) (payload : Bytes) (d : Die) : Bool :=
  let b := beadOf h
  if !rodUnitOn d || !hdrOk h || ownRow b then false
  else match beadVerdict h payload d with
    | .error _ => false
    | .ok (spill, at_) =>
      if spill then
        !piecesServed (spillByte d b.dstRod) (wrapPieces (spillUnits d b.dstRod) at_ b.length) d
      else d.clearing

/-- BEAD_ARRIVAL: an INLINE or BULK_PUSH bead, or one of a reserved kind or subkind, at its rod unit (R205,
checks 3 to 8). -/
def dieBeadArrival (h : BitVec 256) (payload : Bytes) (ue : Bool) (d : Die) : Die :=
  arriving h (fun d =>
    let b := beadOf h
    let n := b.dstRod
    if ownRow b then d
    else match beadVerdict h payload d with
      | .error st => nakBead b st (if st = .worldViolation then worldRefused d else d)
      | .ok (spill, at_) =>
        let ps := wrapPieces (spillUnits d n) at_ b.length
        let ref := if spill then piecesChk d (spillReq d n true) (spillByte d n) ps else none
        match ref with
        | some (a, st) => nakBead b st (regionRefused (spillReq d n true) a st d)
        | none => serveRod n (deliverBead b (storeBead n (heldHeader h ue) payload spill at_ d))) d

/-! ## PEEK and RECV (R210) -/

/-- The issue of an op of the rod unit. -/
def issueMsg (opcode : Nat) (t : ThreadId) (w : OpWord) (fields : List (Nat × Nat))
    (chk : Die → Thread → Option Status) (mk : Thread → LongOp → LongOp) (post : LongOp → Die → Die)
    (d : Die) : Die :=
  issueLong opcode .msg t w fields chk (fun th o => { mk th o with phase := .running }) post d

/-- PEEK (R210). -/
def diePeek (t : ThreadId) (w : OpWord) (d : Die) : Die :=
  issueMsg 0x52 t w [(42, 0)] (fun _ _ => none) (fun _ o => o)
    (fun _ d => serveRod (opField w.x 16 5) d) d

/-- RECV (R210). -/
def dieRecv (t : ThreadId) (w : OpWord) (d : Die) : Die :=
  issueMsg 0x51 t w [(55, 36), (34, 0)]
    (fun _ th => if bitOf w.x.toNat 17 ∧ 98303 < opField w.x 34 18 + (oregOff th w).toNat then
        some .malformed else none)
    (fun _ o => o) (fun _ d => serveRod (opField w.x 16 5) d) d

/-- `TIMEOUT` of a PEEK or RECV (R210). -/
def rodTimeoutOf (o : LongOp) : Nat := if o.opcode = 0x52 then opField o.x 41 22 else opField o.x 55 36

/-- The `TIMEOUT` of a waiting PEEK or RECV expires (R210); it does not count while the job is paused
(R420). -/
def diePeekRecvTimeout (id : Nat) (d : Die) : Die :=
  match d.op? id with
  | none => d
  | some o =>
    if o.unit = .msg ∧ (o.opcode = 0x51 ∨ o.opcode = 0x52) ∧ rodTimeoutOf o ≠ 0 ∧
        !paused d o.job.toNat then
      finishOp id .timeout (zeroPeek o d)
    else d

/-! ## OPEN and CLOSE (R212, R213) -/

/-- s`SW` is malformed, or names no logical die of a package (R212, R8). -/
def badWriter (sw : Word64) : Bool :=
  decide (2 ^ 19 ≤ sw.toNat) || decide (63 < bitsOf sw.toNat 18 12)

/-- The checks of OPEN, in order (R212). -/
def openChk (w : OpWord) (d : Die) (th : Thread) : Option Status :=
  let n := opField w.x 16 5
  let newEpoch := bitOf w.x.toNat 46
  if badWriter (th.sreg (opField w.x 21 17)) then some .malformed
  else if 98304 < d.get ⟨rodBase n + 4, 16, 0⟩ + d.get ⟨rodBase n + 8, 16, 0⟩ ∨
      2 ^ 35 < spillByte d n + 32 * spillUnits d n then some .malformed
  else if newEpoch ∧ rodOpen d n then some .invalidState
  else if !rodOpen d n ∧ rodBeads d n ≠ [] then some .invalidState
  else if newEpoch ∧ rodCount d n = 0xFFF then some .resourceExhausted
  else if rodCapacity d n < d.reg (grantedReg n) + opField w.x 45 22 then some .resourceExhausted
  else none

/-- What OPEN does once it issues (R199, R204, R212). -/
def openGo (x : BitVec 96) (o : LongOp) (d : Die) : Die :=
  let n := opField x 16 5
  let credit := opField x 45 22
  let d := if bitOf x.toNat 46 then d.put ⟨rodBase n, 27, 16⟩ (rodCount d n + 1) else d
  let d := (d.put ⟨rodBase n, 1, 0⟩ 1).setReg (grantedReg n) (d.reg (grantedReg n) + credit)
  let (k, d) := pickHandle d
  let ep := rodEpoch d n
  let d := takeHandle k ⟨o.id, .openS (BitVec.ofNat 12 n) credit, BitVec.ofNat 16 ep, 0, d.rrc⟩ d
  emitBead { dstPkg := bitsOf o.sval.toNat 11 0, dstDie := bitsOf o.sval.toNat 18 12,
             world := rodWorld d n, srcRod := n, job := o.job.toNat, kind := 3, epoch := ep,
             handle := k, tag := d.get ⟨rodBase n + 4, 31, 17⟩, credit := credit } d

/-- OPEN (R212). -/
def dieOpen (t : ThreadId) (w : OpWord) (d : Die) : Die :=
  issueMsg 0x53 t w [(46, 0)] (openChk w)
    (fun th o => { o with sval := th.sreg (opField w.x 21 17) }) (openGo w.x) d

/-- What CLOSE does once it issues (R213): the rod is CLOSED, its waiters end, `DISCARD` empties it as
a release of every bead would, and `NOTIFY` sends a CLOSE bead. -/
def closeGo (x : BitVec 96) (o : LongOp) (d : Die) : Die :=
  let n := opField x 16 5
  let d := (d.put ⟨rodBase n, 1, 0⟩ 0).setReg (grantedReg n) 0
  let d := if bitOf x.toNat 17 then
      (rodBeads d n).foldl (fun d b => releaseBead n b [] d) d
    else d
  let d := serveRod n d
  if bitOf x.toNat 18 then
    let (k, d) := pickHandle d
    let ep := rodEpoch d n
    let d := takeHandle k ⟨o.id, .closeS, BitVec.ofNat 16 ep, 0, d.rrc⟩ d
    emitBead { dstPkg := bitsOf o.sval.toNat 11 0, dstDie := bitsOf o.sval.toNat 18 12,
               world := d.world, srcRod := n, job := o.job.toNat, kind := 4, epoch := ep,
               handle := k } d
  else finishOp o.id .ok d

/-- CLOSE (R213). -/
def dieClose (t : ThreadId) (w : OpWord) (d : Die) : Die :=
  issueMsg 0x54 t w [(23, 0)]
    (fun _ th => if bitOf w.x.toNat 18 ∧ badWriter (th.sreg (opField w.x 23 19)) then
        some .malformed else none)
    (fun th o => { o with sval := th.sreg (opField w.x 23 19) }) (closeGo w.x) d

/-! ## SEND (R207) -/

/-- The entry of the rod that a SEND names. -/
def sendEntry (d : Die) (dst : Word64) : Option Nat :=
  ccFind d (bitsOf dst.toNat 63 52) (bitsOf dst.toNat 51 45) (bitsOf dst.toNat 11 0)

/-- The field checks of SEND, in order (R207). -/
def sendFields (x : BitVec 96) (off : Nat) (dst meta_ : Word64) : Option Status :=
  let v := dst.toNat
  let bulk := bitOf x.toNat 15
  let mem := bitOf x.toNat 16
  let n := opField x 70 47
  if bitsOf v 44 41 ≠ 3 ∨ 63 < bitsOf v 51 45 ∨ bitsOf v 40 12 ≠ 0 ∨ 2 ^ 52 ≤ meta_.toNat then
    some .malformed
  else if (mem && !bulk) || (if bulk then decide (n = 0) || decide (16777214 < n) else decide (7 < n))
  then some .malformed
  else if (if mem then 2 ^ 30 else 1572864) < opField x 46 17 + off + n then some .malformed
  else none

/-- The world and state checks of SEND against the credit cache (R207, R391). -/
def sendState (d : Die) (dst : Word64) (units : Nat) : Option Status :=
  match sendEntry d dst with
  | none => some .invalidState
  | some e =>
    if !worldOk d.world (tabGet (fun _ => false) d.ccWorld e) then some .worldViolation
    else if ccState d e = 1 then some .closed
    else if ccState d e = 2 then some .staleEpoch
    else if ccGrant d e < units then some .resourceExhausted
    else none

/-- The checks of SEND, in order. -/
def sendChk (w : OpWord) (d : Die) (th : Thread) : Option Status :=
  let dst := th.sreg (opField w.x 9 5)
  match sendFields w.x (oregOff th w).toNat dst (th.sreg (opField w.x 14 10)) with
  | some st => some st
  | none => sendState d dst (sendUnits w.x)

/-- The payload of a SEND: its bytes and whether any could not be read (R207, R219); an extent that
the region table refuses gives its status. -/
def sendPayload (o : LongOp) (d : Die) : (Option Status × Bytes × Bool) × Die :=
  let bulk := bitOf o.x.toNat 15
  let a := 32 * o.addr 46 17
  let n := 32 * opField o.x 70 47
  if bitOf o.x.toNat 16 then
    let r : Req := ⟨.dma, false, d.world, o.job.toNat⟩
    match piecesChk d r a [(0, n)] with
    | some (u, st) => ((some st, [], false), regionRefused r u st d)
    | none =>
      let (bs, bad, d) := lpRead a n d
      ((none, bs, !bad.isEmpty), d)
  else
    let (bs, lost, d) := spdRead (if bulk then 1 else 2) a n d
    ((none, bs, !lost.isEmpty), d)

/-- The source of a SEND can be read now (R299, R302). -/
def sendServed (o : LongOp) (d : Die) : Bool :=
  !bitOf o.x.toNat 16 || lpServes false (32 * o.addr 46 17) (32 * opField o.x 70 47) d

/-- A SEND that has issued with handle `k` reads its payload and sends its bead (R207, R219). A source that the
region table refuses sends nothing: the units come back, the handle is free, and the op completes. -/
def sendSource (k : Nat) (o : LongOp) (d : Die) : Die :=
  match tabGet noHandle d.handles k with
  | none => d
  | some hd =>
    let units := sendUnits o.x
    match sendPayload o d with
    | ((some st, _, _), d) =>
      let d := dropHandle k d
      finishOp o.id st (match hd.kind with
        | .send e _ => if ccEpoch d e = hd.epoch.toNat then ccReturn e units d else d
        | _ => d)
    | ((none, payload, bad), d) =>
      let d := d.modOp o.id (fun o => { o with mark := bad, phase := .running })
      let dst := o.sval.toNat
      let m := o.sval2.toNat
      emit (.bead (packBead
        { dstPkg := bitsOf dst 63 52, dstDie := bitsOf dst 51 45, dstRod := bitsOf dst 11 0,
          world := d.world, srcPkg := d.pkg.toNat, srcDie := d.logical.toNat, srcRod := bitsOf m 51 40,
          job := o.job.toNat, kind := bit (bitOf o.x.toNat 15), epoch := hd.epoch.toNat,
          seq := hd.seq.toNat, handle := k, status := if bad then Status.poisoned.code else 0,
          tag := bitsOf m 31 0, version := bitsOf m 39 32, length := units }) payload) d

/-- What SEND does once it issues (R203, R207): it takes its units, its sequence number and a handle from entry
`e`, and sends its bead, or waits for its source's memory. -/
def sendGo (e : Nat) (o : LongOp) (d : Die) : Die :=
  let units := sendUnits o.x
  let sq := ccSeq d e
  let (k, d) := pickHandle d
  let d := takeHandle k ⟨o.id, .send e units, BitVec.ofNat 16 (ccEpoch d e), BitVec.ofNat 16 sq, d.rrc⟩ d
  let d := (d.setReg (ccBase e + 8) (ccAvail d e - units)).setReg (ccBase e + 16) ((sq + 1) % 2 ^ 16)
  if sendServed o d then sendSource k o d else d.modOp o.id (fun o => { o with phase := .queued })

/-- The handle of an op. -/
def handleOf (d : Die) (op : Nat) : Option Nat :=
  (d.handles.find? (fun e => match e.2 with
    | some ⟨op', .send _ _, _, _, _⟩ => decide (op' = op)
    | _ => false)).map (·.1)

/-- Every SEND whose source has waited for the memory and is served now goes on. -/
def sendsGo (d : Die) : Die :=
  (d.ops.filter (fun o => decide (o.opcode = 0x50) && decide (o.phase = .queued))).foldl (fun d o =>
    match handleOf d o.id with
    | some k => if sendServed o d then sendSource k o d else d
    | none => d) d

/-- SEND (R207). -/
def dieSend (t : ThreadId) (w : OpWord) (d : Die) : Die :=
  issueOp 0x50 t w [(70, 0)] (sendChk w) (fun d th =>
    match sendEntry d (th.sreg (opField w.x 9 5)) with
    | none => d
    | some e =>
      if ccAvail d e < sendUnits w.x then stallCredit t e w d
      else
        let d := unblock t.toNat d
        if 1024 ≤ d.sendsOut ∨ tokenFull th w then stallAt d t .waitQueue 0x50 w
        else
          let o := newOp d t 0x50 w .msg
          let o := { o with phase := .running, sval := th.sreg (opField w.x 9 5),
                            sval2 := th.sreg (opField w.x 14 10) }
          sendGo e o (accept d t o)) (countWorld d)
where
  /-- A SEND that the world check refuses is counted (R391). -/
  countWorld (d : Die) : Die :=
    let th := d.thread t
    if canIssue d t && !preStall d t 0x50 w && !reservedSet w [(70, 0)] &&
        decide (sendChk w d th = some .worldViolation) then worldRefused d
    else d

end Sys2Proof.Machine
end

