-- ==== Sys2Proof/Machine/Version.lean ====
section
/-! DEFINITION. The version registry (R230 to R236) and the version ops (R238, R239). -/

namespace Sys2Proof.Machine

/-- First register of a stage's registry (R245). -/
def verBase (t : Nat) : Nat := 0x60000 + 0x100 * t
/-- `ENABLE` of a stage. -/
def verEnable (d : Die) (t : Nat) : Bool := d.flag (verBase t) 0
/-- `LAG` of a stage. -/
def verLag (d : Die) (t : Nat) : Nat := d.get ⟨verBase t, 3, 1⟩ + 1
/-- `JOB` of a stage. -/
def verJob (d : Die) (t : Nat) : Nat := d.get ⟨verBase t, 7, 4⟩
/-- `SLOTS` of a stage. -/
def verSlots (d : Die) (t : Nat) : Nat := d.get ⟨verBase t, 10, 8⟩ + 1
/-- `START` of a stage. -/
def verStart (d : Die) (t : Nat) : Nat := d.reg48 (verBase t + 8)
/-- `NEWEST_USED`. -/
def verNewest (d : Die) (t : Nat) : Nat := d.get ⟨verBase t + 0x10, 7, 0⟩
/-- `USED_VALID`. -/
def verUsedValid (d : Die) (t : Nat) : Bool := d.flag (verBase t + 0x10) 8
/-- `LAST_COMMIT`. -/
def verLast (d : Die) (t : Nat) : Nat := d.get ⟨verBase t + 0x10, 23, 16⟩
/-- `COMMIT_VALID`. -/
def verCommitValid (d : Die) (t : Nat) : Bool := d.flag (verBase t + 0x10) 24
/-- First register of a slot. -/
def slotReg (t s : Nat) : Nat := verBase t + 0x20 + 8 * s
/-- `STATE` of a slot: 0 FREE, 1 OPEN, 2 SEALED, 3 OPEN_COMMITTED, 4 LIVE (R230). -/
def slotState (d : Die) (t s : Nat) : Nat := d.get ⟨slotReg t s, 2, 0⟩
/-- `NUMBER` of a slot. -/
def slotNumber (d : Die) (t s : Nat) : Nat := d.get ⟨slotReg t s, 15, 8⟩
/-- `REFS` of a slot. -/
def slotRefs (d : Die) (t s : Nat) : Nat := d.get ⟨slotReg t s, 31, 16⟩
/-- `PINS` of a slot. -/
def slotPins (d : Die) (t s : Nat) : Nat := d.get ⟨slotReg t s + 4, 3, 0⟩
/-- The die with a slot's state stored. -/
def setSlotState (t s v : Nat) (d : Die) : Die := d.put ⟨slotReg t s, 2, 0⟩ v
/-- The die with a slot's reference count stored. -/
def setSlotRefs (t s v : Nat) (d : Die) : Die := d.put ⟨slotReg t s, 31, 16⟩ v
/-- The die with a slot's pin count stored. -/
def setSlotPins (t s v : Nat) (d : Die) : Die := d.put ⟨slotReg t s + 4, 3, 0⟩ v

/-- The slot of a stage that holds a number in any state but FREE. -/
def slotOf (d : Die) (t n : Nat) : Option Nat :=
  (List.range 8).find? (fun s => decide (slotState d t s ≠ 0) && decide (slotNumber d t s = n))

/-- The lowest-numbered FREE slot among the first `SLOTS` (R234, R239). -/
def freeSlot (d : Die) (t : Nat) : Option Nat :=
  (List.range (verSlots d t)).find? (fun s => decide (slotState d t s = 0))

/-- Number `n` is ahead of `m` (R232). -/
def verAhead (n m : Nat) : Bool :=
  let k := (n + 256 - m % 256) % 256
  decide (1 ≤ k) && decide (k ≤ 127)

/-- The number that a window resolves (R231): that of window max(w − LAG, START − 1). -/
def windowNumber (d : Die) (t w : Nat) : Nat := max (w + 1 - verLag d t) (verStart d t) % 256

/-- A request for an absent number waits (R232); any other has retired. -/
def absentWaits (d : Die) (t n : Nat) : Bool :=
  !verCommitValid d t || decide (n = verLast d t) || verAhead n (verLast d t)

/-- A slot retires when nothing refers to it and a newer version is in use (R233). -/
def verRetire (t : Nat) (d : Die) : Die :=
  (List.range 8).foldl (fun d s =>
    if slotState d t s = 4 ∧ slotRefs d t s = 0 ∧ slotPins d t s = 0 ∧ verUsedValid d t ∧
        verAhead (verNewest d t) (slotNumber d t s) then setSlotState t s 0 d
    else d) d

/-- s`SD` of VER_USE, VER_PIN and ALLOC (R238). -/
def verWord (d : Die) (t s : Nat) : Word64 :=
  let b := d.reg (verBase t + 4)
  let mib := bitsOf b 14 0 + s * bitsOf b 26 15
  BitVec.ofNat 64 (slotNumber d t s + s <<< 8 + ((mib * 2 ^ 14) % 2 ^ 29) <<< 12)

/-- The op finishes with a status and what it writes. -/
def verDone (id : Nat) (st : Status) (res : Option (BitVec 5 × Word64)) (d : Die) : Die :=
  d.modOp id (fun o => { o with phase := .done st, result := res })

/-- `SD` of a version op. -/
def verSd (x : BitVec 96) : BitVec 5 := BitVec.ofNat 5 (opField x 13 9)

/-- A new reference to the LIVE slot `s` (R233, R238, R239 check 8). -/
def verTake (t s : Nat) (o : LongOp) (d : Die) : Die :=
  if slotRefs d t s = 65535 then verDone o.id .resourceExhausted none d
  else
    let n := slotNumber d t s
    let d := setSlotRefs t s (slotRefs d t s + 1) d
    let d := if !verUsedValid d t || verAhead n (verNewest d t) then
        (d.put ⟨verBase t + 0x10, 7, 0⟩ n).setFlag (verBase t + 0x10) 8
      else d
    verRetire t (verDone o.id .ok (some (verSd o.x, verWord d t s)) d)

/-- A VER_USE of number `o.stamp` is judged (R232): served, made to wait, or refused. -/
def verJudge (t : Nat) (o : LongOp) (d : Die) : Die :=
  match slotOf d t o.stamp with
  | some s => if slotState d t s = 4 then verTake t s o d else d
  | none => if absentWaits d t o.stamp then d else verDone o.id .invalidState none d

/-- The VER_USE ops of a stage that wait for a number, in arrival order. -/
def verWaiters (d : Die) (t n : Nat) : List LongOp :=
  d.ops.filter (fun o => decide (o.opcode = 0x70) && decide (o.phase = .running) &&
    decide (opField o.x 6 5 = t) && decide (o.stamp = n))

/-- The requests for a number are judged again, once a slot has become LIVE with it or has been freed
from it (R232). -/
def verWake (t n : Nat) (d : Die) : Die := (verWaiters d t n).foldl (fun d o => verJudge t o d) d

/-- A slot is freed. -/
def freeSlotOf (t s : Nat) (d : Die) : Die := verWake t (slotNumber d t s) (setSlotState t s 0 d)

/-! ## The ops -/

/-- The input register of a version op: its window or version number. -/
def verSa (x : BitVec 96) (th : Thread) : Nat := (th.sreg (opField x 18 14)).toNat

/-- The first checks that every version op of a stage shares (R239): s`SA` within its width, then the
stage enabled for the thread's job. -/
def verChk (w : OpWord) (bits : Nat) (t : ThreadId) (d : Die) (th : Thread)
    (k : Nat → Nat → Option Status) : Option Status :=
  let s := opField w.x 6 5
  let sa := verSa w.x th
  if 2 ^ bits ≤ sa then some .malformed
  else if !verEnable d s ∨ verJob d s ≠ (d.threadJob t).toNat then some .invalidState
  else k s sa

/-- The issue of a version op. -/
def issueVer (opcode : Nat) (t : ThreadId) (w : OpWord) (fields : List (Nat × Nat))
    (chk : Die → Thread → Option Status) (stamp : Die → Thread → Nat) (post : LongOp → Die → Die)
    (d : Die) : Die :=
  issueLong opcode .ver t w fields chk (fun th o => { o with phase := .running, stamp := stamp d th }) post d

/-- VER_USE in any `MODE` (R238, R239). -/
def dieVerUse (t : ThreadId) (w : OpWord) (d : Die) : Die :=
  let mode := opField w.x 8 7
  let number (d : Die) (th : Thread) : Nat :=
    if mode = 0 then windowNumber d (opField w.x 6 5) (verSa w.x th) else verSa w.x th
  issueVer 0x70 t w [(38, 0)]
    (fun d th =>
      if mode = 3 then some .malformed
      else verChk w (if mode = 0 then 48 else 8) t d th (fun s sa =>
        if mode = 0 ∧ sa < verStart d s then some .invalidState
        else match slotOf d s (number d th) with
          | some k => if mode ≠ 2 ∧ slotState d s k = 4 ∧ slotRefs d s k = 65535 then
              some .resourceExhausted else none
          | none => if mode = 2 ∨ !absentWaits d s (number d th) then some .invalidState else none))
    number
    (fun o d =>
      let s := opField w.x 6 5
      if mode = 2 then
        match slotOf d s o.stamp with
        | some k => verDone o.id .ok (some (verSd w.x, verWord d s k)) d
        | none => d
      else verJudge s o d) d

/-- The `TIMEOUT` of a waiting VER_USE expires (R238, R239); it does not count while the job is paused
(R420). -/
def dieVerUseTimeout (id : Nat) (d : Die) : Die :=
  match d.op? id with
  | none => d
  | some o =>
    if o.opcode = 0x70 ∧ o.phase = .running ∧ opField o.x 38 19 ≠ 0 ∧ !paused d o.job.toNat then
      finishOp id .timeout d
    else d

/-- Slot `s` takes number `n` (R234). -/
def verAlloc (t s n state : Nat) (d : Die) : Die :=
  (d.setReg (slotReg t s) (state + (n % 256) <<< 8)).setReg (slotReg t s + 4) 0

/-- VER_NEW in any `MODE` (R234, R238, R239). -/
def dieVerNew (t : ThreadId) (w : OpWord) (d : Die) : Die :=
  let mode := opField w.x 8 7
  issueVer 0x71 t w [(18, 0)]
    (fun d th =>
      if mode = 3 then some .malformed
      else verChk w (if mode = 1 then 8 else 48) t d th (fun s sa =>
        let b := d.reg (verBase s + 4)
        let n := (sa + 1) % 256
        if mode = 1 then
          match slotOf d s sa with
          | some k => if slotState d s k = 1 ∨ slotState d s k = 3 then none else some .invalidState
          | none => some .invalidState
        else if bitsOf b 26 15 = 0 ∨ 32768 < bitsOf b 14 0 + verSlots d s * bitsOf b 26 15 then
          some .malformed
        else if mode = 0 ∧ (slotOf d s n).isSome then some .invalidState
        else if mode = 2 ∧ ((List.range 8).any (fun k => decide (slotState d s k ≠ 0)) ∨
            sa ≠ (verStart d s + 2 ^ 48 - 1) % 2 ^ 48) then some .invalidState
        else if (freeSlot d s).isNone then some .resourceExhausted
        else none))
    (fun _ th => verSa w.x th)
    (fun o d =>
      let s := opField w.x 6 5
      let n := (o.stamp + 1) % 256
      if mode = 1 then
        match slotOf d s o.stamp with
        | some k =>
          let d := verDone o.id .ok none d
          if slotState d s k = 3 then verRetire s (verWake s o.stamp (setSlotState s k 4 d))
          else setSlotState s k 2 d
        | none => d
      else match freeSlot d s with
        | none => d
        | some k =>
          if mode = 0 then
            let d := verAlloc s k n (if verCommitValid d s ∧ n = verLast d s then 3 else 1) d
            verDone o.id .ok (some (verSd w.x, verWord d s k)) d
          else
            let d := verAlloc s k n 3 d
            verDone o.id .ok none ((d.put ⟨verBase s + 0x10, 23, 16⟩ n).setFlag (verBase s + 0x10) 24))
    d

/-- VER_PIN (R236, R238, R239). -/
def dieVerPin (t : ThreadId) (w : OpWord) (d : Die) : Die :=
  let newest := bitOf w.x.toNat 19
  let slot (d : Die) (th : Thread) : Option Nat :=
    let s := opField w.x 6 5
    if newest then (if verCommitValid d s then slotOf d s (verLast d s) else none)
    else slotOf d s (verSa w.x th)
  issueVer 0x72 t w [(6, 0), (19, 9)]
    (fun d th =>
      verChk w (if newest then 64 else 8) t d th (fun s _ =>
        match slot d th with
        | some k => if slotState d s k ≠ 4 then some .invalidState
          else if slotPins d s k = 15 then some .resourceExhausted else none
        | none => some .invalidState))
    (fun d th => (slot d th).getD 0)
    (fun o d =>
      let s := opField w.x 6 5
      let d := setSlotPins s o.stamp (slotPins d s o.stamp + 1) d
      verDone o.id .ok (some (verSd w.x, verWord d s o.stamp)) d) d

/-- VER_RELEASE in any `MODE` (R233, R234, R238, R239). `MICROBATCHES` of the stage counts each REF
(R241). -/
def dieVerRelease (t : ThreadId) (w : OpWord) (d : Die) : Die :=
  let mode := opField w.x 8 7
  issueVer 0x73 t w [(8, 0), (18, 14)]
    (fun d th =>
      if mode = 3 then some .malformed
      else verChk w 8 t d th (fun s sa =>
        match slotOf d s sa with
        | none => some .invalidState
        | some k =>
          if mode = 0 ∧ slotRefs d s k = 0 then some .invalidState
          else if mode = 1 ∧ slotPins d s k = 0 then some .invalidState
          else if mode = 2 ∧ slotState d s k = 4 ∧ (slotRefs d s k ≠ 0 ∨ slotPins d s k ≠ 0) then
            some .invalidState
          else none))
    (fun _ th => verSa w.x th)
    (fun o d =>
      let s := opField w.x 6 5
      match slotOf d s o.stamp with
      | none => d
      | some k =>
        let d := verDone o.id .ok none d
        if mode = 0 then
          let d := setSlotRefs s k (slotRefs d s k - 1) d
          let m := 0xA8028 + 0x40 * s
          verRetire s (d.setReg m ((d.reg m + 1) % 2 ^ 32))
        else if mode = 1 then verRetire s (setSlotPins s k (slotPins d s k - 1) d)
        else freeSlotOf s k d) d

/-- An op word with its `MODE` set: each mode of a version or ledger op is a row of its own. -/
def withMode (hi lo : Nat) (w : OpWord) (mode : Nat) : OpWord :=
  { w with x := BitVec.ofNat 96 (putBits w.x.toNat hi lo mode) }

/-- VER_USE BIND. -/
def dieVerUseBind (t : ThreadId) (w : OpWord) (d : Die) : Die := dieVerUse t (withMode 8 7 w 0) d
/-- VER_USE BY_NUMBER. -/
def dieVerUseByNumber (t : ThreadId) (w : OpWord) (d : Die) : Die := dieVerUse t (withMode 8 7 w 1) d
/-- VER_USE LOOKUP. -/
def dieVerUseLookup (t : ThreadId) (w : OpWord) (d : Die) : Die := dieVerUse t (withMode 8 7 w 2) d
/-- VER_NEW ALLOC. -/
def dieVerNewAlloc (t : ThreadId) (w : OpWord) (d : Die) : Die := dieVerNew t (withMode 8 7 w 0) d
/-- VER_NEW SEAL. -/
def dieVerNewSeal (t : ThreadId) (w : OpWord) (d : Die) : Die := dieVerNew t (withMode 8 7 w 1) d
/-- VER_NEW INITIAL. -/
def dieVerNewInitial (t : ThreadId) (w : OpWord) (d : Die) : Die := dieVerNew t (withMode 8 7 w 2) d
/-- VER_RELEASE REF. -/
def dieVerReleaseRef (t : ThreadId) (w : OpWord) (d : Die) : Die :=
  dieVerRelease t (withMode 8 7 w 0) d
/-- VER_RELEASE UNPIN. -/
def dieVerReleaseUnpin (t : ThreadId) (w : OpWord) (d : Die) : Die :=
  dieVerRelease t (withMode 8 7 w 1) d
/-- VER_RELEASE DISCARD. -/
def dieVerReleaseDiscard (t : ThreadId) (w : OpWord) (d : Die) : Die :=
  dieVerRelease t (withMode 8 7 w 2) d

/-! ## Notices and reset (R234) -/

/-- A commit notice of window `win` for job `j` (R234). -/
def verCommit (j win : Nat) (d : Die) : Die :=
  let n := (win + 1) % 256
  (List.range 4).foldl (fun d t =>
    if verJob d t ≠ j then d
    else
      let d := (d.put ⟨verBase t + 0x10, 23, 16⟩ n).setFlag (verBase t + 0x10) 24
      match slotOf d t n with
      | none => d
      | some s =>
        if slotState d t s = 1 then setSlotState t s 3 d
        else if slotState d t s = 2 then verRetire t (verWake t n (setSlotState t s 4 d))
        else d) d

/-- A repeat notice of window `win` for job `j` (R234). -/
def verRepeat (j win : Nat) (d : Die) : Die :=
  let n := (win + 1) % 256
  (List.range 4).foldl (fun d t =>
    if verJob d t ≠ j then d
    else match slotOf d t n with
      | none => d
      | some s => if slotState d t s = 1 ∨ slotState d t s = 2 then freeSlotOf t s d else d) d

/-- The slots after a partition reset that includes the die (R234, R245). -/
def verReset (d : Die) : Die :=
  (List.range 4).foldl (fun d t =>
    let d := (List.range 8).foldl (fun d s =>
      if slotState d t s = 4 then setSlotPins t s 0 (setSlotRefs t s 0 d)
      else setSlotState t s 0 d) d
    d.put ⟨verBase t + 0x10, 8, 8⟩ 0) d

end Sys2Proof.Machine
end

