-- ==== Sys2Proof/Machine/Reduce.lean ====
section
/-! DEFINITION. Remote accumulation: packets, reduction contexts and their arming (R247 to R256),
ACCUM_PUSH (R257, R258), and the answers to sends and packets (R208, R209, R258). -/

namespace Sys2Proof.Machine

/-! ## The remote-accumulate packet (R249) -/

/-- The fields of a packet header (R249). -/
structure Rap where
  target : Nat := 0
  srcPkg : Nat := 0
  srcDie : Nat := 0
  world : Bool := false
  job : Nat := 0
  ctx : Nat := 0
  mc : Bool := false
  gen : Nat := 0
  step : Nat := 0
  attempt : Nat := 0
  rank : Nat := 0
  op : Nat := 0
  len : Nat := 0
  eb : Nat := 0
  lmaxe : Nat := 0
  ovr : Nat := 0
  handle : Nat := 0
  deriving DecidableEq, Repr

/-- Bits [hi:lo] of a packet header. -/
def rf (h : BitVec 512) (hi lo : Nat) : Nat := bitsOf h.toNat hi lo

/-- The fields that a packet header spells. -/
def rapOf (h : BitVec 512) : Rap :=
  { target := rf h 63 0, srcPkg := rf h 75 64, srcDie := rf h 82 76, world := bitOf h.toNat 83,
    job := rf h 87 84, ctx := rf h 98 88, mc := bitOf h.toNat 99, gen := rf h 115 100,
    step := rf h 163 116, attempt := rf h 171 164, rank := rf h 183 172, op := rf h 185 184,
    len := rf h 191 186, eb := rf h 199 192, lmaxe := rf h 207 200, ovr := rf h 271 208,
    handle := rf h 281 272 }

/-- Bytes 0 to 35 of a packet header as a number. -/
def rapLow (r : Rap) : Nat :=
  r.target % 2 ^ 64 + (r.srcPkg % 2 ^ 12) <<< 64 + (r.srcDie % 2 ^ 7) <<< 76 + bit r.world <<< 83 +
  (r.job % 16) <<< 84 + (r.ctx % 2 ^ 11) <<< 88 + bit r.mc <<< 99 + (r.gen % 2 ^ 16) <<< 100 +
  (r.step % 2 ^ 48) <<< 116 + (r.attempt % 256) <<< 164 + (r.rank % 2 ^ 12) <<< 172 +
  (r.op % 4) <<< 184 + (r.len % 64) <<< 186 + (r.eb % 256) <<< 192 + (r.lmaxe % 256) <<< 200 +
  (r.ovr % 2 ^ 64) <<< 208 + (r.handle % 2 ^ 10) <<< 272

/-- The header of a packet, `HCHK` included. -/
def packRap (r : Rap) : BitVec 512 :=
  let low := rapLow r
  BitVec.ofNat 512 (low + (crc16 (leBytes 36 low)).toNat <<< 288)

/-- `HCHK` of a packet is right. -/
def rapHdrOk (h : BitVec 512) : Bool :=
  decide (crc16 (leBytes 36 h.toNat) = h.extractLsb' 288 16)

/-- A block-integer operation (R250). -/
def opTbi (op : Nat) : Bool := decide (op < 2)
/-- Bytes of accumulator written per payload unit (R250). -/
def accPerUnit (op : Nat) : Nat := if opTbi op then 128 else 64
/-- Blocks that `n` payload units carry (R250). -/
def opBlocks (op n : Nat) : Nat := if op = 0 then n else if op = 1 then n / 2 else 0

/-- A payload holds an element code that R124 reserves. -/
def reservedElt (op : Nat) (bs : Bytes) : Bool :=
  if op = 0 then (List.range (bs.length / 2)).any (fun i => decide (natAt bs (2 * i) 2 = 0x8000))
  else if op = 1 then
    (List.range (bs.length / 4)).any (fun i => decide (natAt bs (4 * i) 4 = 0x80000000))
  else false

/-- Check 3 of R254. -/
def rapBad (h : BitVec 512) (payload : Bytes) : Bool :=
  let r := rapOf h
  let n := r.len + 1
  decide (rf h 287 282 ≠ 0) || decide (rf h 511 304 ≠ 0) || decide (1536 ≤ r.ctx) ||
  decide (bitsOf r.target 44 41 ≠ 0) || decide (63 < bitsOf r.target 51 45) ||
  decide (2 ^ 35 ≤ bitsOf r.target 40 0) || dieReserved r.srcDie ||
  decide (payload.length ≠ 64 * n) || (decide (r.op = 1) && decide (n % 2 = 1)) ||
  decide (r.ovr >>> opBlocks r.op n ≠ 0) ||
  (!opTbi r.op && (decide (r.eb ≠ 0) || decide (r.lmaxe ≠ 0))) || reservedElt r.op payload

/-- One payload unit added into its accumulators (R250). -/
def addUnit (op : Nat) (old pay : Bytes) : Bytes :=
  match op with
  | 0 => (List.range 32).flatMap (fun i =>
      leBytes 4 (wrapInt 32 (signedOf 32 (natAt old (4 * i) 4) + signedOf 16 (natAt pay (2 * i) 2))))
  | 1 => (List.range 16).flatMap (fun i =>
      leBytes 8 (wrapInt 64 (signedOf 64 (natAt old (8 * i) 8) + signedOf 32 (natAt pay (4 * i) 4))))
  | 2 => (List.range 8).flatMap (fun i =>
      leBytes 8 ((natAt old (8 * i) 8 + natAt pay (8 * i) 8) % 2 ^ 64))
  | _ => (List.range 16).flatMap (fun i =>
      leBytes 4 (max (natAt old (4 * i) 4) (natAt pay (4 * i) 4)))

/-! ## Contexts (R251 to R253, R276) -/

/-- First register of a context. -/
def ctxBase (mc : Bool) (c : Nat) : Nat := (if mc then 0x84000 else 0x74000) + 32 * c
/-- `ENABLE`. -/
def ctxEnable (d : Die) (b : Nat) : Bool := d.flag b 0
/-- `WORLD`. -/
def ctxWorld (d : Die) (b : Nat) : Bool := d.flag b 1
/-- `JOB`. -/
def ctxJob (d : Die) (b : Nat) : Nat := d.get ⟨b, 5, 2⟩
/-- `OP`. -/
def ctxOp (d : Die) (b : Nat) : Nat := d.get ⟨b, 7, 6⟩
/-- `GEN`. -/
def ctxGen (d : Die) (b : Nat) : Nat := d.get ⟨b, 31, 16⟩
/-- First byte of the range in LPDDR. -/
def ctxRange (d : Die) (b : Nat) : Nat := 64 * d.get ⟨b + 4, 28, 0⟩
/-- `UNITS`. -/
def ctxUnits (d : Die) (b : Nat) : Nat := d.get ⟨b + 8, 19, 0⟩
/-- `NCONTRIB`. -/
def ctxContrib (d : Die) (b : Nat) : Nat := d.get ⟨b + 8, 31, 20⟩ + 1
/-- `STATE`: 0 IDLE, 1 SWEEPING, 2 ARMED, 3 COMPLETE. -/
def ctxState (d : Die) (b : Nat) : Nat := d.get ⟨b + 12, 2, 0⟩
/-- `OVR`. -/
def ctxOvr (d : Die) (b : Nat) : Bool := d.flag (b + 12) 3
/-- `POISON`. -/
def ctxPoison (d : Die) (b : Nat) : Bool := d.flag (b + 12) 4
/-- `NONFIN`. -/
def ctxNonfin (d : Die) (b : Nat) : Bool := d.flag (b + 12) 5
/-- `CLEAN`. -/
def ctxClean (d : Die) (b : Nat) : Bool := d.flag (b + 12) 6
/-- `EB`. -/
def ctxEb (d : Die) (b : Nat) : Nat := d.get ⟨b + 12, 15, 8⟩
/-- `MAXE`. -/
def ctxMaxe (d : Die) (b : Nat) : Nat := d.get ⟨b + 12, 23, 16⟩
/-- Recorded `ATTEMPT`. -/
def ctxAttempt (d : Die) (b : Nat) : Nat := d.get ⟨b + 12, 31, 24⟩
/-- Recorded `STEP`. -/
def ctxStep (d : Die) (b : Nat) : Nat := d.reg48 (b + 16)
/-- `RECEIVED`. -/
def ctxReceived (d : Die) (b : Nat) : Nat := d.reg (b + 24)
/-- The die with a context's state stored. -/
def setCtxState (b v : Nat) (d : Die) : Die := d.put ⟨b + 12, 2, 0⟩ v

/-- Pair (s, a) is behind pair (s', a') (R254). -/
def pairLt (s a s' a' : Nat) : Bool := decide (s < s') || (decide (s = s') && decide (a < a'))

/-- First register of a job's reduction state (R275). -/
def redBase (j : Nat) : Nat := 0x90100 + 0x20 * j
/-- `ACTIVE` of a job. -/
def redActive (d : Die) (j : Nat) : Bool := d.flag (redBase j) 0
/-- N of a job. -/
def redN (d : Die) (j : Nat) : Nat := d.get ⟨redBase j, 8, 1⟩ + 1
/-- `GEN` of a job. -/
def redGen (d : Die) (j : Nat) : Nat := d.get ⟨redBase j + 8, 15, 0⟩
/-- `STEP` of a job. -/
def redStep (d : Die) (j : Nat) : Nat := d.reg48 (redBase j + 12)
/-- `ATTEMPT` of a job. -/
def redAttempt (d : Die) (j : Nat) : Nat := d.get ⟨redBase j + 16, 23, 16⟩

/-- The header of a tally bead (R263). -/
def tallyBead (pkg die job id count attempt step : Nat) : Bead :=
  { dstPkg := pkg, dstDie := die, job := job, kind := 5, csub := 2, epoch := count, seq := id,
    handle := step % 1024, version := attempt }

/-- A tally to the ledger die that the job's registers name (R256). -/
def ledgerSend (job id attempt step : Nat) (d : Die) : Die :=
  emitBead { tallyBead (d.get ⟨redBase job, 27, 16⟩) (d.get ⟨redBase job + 4, 6, 0⟩) job id 1 attempt
    step with world := d.world } d

/-- The number of a context among the die's. -/
def ctxKey (b : Nat) : Nat := b / 32

/-- A context is poisoned; its tally goes out once per arming (R254). -/
def ctxPoisoned (b id step attempt : Nat) (d : Die) : Die :=
  let d := d.setFlag (b + 12) 4
  if tabGet (fun _ => false) d.ctxTold (ctxKey b) then d
  else ledgerSend (ctxJob d b) id attempt step
    { d with ctxTold := tabSet (fun _ => false) d.ctxTold (ctxKey b) true }

/-- CTX_POISON with the context's recorded pair. -/
def ctxPoison3 (b : Nat) (d : Die) : Die := ctxPoisoned b 3 (ctxStep d b) (ctxAttempt d b) d

/-- Records a pair (R255). -/
def ctxRecord (b step attempt : Nat) (d : Die) : Die :=
  { (d.setReg48 (b + 16) step).put ⟨b + 12, 31, 24⟩ attempt with
    ctxTold := tabSet (fun _ => false) d.ctxTold (ctxKey b) false }

/-- An arming begins: the pair is recorded, progress and flags cleared, `EB` taken (R255). -/
def ctxArm (b : Nat) (r : Rap) (d : Die) : Die :=
  let d := ctxRecord b r.step r.attempt d
  let d := ((d.put ⟨b + 12, 5, 3⟩ 0).put ⟨b + 12, 15, 8⟩ r.eb).put ⟨b + 12, 23, 16⟩ 0
  (d.setReg (b + 24) 0).setReg (b + 28) 0

/-- The requester of a context's accesses (R289). -/
def ctxReq (d : Die) (b : Nat) : Req := ⟨.acc, true, ctxWorld d b, ctxJob d b⟩

/-! ## WAITCTX (R271) -/

/-- s`SD` of a WAITCTX. -/
def waitctxWord (d : Die) (b : Nat) : Word64 :=
  BitVec.ofNat 64 (ctxEb d b + ctxMaxe d b <<< 8 + bit (ctxOvr d b) <<< 16 +
    bit (ctxPoison d b) <<< 17 + bit (ctxNonfin d b) <<< 18)

/-- The context that s`SC` of an op names. -/
def scCtx (o : LongOp) : Nat := ctxBase (bitOf o.sval.toNat 11) (bitsOf o.sval.toNat 10 0)

/-- A waiting WAITCTX finds its context as it is now. -/
def waitctxTry (o : LongOp) (d : Die) : Die :=
  let b := scCtx o
  let step := bitsOf o.sval2.toNat 47 0
  let att := bitsOf o.sval.toNat 19 12
  if pairLt step att (ctxStep d b) (ctxAttempt d b) then finishOp o.id .attemptStale d
  else if ctxStep d b = step ∧ ctxAttempt d b = att ∧ (ctxState d b = 3 ∨ ctxPoison d b) then
    let st := if ctxOvr d b then Status.scaleOverrun
      else if ctxPoison d b || ctxNonfin d b then .poisoned else .ok
    finishOp o.id st (d.modOp o.id (fun o =>
      { o with result := some (BitVec.ofNat 5 (opField o.x 11 7), waitctxWord d b) }))
  else d

/-- The LEDGER_DONE ops in a mode that wait. -/
def ledgerOps (d : Die) (mode : Nat) : List LongOp :=
  d.ops.filter (fun o => decide (o.opcode = 0x62) && decide (o.phase = .running) &&
    decide (opField o.x 6 5 = mode))

/-- Every WAITCTX after a change of a context. -/
def ctxWake (b : Nat) (d : Die) : Die :=
  ((ledgerOps d 1).filter (fun o => decide (scCtx o = b))).foldl (fun d o => waitctxTry o d) d

/-! ## Arrival at the owner (R254, R255) -/

/-- An answer to a packet: its `HANDLE`, with `EPOCH` and `SEQ` 0 (R254). -/
def rapAnswer (r : Rap) (kind status : Nat) (d : Die) : Die :=
  emitBead { dstPkg := r.srcPkg, dstDie := r.srcDie, world := d.world, job := r.job, kind := kind,
             status := status, handle := r.handle } d

/-- A packet is refused. -/
def rapNak (r : Rap) (st : Status) (d : Die) : Die := rapAnswer r 2 st.code d

/-- The sums of a packet written to LPDDR: bytes, and halves that could not be read (R250, R283). -/
def rapAdd (q : Req) (r : Rap) (payload : Bytes) (d : Die) : List Nat × Die :=
  let a := bitsOf r.target 40 0
  let k := accPerUnit r.op
  let n := r.len + 1
  let (old, bad, d) := lpRead a (k * n) d
  let new := (List.range n).flatMap (fun u =>
    addUnit r.op (sliceB old (k * u) k) (sliceB payload (64 * u) 64))
  (bad, lpPoison bad (lpStore q a new d))

/-- The last unit of an arming has been received (R255). -/
def ctxComplete (b : Nat) (d : Die) : Die :=
  let j := ctxJob d b
  let s := ctxStep d b
  let a := ctxAttempt d b
  let d := ledgerSend j 1 a s (setCtxState b 3 d)
  let d := if ctxOvr d b then ledgerSend j 2 a s d else d
  if ctxNonfin d b then ledgerSend j 5 a s d else d

/-- Checks 10 to 13 of R254 and the addition. -/
def rapAccept (b : Nat) (r : Rap) (payload : Bytes) (d : Die) : Die :=
  let n := r.len + 1
  let full := ctxContrib d b * ctxUnits d b
  if ctxPoison d b then rapNak r .poisoned d
  else if r.eb ≠ ctxEb d b then rapNak r .poisoned (ctxPoison3 b d)
  else if full < ctxReceived d b + n then rapNak r .resourceExhausted (ctxPoison3 b d)
  else
    let a := bitsOf r.target 40 0
    let ref := (tabulate (accPerUnit r.op * n / 64) (fun i => a + 64 * i)).findSome?
      (fun u => (regionChk d (ctxReq d b) u 64).map (fun st => (u, st)))
    match ref with
    | some (u, st) => rapNak r st (ctxPoison3 b (regionRefused (ctxReq d b) u st d))
    | none =>
      let (bad, d) := rapAdd (ctxReq d b) r payload d
      let d := d.put ⟨b + 12, 6, 6⟩ 0
      if bad ≠ [] then rapNak r .poisoned (ctxPoison3 b d)
      else
        let ovr := (List.range 64).countP (fun i => bitOf r.ovr i)
        let d := (d.setReg (b + 24) (ctxReceived d b + n)).count (b + 28) ovr
        let d := if 0 < ovr then d.setFlag (b + 12) 3 else d
        let d := d.put ⟨b + 12, 23, 16⟩ (max (ctxMaxe d b) r.lmaxe)
        let d := if r.lmaxe = 0xFF then d.setFlag (b + 12) 5 else d
        let d := rapAnswer r 5 0 d
        if ctxReceived d b = full then ctxComplete b d else d

/-- A controller is busy with a sweep (R253). -/
def sweeping (d : Die) (mc : Bool) : Bool :=
  (List.range 1536).any (fun c => decide (ctxState d (ctxBase mc c) = 1))

/-- A packet waits in its controller. -/
def rapWait (mc : Bool) (h : BitVec 512) (payload : Bytes) (d : Die) : Die :=
  { d with ctxWait := d.ctxWait ++ [(mc, h, payload)] }

/-- Checks 3 to 9 of R254, arming under R255, and what follows; a packet that begins a sweep waits for
its end. -/
def rapCheck (h : BitVec 512) (payload : Bytes) (d : Die) : Die :=
  let r := rapOf h
  let b := ctxBase r.mc r.ctx
  let a := bitsOf r.target 40 0
  let k := accPerUnit r.op
  if rapBad h payload then rapNak r .malformed d
  else if !worldOk r.world (ctxWorld d b) then rapNak r .worldViolation (worldRefused d)
  else if !ctxEnable d b ∨ r.job ≠ ctxJob d b ∨ r.op ≠ ctxOp d b then rapNak r .invalidState d
  else if a < ctxRange d b ∨ (a - ctxRange d b) % k ≠ 0 ∨
      ctxRange d b + k * ctxUnits d b < a + k * (r.len + 1) then rapNak r .malformed d
  else if r.gen ≠ ctxGen d b then
    rapNak r .genMismatch (ctxWake b (ctxPoisoned b 4 r.step r.attempt d))
  else if pairLt r.step r.attempt (ctxStep d b) (ctxAttempt d b) then
    rapNak r .attemptStale (d.count 0x90008 1)
  else if ctxState d b = 0 ∧ ctxClean d b then
    ctxWake b (rapAccept b r payload (setCtxState b 2 (ctxArm b r d)))
  else if ctxState d b = 0 ∨ (r.step = ctxStep d b ∧ ctxAttempt d b < r.attempt) then
    ctxWake b (rapWait r.mc h payload (setCtxState b 1 (ctxArm b r d)))
  else if ctxStep d b < r.step then
    let d := ctxPoison3 b (setCtxState b 2 (ctxRecord b r.step r.attempt d))
    ctxWake b (rapAccept b r payload d)
  else ctxWake b (rapAccept b r payload d)

/-- A packet at its controller: it waits behind a sweep (R253). -/
def rapOffer (h : BitVec 512) (payload : Bytes) (d : Die) : Die :=
  let mc := (rapOf h).mc
  if sweeping d mc then rapWait mc h payload d else rapCheck h payload d

/-- The packets that waited in a controller are checked again in the order of their arrival (R253,
R272). -/
def rapReplay (mc : Bool) (d : Die) : Die :=
  let held := d.ctxWait.filter (fun e => decide (e.1 = mc))
  let d := { d with ctxWait := d.ctxWait.filter (fun e => decide (e.1 ≠ mc)) }
  held.foldl (fun d e => rapOffer e.2.1 e.2.2 d) d

/-- The accumulators of a packet lie on a channel that waits (R299, R302): the packet waits with them. -/
def rapWaits (h : BitVec 512) (payload : Bytes) (d : Die) : Bool :=
  let r := rapOf h
  rodUnitOn d && rapHdrOk h && !sweeping d r.mc && !rapBad h payload &&
    !lpServes false (bitsOf r.target 40 0) (accPerUnit r.op * (r.len + 1)) d

/-- RAP_ARRIVAL (R254). -/
def dieRapArrival (h : BitVec 512) (payload : Bytes) (d : Die) : Die :=
  if !rodUnitOn d then d
  else if !rapHdrOk h then d.count 0x9000C 1
  else rapOffer h payload d

/-- The zeros of a sweep: how far it came, and the status of the unit that stopped it (R253). -/
def sweepRange (b : Nat) (d : Die) : Option Status × Die :=
  let a := ctxRange d b
  let n := accPerUnit (ctxOp d b) * ctxUnits d b / 64
  let (ok, st) := unitsOk d (ctxReq d b) n a
  let d := noteRefused (a + 64 * ok) st d
  (st, lpStore (ctxReq d b) a (List.replicate (64 * ok) 0) d)
where
  /-- The refusal is recorded (R290). -/
  noteRefused (u : Nat) (st : Option Status) (d : Die) : Die :=
    match st with
    | some s => regionRefused (ctxReq d b) u s d
    | none => d

/-- SWEEP_COMPLETE (R253, R255): a sweep that LEDGER_DONE RELEASE began ends in IDLE and completes every
RELEASE of the context; one that began an arming ends in ARMED. Waiting packets go on. A sweep waits for its
channels (R299, R302). -/
def dieSweepComplete (mc : Bool) (c : Nat) (d : Die) : Die :=
  let b := ctxBase mc c
  if 1536 ≤ c ∨ ctxState d b ≠ 1 ∨ !rodUnitOn d ∨
      !lpServes false (ctxRange d b) (accPerUnit (ctxOp d b) * ctxUnits d b) d then d
  else
    let (st, d) := sweepRange b d
    let d := d.put ⟨b + 12, 6, 6⟩ (bit st.isNone)
    let releases := (ledgerOps d 2).filter (fun o => decide (scCtx o = b))
    let d := if releases.isEmpty then
        let d := setCtxState b 2 d
        if st.isSome then ctxPoison3 b d else d
      else
        let d := if st.isSome then d.setFlag (b + 12) 4 else d
        releases.foldl (fun d o => finishOp o.id (st.getD .ok) d) (setCtxState b 0 d)
    let d := ctxWake b d
    if sweeping d mc then d else rapReplay mc d

/-! ## ACCUM_PUSH (R257, R258) -/

/-- Packets of an ACCUM_PUSH. -/
def pushPackets (o : LongOp) : Nat := ceilDiv (opField o.x 64 49) 64

/-- The lowest-numbered answer that is not `OK` (R258). -/
def worstOf (w : Option (Nat × Status)) (p : Nat) (st : Status) : Option (Nat × Status) :=
  if st = .ok then w
  else match w with
    | some (q, s) => if p < q then some (p, st) else some (q, s)
    | none => some (p, st)

/-- The payload and the bitmap bits of packet `p`, and whether all could be read (R258). -/
def pushRead (o : LongOp) (p : Nat) (d : Die) : Bytes × Nat × Bool × Die :=
  let op := bitsOf o.sval2.toNat 25 24
  let n := min 64 (opField o.x 64 49 - 64 * p)
  let (bs, lost, d) := spdRead 1 (512 * o.addr 31 15 + 4096 * p) (64 * n) d
  let nb := opBlocks op n
  let b0 := opBlocks op (64 * p)
  if nb = 0 then (bs, 0, lost.isEmpty, d)
  else
    let (aux, lost', d) := spdRead 1 (512 * o.addr 48 32 + b0 / 8) (ceilDiv nb 8) d
    (bs, leNat aux % 2 ^ nb, lost.isEmpty && lost'.isEmpty, d)

/-- The next packet of an op in progress: unreadable data is not sent and counts as `POISONED` (R258). -/
def pushOne (o : LongOp) (d : Die) : Die :=
  let p := o.sent
  let (bs, ovr, ok, d) := pushRead o p d
  if !ok then
    d.modOp o.id (fun o => { o with sent := p + 1, worst := worstOf o.worst p .poisoned })
  else
    let sid := o.sval2.toNat
    let op := bitsOf sid 25 24
    let (k, d) := pickHandle d
    let d := takeHandle k ⟨o.id, .rap p, 0, 0, d.rrc⟩ d
    let d := d.modOp o.id (fun o => { o with sent := p + 1, pend := o.pend + 1 })
    emit (.rap (packRap
      { target := o.sval.toNat + 64 * p * accPerUnit op, srcPkg := d.pkg.toNat,
        srcDie := d.logical.toNat, world := d.world, job := o.job.toNat, ctx := bitsOf sid 10 0,
        mc := bitOf sid 11, gen := bitsOf o.stamp 63 48, step := bitsOf o.stamp 47 0,
        attempt := bitsOf sid 49 42, rank := bitsOf sid 23 12, op := op,
        len := bs.length / 64 - 1, eb := bitsOf sid 33 26, lmaxe := bitsOf sid 41 34, ovr := ovr,
        handle := k }) bs) d

/-- One op sends packets while a handle is free, and completes when the last has been answered. -/
def pushGo (id : Nat) : (fuel : Nat) → Die → Die
  | 0, d => d
  | n + 1, d =>
    match d.op? id with
    | none => d
    | some o =>
      if pushPackets o ≤ o.sent then
        if o.pend = 0 then finishOp id (match o.worst with
          | some (_, st) => st
          | none => .ok) d
        else d
      else if 1024 ≤ d.sendsOut then d
      else pushGo id n (pushOne o d)

/-- Every ACCUM_PUSH in progress goes on, in the order of issue. -/
def redGo (d : Die) : Die :=
  (d.ops.filter (fun o => decide (o.opcode = 0x60))).foldl
    (fun d o => pushGo o.id (pushPackets o + 1) d) d

/-- The checks of ACCUM_PUSH, in order (R257). -/
def pushChk (t : ThreadId) (w : OpWord) (d : Die) (th : Thread) : Option Status :=
  let tgt := (th.sreg (opField w.x 9 5)).toNat
  let sid := (th.sreg (opField w.x 14 10)).toNat
  let off := (oregOff th w).toNat
  let op := bitsOf sid 25 24
  let n := opField w.x 64 49
  let aux := ceilDiv (opBlocks op n) 8
  let job := (d.threadJob t).toNat
  if bitsOf tgt 44 41 ≠ 0 ∨ 63 < bitsOf tgt 51 45 ∨ 2 ^ 35 ≤ bitsOf tgt 40 0 ∨ 2 ^ 50 ≤ sid ∨
      1536 ≤ bitsOf sid 10 0 then some .malformed
  else if (op = 1 ∧ n % 2 = 1) ∨ (!opTbi op ∧ opField w.x 48 32 ≠ 0) then some .malformed
  else if (0 < n ∧ spdBytes < 512 * (opField w.x 31 15 + off) + 64 * n) ∨
      (0 < aux ∧ spdBytes < 512 * (opField w.x 48 32 + off) + aux) then some .malformed
  else if !redActive d job then some .invalidState
  else if bitsOf sid 49 42 ≠ redAttempt d job then some .attemptStale
  else none

/-- ACCUM_PUSH (R257, R258): the job's generation and step are stamped at issue. -/
def dieAccumPush (t : ThreadId) (w : OpWord) (d : Die) : Die :=
  let j := (d.threadJob t).toNat
  issueLong 0x60 .red t w [(64, 0)] (pushChk t w)
    (fun th o => { o with phase := .running, sval := th.sreg (opField w.x 9 5),
                          sval2 := th.sreg (opField w.x 14 10),
                          stamp := redStep d j + redGen d j <<< 48 })
    (fun o d => pushGo o.id (ceilDiv (opField w.x 64 49) 64 + 1) d) d

/-! ## Answers (R208, R209, R258) -/

/-- The handle that an answer names, if it is in use for that `EPOCH` and `SEQ`. -/
def handleFor (d : Die) (b : Bead) : Option Handle :=
  match tabGet noHandle d.handles b.handle with
  | some h => if h.epoch.toNat = b.epoch ∧ h.seq.toNat = b.seq then some h else none
  | none => none

/-- A handle is free again: ACCUM_PUSH ops in progress go on, and ops that wait for one issue (R207). -/
def handleFreed (d : Die) : Die := settle (redGo d)

/-- A packet of an ACCUM_PUSH is answered. -/
def rapAnswered (h : Handle) (p : Nat) (st : Status) (d : Die) : Die :=
  handleFreed (d.modOp h.op (fun o => { o with pend := o.pend - 1, worst := worstOf o.worst p st }))

/-- A send that may have been of poisoned data ends well (R208, R219). -/
def goodSend (d : Die) (op : Nat) : Status :=
  match d.op? op with
  | some o => if o.mark then .poisoned else .ok
  | none => .ok

/-- DELIVERED (R208, R212, R213, R258). One that fails check 3 of R205 is refused; an answer that no handle
awaits is counted late. -/
def dieDelivered (h : BitVec 256) (d : Die) : Die :=
  arriving h (fun d =>
    let b := beadOf h
    if b.kind ≠ 5 ∨ b.csub ≠ 0 then d
    else if beadBad h then nakBead b .malformed d
    else match handleFor d b with
      | none => lateAnswer d
      | some hd =>
        let d := dropHandle b.handle d
        match hd.kind with
        | .rap p => rapAnswered hd p .ok d
        | .send _ _ => handleFreed (finishOp hd.op (goodSend d hd.op) d)
        | .lehr _ _ => handleFreed { d with lehrSent := d.lehrSent.erase (b.handle, b.seq) }
        | _ => handleFreed (finishOp hd.op .ok d)) d

/-- What a NAK does to the entry of a SEND (R208). -/
def nakEntry (e units : Nat) (h : Handle) (st : Status) (d : Die) : Die :=
  if ccEpoch d e ≠ h.epoch.toNat then d
  else match st with
    | .closed => ccClose e d
    | .staleEpoch => ccStale e d
    | _ => ccReturn e units d

/-- NAK (R204, R208, R258). One that fails check 3 of R205, a reserved status among them, is refused. -/
def dieNak (h : BitVec 256) (d : Die) : Die :=
  arriving h (fun d =>
    let b := beadOf h
    if b.kind ≠ 2 then d
    else match statusOf b.status with
    | none => nakBead b .malformed d
    | some st =>
      if beadBad h then nakBead b .malformed d
      else match handleFor d b with
        | none => lateAnswer d
        | some hd =>
          let d := dropHandle b.handle d
          match hd.kind with
          | .rap p => rapAnswered hd p st d
          | .send e units => handleFreed (finishOp hd.op st (nakEntry e units hd st d))
          | .openS n credit =>
            let g := grantedReg n.toNat
            handleFreed (finishOp hd.op st (d.setReg g (d.reg g - credit)))
          | .closeS => handleFreed (finishOp hd.op st d)
          | .lehr e units => handleFreed (nakEntry e units hd st d)) d

/-- ANSWER_TIMEOUT (R209): the answer limit of a handle in use expires. The entry of a SEND becomes
STALE while it still holds the SEND's epoch and is OPEN. -/
def dieAnswerTimeout (k : Nat) (d : Die) : Die :=
  match tabGet noHandle d.handles k with
  | none => d
  | some hd =>
    let d := ((dropHandle k d).setFlag 0x50008 2).event 0x50000
    match hd.kind with
    | .rap p => rapAnswered hd p .timeout d
    | .send e _ =>
      let d := if ccEpoch d e = hd.epoch.toNat ∧ ccState d e = 0 then ccStale e d else d
      handleFreed (finishOp hd.op .timeout d)
    | .lehr e _ => handleFreed (if ccEpoch d e = hd.epoch.toNat ∧ ccState d e = 0 then ccStale e d else d)
    | _ => handleFreed (finishOp hd.op .timeout d)

end Sys2Proof.Machine
end

