-- ==== Sys2Proof/Machine/Ledger.lean ====
section
/-! DEFINITION. Tallies and their collectors (R263 to R266), the step ledger (R267, R268), notices at a
die (R269, R274), LEDGER_DONE (R271), and the writes of the ledger, context and collector registers
that have a behaviour of their own (R251, R277, R278). -/

namespace Sys2Proof.Machine

/-! ## TALLY_ADD (R265) -/

/-- TALLY_ADD (R265): the op runs until its bead has left the die. -/
def dieTallyAdd (t : ThreadId) (w : OpWord) (d : Die) : Die :=
  let j := (d.threadJob t).toNat
  issueLong 0x61 .red t w [(41, 0)]
    (fun _ th =>
      if opField w.x 25 10 < 0x100 ∨ opField w.x 41 26 = 0 ∨ badWriter (th.sreg (opField w.x 9 5)) then
        some .malformed else none)
    (fun th o => { o with phase := .running, sval := th.sreg (opField w.x 9 5) })
    (fun o d =>
      let v := o.sval.toNat
      let b := tallyBead (bitsOf v 11 0) (bitsOf v 18 12) j (opField w.x 25 10) (opField w.x 41 26)
        (redAttempt d j) (redStep d j)
      emitTally o.id (packBead { b with srcPkg := d.pkg.toNat, srcDie := d.logical.toNat,
                                        world := d.world }) d) d

/-! ## Collectors (R266, R278) -/

/-- First register of a collector entry. -/
def colBase (c : Nat) : Nat := 0xA1000 + 32 * c

/-- The entry of a job and tally identifier. -/
def colFind (d : Die) (job id : Nat) : Option Nat :=
  (List.range 256).find? (fun c => d.flag (colBase c) 31 && decide (d.get ⟨colBase c, 3, 0⟩ = job) &&
    decide (d.get ⟨colBase c, 19, 4⟩ = id))

/-- A user tally at its collector entry (R266). -/
def collect (b : Bead) (d : Die) : Die :=
  match colFind d b.job b.seq with
  | none => d.count 0xA0004 1
  | some c =>
    let o := colBase c
    let step := d.reg48 (o + 0x14)
    let att := d.get ⟨o + 0x18, 23, 16⟩
    let k := (b.handle + 1024 - step % 1024) % 1024
    let add (d : Die) : Die := d.add48 (o + 4) b.epoch
    if k = 0 ∧ b.version = att then add d
    else if k = 0 ∧ att < b.version then
      add ((d.setReg48 (o + 4) (d.reg48 (o + 12))).put ⟨o + 0x18, 23, 16⟩ b.version)
    else if 1 ≤ k ∧ k ≤ 511 then
      let d := d.setReg48 (o + 12) (d.reg48 (o + 4))
      add ((d.setReg48 (o + 0x14) ((step + k) % 2 ^ 48)).put ⟨o + 0x18, 23, 16⟩ b.version)
    else d.count 0xA0008 1

/-- A tally bead is whole: its fixed fields and a count (R5, R205, R263). -/
def tallyOk (h : BitVec 256) : Bool :=
  let b := beadOf h
  isControl h 2 && !beadBad h && decide (b.srcRod = 0) && decide (b.tag = 0) && decide (b.credit = 0) &&
    decide (b.epoch ≠ 0)

/-- A tally that its die discards (R263, R267). -/
def staleTally (d : Die) : Die := d.count 0x92060 1

/-- COLLECTOR_TALLY (R266): identifiers 0x0100 to 0xFFFF. -/
def dieCollectorTally (h : BitVec 256) (d : Die) : Die :=
  arriving h (fun d =>
    let b := beadOf h
    if !tallyOk h then staleTally d
    else collect b d) d

/-! ## The ledger unit (R267, R268, R274, R277) -/

/-- `STATE`: 0 IDLE, 1 COLLECTING, 2 STOPPED. -/
def ldgState (d : Die) : Nat := d.get ⟨0x92004, 1, 0⟩
/-- `DEADLINE_RUN`. -/
def ldgRuns (d : Die) : Bool := d.flag 0x92004 2
/-- Current attempt. -/
def ldgAttempt (d : Die) : Nat := d.get ⟨0x92004, 15, 8⟩
/-- `JOB`. -/
def ldgJob (d : Die) : Nat := d.get ⟨0x92000, 4, 1⟩
/-- `REPEAT_LIMIT`. -/
def ldgLimit (d : Die) : Nat := d.get ⟨0x92000, 12, 5⟩
/-- N. -/
def ldgN (d : Die) : Nat := d.get ⟨0x92000, 20, 13⟩ + 1
/-- Step being collected. -/
def ldgStep (d : Die) : Nat := d.reg48 0x92008
/-- The count of tally identifier `i`. -/
def ldgCount (d : Die) (i : Nat) : Nat := d.reg (0x9203C + 4 * i)

/-- A decision of the ledger: 0 COMMIT, 1 REPEAT, 2 STOP, and its cause. -/
abbrev Decision := Nat × Nat

/-- The first row of R267 that holds, the deadline aside. -/
def ldgDecides (d : Die) : Option Decision :=
  let ctx := d.reg 0x92010
  let dies := d.reg 0x92014
  if 0 < ldgCount d 5 then some (2, Status.scaleOverrun.code)
  else if 0 < ldgCount d 7 then some (1, Status.poisoned.code)
  else if 0 < ldgCount d 4 then some (1, Status.genMismatch.code)
  else if 0 < ldgCount d 3 ∨ ctx < ldgCount d 1 ∨ dies < ldgCount d 6 then
    some (1, Status.poisoned.code)
  else if ldgCount d 1 = ctx ∧ ldgCount d 6 = dies then
    if 0 < ldgCount d 2 then some (1, Status.scaleOverrun.code) else some (0, 0)
  else none

/-- Clears the counts and stops the deadline. -/
def ldgClear (d : Die) : Die := (d.resetRegs 0x92040 0x9205C).put ⟨0x92004, 2, 2⟩ 0

/-- One notice to each valid notify entry (R268). -/
def ldgAnnounce (d : Die) : Die :=
  match d.ldgNotice with
  | none => d
  | some h =>
    (List.range 256).foldl (fun d k =>
      let v := d.reg (0x92100 + 4 * k)
      if bitOf v 31 then
        emitBead { beadOf h with dstPkg := bitsOf v 11 0, dstDie := bitsOf v 18 12,
                                 world := d.world } d
      else d) d

/-- A pending re-shard is adopted at the COMMIT of a window at or above its step (R274). -/
def ldgAdopt (step : Nat) (d : Die) : Die :=
  if d.flag 0x9202C 0 ∧ d.reg48 0x92020 ≤ step then
    let d := d.put ⟨0x9200C, 31, 16⟩ (d.get ⟨0x92024, 31, 16⟩)
    let d := (d.setReg 0x92010 (d.reg 0x92028)).setReg 0x92014 (d.get ⟨0x9202C, 18, 1⟩)
    d.put ⟨0x9202C, 0, 0⟩ 0
  else d

/-- The unit decides (R267, R268): a REPEAT past `REPEAT_LIMIT` is a STOP with the same cause. -/
def ldgDecide (dec : Decision) (d : Die) : Die :=
  let step := ldgStep d
  let att := ldgAttempt d
  let kind := if dec.1 = 1 ∧ ldgLimit d ≤ att then 2 else dec.1
  let notice := packBead { job := ldgJob d, kind := 5, csub := 3 + kind, seq := step % 2 ^ 16,
                           epoch := d.get ⟨0x9200C, 31, 16⟩, version := att, handle := dec.2 }
  let d := ldgClear d
  let d := if kind = 0 then
      let d := ldgAdopt step d
      (d.setReg48 0x92008 ((step + ldgN d) % 2 ^ 48)).put ⟨0x92004, 15, 8⟩ 0
    else
      let d := d.put ⟨0x92004, 23, 16⟩ dec.2
      if kind = 1 then d.put ⟨0x92004, 15, 8⟩ (att + 1) else d.put ⟨0x92004, 1, 0⟩ 2
  ldgAnnounce { d with ldgNotice := some notice }

/-- A system tally matches the pair being collected (R267). -/
def ldgMatches (d : Die) (b : Bead) : Bool :=
  decide (ldgState d = 1) && decide (1 ≤ b.seq) && decide (b.seq ≤ 7) && decide (b.epoch ≠ 0) &&
    decide (b.job = ldgJob d) && decide (b.handle = ldgStep d % 1024) &&
    decide (b.version = ldgAttempt d)

/-- LEDGER_TALLY (R263, R267): identifiers below 0x0100. -/
def dieLedgerTally (h : BitVec 256) (d : Die) : Die :=
  arriving h (fun d =>
    let b := beadOf h
    if !tallyOk h || !ldgMatches d b then staleTally d
    else
      let d := if ldgRuns d then d else { d.setFlag 0x92004 2 with ldgNotice := none }
      let d := d.count (0x9203C + 4 * b.seq) b.epoch
      match ldgDecides d with
      | some dec => ldgDecide dec d
      | none => d) d

/-- LEDGER_DEADLINE (R267): it stands still while the unit's job is paused (R420). -/
def dieLedgerDeadline (d : Die) : Die :=
  if rodUnitOn d && decide (ldgState d = 1) && ldgRuns d && !paused d (ldgJob d) then
    ldgDecide (1, Status.timeout.code) d
  else d

/-- NOTICE_RESEND (R268). -/
def dieNoticeResend (d : Die) : Die := if rodUnitOn d then ldgAnnounce d else d

/-- A write of `LDG_CTL` (R277): while `ENABLE` is 1 only one that clears it alone; writing 1 starts
COLLECTING at the configured step, attempt 0. -/
def ldgCtlWrite (mgmt : Bool) (v : Nat) (d : Die) : Die :=
  if !mgmt then d.invalidWrite 0x90000
  else if d.flag 0x92000 0 then
    if bitOf v 0 || decide (bitsOf v 20 1 ≠ d.get ⟨0x92000, 20, 1⟩) then d.invalidWrite 0x90000
    else
      let d := if bitsOf v 31 21 ≠ 0 then d.invalidWrite 0x90000 else d
      { (ldgClear (d.put ⟨0x92000, 0, 0⟩ 0)).put ⟨0x92004, 1, 0⟩ 0 with ldgNotice := none }
  else
    let zero := decide (bitsOf v 12 5 = 0)
    let d := if bitsOf v 31 21 ≠ 0 || zero then d.invalidWrite 0x90000 else d
    let d := if zero then d else d.put ⟨0x92000, 12, 5⟩ (bitsOf v 12 5)
    let d := (d.put ⟨0x92000, 4, 0⟩ (bitsOf v 4 0)).put ⟨0x92000, 20, 13⟩ (bitsOf v 20 13)
    if bitOf v 0 then
      { ((ldgClear d).put ⟨0x92004, 1, 0⟩ 1).put ⟨0x92004, 15, 8⟩ 0 with ldgNotice := none }
    else d

/-- LDG_ENABLE: a write of `LDG_CTL` with `ENABLE` 1 (R277). -/
def dieLdgEnable (mgmt : Bool) (v : Nat) (d : Die) : Die := ldgCtlWrite mgmt (putBits v 0 0 1) d

/-- LDG_DISABLE: a write of `LDG_CTL` with `ENABLE` 0 (R277). -/
def dieLdgDisable (mgmt : Bool) (v : Nat) (d : Die) : Die := ldgCtlWrite mgmt (putBits v 0 0 0) d

/-! ## Notices at a die (R269) -/

/-- A notice applies: its step bits and attempt are the job's (R269). -/
def noticeApplies (d : Die) (b : Bead) : Bool :=
  decide (b.seq = redStep d b.job % 2 ^ 16) && decide (b.version = redAttempt d b.job)

/-- The window that a job's current step reduces (R247, R269). -/
def redWindow (d : Die) (j : Nat) : Nat := (redStep d j + 1) / redN d j - 1

/-- s`SD` of LEDGER_DONE DONE (R271). -/
def doneWord (decision attempt cause : Nat) : Word64 :=
  BitVec.ofNat 64 (decision + attempt <<< 8 + cause <<< 16)

/-- The LEDGER_DONE ops of a job that wait for a decision complete (R269, R271). -/
def wakeDone (j : Nat) (d : Die) : Die :=
  let v := doneWord (d.get ⟨redBase j + 0x1C, 1, 0⟩) (redAttempt d j) (d.get ⟨redBase j + 0x1C, 15, 8⟩)
  ((ledgerOps d 0).filter (fun o => decide (o.job.toNat = j))).foldl (fun d o =>
    finishOp o.id .ok (d.modOp o.id (fun o =>
      { o with result := some (BitVec.ofNat 5 (opField o.x 11 7), v) }))) d

/-- Records the decision that a die applies (R269). -/
def recordDecision (j kind cause : Nat) (d : Die) : Die :=
  d.setReg (redBase j + 0x1C) (kind + cause <<< 8)

/-- The actions of an applied COMMIT, in order (R269, R274). -/
def applyCommit (j : Nat) (d : Die) : Die :=
  let o := redBase j
  let step := redStep d j
  let d := verCommit j (redWindow d j) d
  let d := if d.flag (o + 16) 24 ∧ d.reg48 (o + 20) ≤ step then
      (d.put ⟨o + 8, 15, 0⟩ (d.get ⟨o + 8, 31, 16⟩)).put ⟨o + 16, 24, 24⟩ 0
    else d
  let d := (d.setReg48 (o + 12) ((step + redN d j) % 2 ^ 48)).put ⟨o + 16, 23, 16⟩ 0
  wakeDone j (recordDecision j 0 0 d)

/-- The actions of an applied REPEAT, in order (R269). -/
def applyRepeat (j cause : Nat) (d : Die) : Die :=
  let d := verRepeat j (redWindow d j) d
  let d := d.put ⟨redBase j + 16, 23, 16⟩ (redAttempt d j + 1)
  wakeDone j (recordDecision j 1 cause d)

/-- The actions of an applied STOP (R269). -/
def applyStop (j cause : Nat) (d : Die) : Die :=
  ((wakeDone j (recordDecision j 2 cause d)).setFlag 0x90000 0).event 0x90000

/-- A notice is whole (R268). -/
def noticeOk (h : BitVec 256) (csub : Nat) : Bool :=
  let b := beadOf h
  isControl h csub && !beadBad h && decide (b.srcRod = 0) && decide (b.tag = 0) && decide (b.credit = 0) &&
    (statusOf b.handle).isSome && (decide (csub ≠ 3) || decide (b.handle = 0))

/-- A tally of the step ledger: identifiers below 0x0100 (R263). -/
def isLedgerTally (h : BitVec 256) : Bool := isControl h 2 && decide ((beadOf h).seq < 0x100)
/-- A tally of a collector: the other identifiers (R263, R266). -/
def isCollectorTally (h : BitVec 256) : Bool := isControl h 2 && decide (0x100 ≤ (beadOf h).seq)

/-- A notice at a die (R269): it is forwarded to `NEXT`, and applied if it is for the job's current
step and attempt. -/
def notice (csub : Nat) (apply : Bead → Die → Die) (h : BitVec 256) (d : Die) : Die :=
  arriving h (fun d =>
    let b := beadOf h
    if !noticeOk h csub then nakBead b .malformed d
    else
      let next := d.get ⟨redBase b.job, 15, 9⟩
      let d := if next = 127 then d
        else emitBead { b with dstPkg := d.pkg.toNat, dstDie := next, world := d.world } d
      if noticeApplies d b then apply b d else d.count 0x90004 1) d

/-- COMMIT (R269). -/
def dieCommitNotice (h : BitVec 256) (d : Die) : Die := notice 3 (fun b => applyCommit b.job) h d
/-- REPEAT (R269). -/
def dieRepeatNotice (h : BitVec 256) (d : Die) : Die :=
  notice 4 (fun b => applyRepeat b.job b.handle) h d
/-- STOP (R269). -/
def dieStopNotice (h : BitVec 256) (d : Die) : Die :=
  notice 5 (fun b => applyStop b.job b.handle) h d

/-! ## LEDGER_DONE (R271) -/

/-- RELEASE may sweep the context (R255): COMPLETE, or any state with `POISON` set. -/
def mayRelease (d : Die) (b : Nat) : Bool := decide (ctxState d b = 3) || ctxPoison d b

/-- LEDGER_DONE in any `MODE` (R271). -/
def dieLedgerDone (t : ThreadId) (w : OpWord) (d : Die) : Die :=
  let mode := opField w.x 6 5
  let j := (d.threadJob t).toNat
  issueLong 0x62 .red t w [(41, 0)]
    (fun d th =>
      let sc := (th.sreg (opField w.x 16 12)).toNat
      let ss := (th.sreg (opField w.x 41 37)).toNat
      match mode with
      | 0 => if 256 ≤ sc then some .malformed
        else if redAttempt d j < sc then some .invalidState else none
      | 1 => if 2 ^ 20 ≤ sc ∨ 1536 ≤ bitsOf sc 10 0 ∨ 2 ^ 48 ≤ ss then some .malformed
        else if pairLt (redStep d j) (redAttempt d j) ss (bitsOf sc 19 12) then some .invalidState
        else none
      | 2 => if 1536 ≤ bitsOf sc 10 0 then some .malformed
        else if mayRelease d (ctxBase (bitOf sc 11) (bitsOf sc 10 0)) then none
        else some .invalidState
      | _ => some .malformed)
    (fun th o => { o with phase := .running, sval := th.sreg (opField w.x 16 12),
                          sval2 := th.sreg (opField w.x 41 37) })
    (fun o d =>
      match mode with
      | 0 =>
        if o.sval.toNat = redAttempt d j then ledgerSend j 6 (redAttempt d j) (redStep d j) d
        else finishOp o.id .ok (d.modOp o.id (fun o =>
          { o with result := some (BitVec.ofNat 5 (opField o.x 11 7),
              doneWord 1 (redAttempt d j) (d.get ⟨redBase j + 0x1C, 15, 8⟩)) }))
      | 1 => waitctxTry o d
      | _ => ctxWake (scCtx o) (setCtxState (scCtx o) 1 d)) d

/-- LEDGER_DONE DONE. -/
def dieLedgerDoneDone (t : ThreadId) (w : OpWord) (d : Die) : Die :=
  dieLedgerDone t (withMode 6 5 w 0) d
/-- LEDGER_DONE WAITCTX. -/
def dieLedgerDoneWaitctx (t : ThreadId) (w : OpWord) (d : Die) : Die :=
  dieLedgerDone t (withMode 6 5 w 1) d
/-- LEDGER_DONE RELEASE. -/
def dieLedgerDoneRelease (t : ThreadId) (w : OpWord) (d : Die) : Die :=
  dieLedgerDone t (withMode 6 5 w 2) d

/-- The `TIMEOUT` of a LEDGER_DONE that waits for a decision or for a context expires (R271); it does
not count while the job is paused (R420). -/
def dieLedgerDoneTimeout (id : Nat) (d : Die) : Die :=
  match d.op? id with
  | none => d
  | some o =>
    if o.opcode = 0x62 ∧ o.phase = .running ∧ opField o.x 6 5 ≤ 1 ∧ opField o.x 36 17 ≠ 0 ∧
        !paused d o.job.toNat then finishOp id .timeout d
    else d

/-! ## Register writes with a behaviour of their own -/

/-- The range of a context lies in memory that its controller serves (R251, R280). -/
def ctxServed (mc : Bool) (base units op : Nat) : Bool :=
  let lo := 64 * base
  let n := accPerUnit op * units
  let home := if mc then 2 ^ 34 else 0
  decide (n = 0) || (decide (home ≤ lo) && decide (lo + n ≤ home + 15 * 2 ^ 30))

/-- CONTEXT_CONFIG: a write of word 0, 1 or 2 of a context (R251, R276, R388). An accepted write other
than a pure disable configures the context again: its state words start over (log 17). Word 3 is RO. -/
def dieContextConfig (mgmt : Bool) (mc : Bool) (c word v : Nat) (d : Die) : Die :=
  let b := ctxBase mc c
  let bad := d.invalidWrite (if mc then 0x80000 else 0x70000)
  if 1536 ≤ c ∨ 3 ≤ word then d
  else if !mgmt then bad
  else
    let old := d.reg b
    let resv := match word with
      | 0 => decide (bitsOf v 15 11 ≠ 0)
      | 1 => decide (bitsOf v 31 29 ≠ 0)
      | _ => false
    let new := if word = 0 then putBits v 15 11 0 else if word = 1 then v % 2 ^ 29 else v
    let cfg := if word = 0 then new else old
    let base := if word = 1 then new else d.reg (b + 4)
    let size := if word = 2 then new else d.reg (b + 8)
    let units := bitsOf size 19 0
    if ctxEnable d b then
      if word = 0 ∧ new + 1 = old then
        ctxWake b ((if resv then bad else d).setReg b new)
      else bad
    else if (bitOf cfg 1 && !d.world) || !ctxServed mc base units (bitsOf cfg 7 6) ||
        (bitOf cfg 0 && decide (units = 0)) then bad
    else
      let d := ((if resv then bad else d).setReg (b + 4 * word) new).resetRegs (b + 12) (b + 32)
      let d := { d with ctxTold := tabSet (fun _ => false) d.ctxTold (ctxKey b) false }
      if sweeping d mc then d else rapReplay mc d

/-- COLLECTOR_ENABLE: a write of word 0 of a collector entry (R278). A reserved identifier keeps the
old one (R5); setting `VALID` zeroes the entry's `VALUE`, `BASE` and pair. -/
def dieCollectorEnable (mgmt : Bool) (c v : Nat) (d : Die) : Die :=
  let o := colBase c
  if !mgmt then d.invalidWrite 0xA0000
  else
    let badId := decide (bitsOf v 19 4 < 0x100)
    let d := if bitsOf v 30 20 ≠ 0 || badId then d.invalidWrite 0xA0000 else d
    let d := if badId then d else d.put ⟨o, 19, 4⟩ (bitsOf v 19 4)
    let d := (d.put ⟨o, 3, 0⟩ (bitsOf v 3 0)).put ⟨o, 31, 31⟩ (bitsOf v 31 31)
    if bitOf v 31 then d.resetRegs (o + 4) (o + 28) else d

/-! ## Partition reset (R272) -/

/-- The contexts, the ops of the reduction engine and the ledger unit under a partition reset that
includes the die. A COLLECTING unit then decides REPEAT, and packets that waited are checked again. -/
def redReset (d : Die) : Die :=
  let clear (mc : Bool) (d : Die) : Die := (List.range 1536).foldl (fun d c =>
    let b := ctxBase mc c
    if d.reg (b + 12) = 0 ∧ d.reg (b + 24) = 0 ∧ d.reg (b + 28) = 0 then d
    else
      let a := ctxAttempt d b
      ((d.setReg (b + 12) (a <<< 24)).setReg (b + 24) 0).setReg (b + 28) 0) d
  let d := { clear true (clear false d) with ctxTold := [] }
  let collecting := decide (ldgState d = 1)
  let d := ldgClear d
  let d := if collecting then ldgDecide (1, Status.poisoned.code) d else d
  rapReplay true (rapReplay false d)

end Sys2Proof.Machine
end

