-- ==== Sys2Proof/Machine/Num.lean ====
section
/-! DEFINITION. The number formats of 05_arithmetic.md: encodings, exact values, one rounding, and
the operations of the vector unit over exact values. -/

namespace Sys2Proof.Machine

/-- An exact value: a NaN (signalling or not, R122), an infinity, or (−1)^neg × m × 2^e. -/
inductive Num where
  | nan (signalling : Bool)
  | inf (neg : Bool)
  | fin (neg : Bool) (m : Nat) (e : Int)
  deriving DecidableEq, Repr

/-- What kind of codes a format reserves (R121). -/
inductive FKind where
  | ieee | e4m3 | finite
  deriving DecidableEq, Repr

/-- A floating-point encoding of R121: exponent bits, mantissa bits, bias. -/
structure FFmt where
  eb : Nat
  mb : Nat
  bias : Int
  kind : FKind
  deriving DecidableEq, Repr

def fmtB64 : FFmt := ⟨11, 52, 1023, .ieee⟩
def fmtB32 : FFmt := ⟨8, 23, 127, .ieee⟩
def fmtBF16 : FFmt := ⟨8, 7, 127, .ieee⟩
def fmtFP16 : FFmt := ⟨5, 10, 15, .ieee⟩
def fmtE5M2 : FFmt := ⟨5, 2, 15, .ieee⟩
def fmtE4M3 : FFmt := ⟨4, 3, 7, .e4m3⟩
def fmtE3M2 : FFmt := ⟨3, 2, 3, .finite⟩
def fmtE2M3 : FFmt := ⟨2, 3, 1, .finite⟩
def fmtE2M1 : FFmt := ⟨2, 1, 1, .finite⟩

/-- The exceptions of R129 and R132 that one operation raises. -/
structure Fl where
  inv : Bool := false
  dz : Bool := false
  ov : Bool := false
  uf : Bool := false
  ix : Bool := false
  deriving DecidableEq, Repr

/-- Flags of two operations together. -/
def flOr (a b : Fl) : Fl := ⟨a.inv || b.inv, a.dz || b.dz, a.ov || b.ov, a.uf || b.uf, a.ix || b.ix⟩

/-- No exception. -/
def fl0 : Fl := {}
/-- The invalid operation alone. -/
def flInv : Fl := { inv := true }

/-- A rounding direction of R131; STOCH carries its draw (R135). -/
inductive Rnd where
  | rne | rtz | rup | rdn
  | stoch (draw : BitVec 32)
  deriving DecidableEq, Repr

/-- The direction that a code of `RND` names (R131); STOCH is read apart, and 0x5 to 0x7 are
reserved. -/
def rndOf (c : Nat) : Option Rnd :=
  match c with
  | 0 => some .rne
  | 1 => some .rtz
  | 2 => some .rup
  | 3 => some .rdn
  | _ => none

/-- The sign bit position of a format. -/
def FFmt.signPos (f : FFmt) : Nat := f.eb + f.mb

/-- The exponent of a subnormal's unit in the last place. -/
def FFmt.emin (f : FFmt) : Int := 1 - f.bias - (f.mb : Int)

/-- The value of an encoding (R121, R122). -/
def decodeF (f : FFmt) (c : Nat) : Num :=
  let s := bitOf c f.signPos
  let e := bitsOf c (f.eb + f.mb - 1) f.mb
  let m := c % 2 ^ f.mb
  let ones := e == 2 ^ f.eb - 1
  if f.kind = .ieee ∧ ones then
    if m = 0 then .inf s else .nan (decide (7 ≤ f.mb) && !bitOf c (f.mb - 1))
  else if f.kind = .e4m3 ∧ ones ∧ m = 2 ^ f.mb - 1 then .nan false
  else if e = 0 then .fin s m f.emin
  else .fin s (2 ^ f.mb + m) ((e : Int) - f.bias - (f.mb : Int))

/-- The canonical NaN of R122 (a format without NaN writes +0, R134). -/
def canonNan (f : FFmt) : Nat :=
  match f.kind with
  | .ieee =>
    if f.mb = 2 then 0x7F else (2 ^ f.eb - 1) <<< f.mb + 2 ^ (f.mb - 1)
  | .e4m3 => 0x7F
  | .finite => 0

/-- The encoding of an infinity where the format has one. -/
def infCode (f : FFmt) (neg : Bool) : Nat := bit neg <<< f.signPos + (2 ^ f.eb - 1) <<< f.mb

/-- The largest finite magnitude as significand and exponent (R121). -/
def maxFinite (f : FFmt) : Nat × Int :=
  let top : Int := match f.kind with
    | .ieee => (2 ^ f.eb : Nat) - 2
    | _ => (2 ^ f.eb : Nat) - 1
  let m := match f.kind with
    | .e4m3 => 2 ^ (f.mb + 1) - 2
    | _ => 2 ^ (f.mb + 1) - 1
  (m, top - f.bias - (f.mb : Int))

/-- The encoding of the largest finite magnitude. -/
def maxCode (f : FFmt) (neg : Bool) : Nat :=
  let body := match f.kind with
    | .ieee => (2 ^ f.eb - 2) <<< f.mb + (2 ^ f.mb - 1)
    | .e4m3 => 0x7E
    | .finite => 2 ^ (f.eb + f.mb) - 1
  bit neg <<< f.signPos + body

/-- `a·2^ea` compared with `b·2^eb`, both non-negative. -/
def cmpMag (a : Nat) (ea : Int) (b : Nat) (eb : Int) : Ordering :=
  if ea ≤ eb then compare a (b <<< (eb - ea).toNat) else compare (a <<< (ea - eb).toNat) b

/-- What rounding a magnitude to a grid delivers: significand, exponent of its unit, and whether
the value changed. -/
structure Rd where
  q : Nat
  l : Int
  ix : Bool
  deriving DecidableEq, Repr

/-- Rounds a magnitude `m·2^e` (plus something below its last place if `sticky`) to multiples of
`2^l` in a direction (R131, R135). -/
def roundAt (r : Rnd) (neg : Bool) (m : Nat) (e l : Int) (sticky : Bool) : Rd :=
  if l ≤ e then
    let q := m <<< (e - l).toNat
    let up := sticky && (match r with
      | .rup => !neg
      | .rdn => neg
      | _ => false)
    ⟨if up then q + 1 else q, l, sticky⟩
  else
    let sh := (l - e).toNat
    let q := m >>> sh
    let rem := m % 2 ^ sh
    let half := 2 ^ (sh - 1)
    let ix := decide (rem ≠ 0) || sticky
    let up := match r with
      | .rne => decide (half < rem) || (decide (rem = half) && (sticky || decide (q % 2 = 1)))
      | .rtz => false
      | .rup => ix && !neg
      | .rdn => ix && neg
      | .stoch d => decide (2 ^ 32 ≤ (rem <<< 32) >>> sh + d.toNat)
    ⟨if up then q + 1 else q, l, ix⟩

/-- The grid of a magnitude for `mb` mantissa bits, with an unbounded exponent range. -/
def gridOf (mb m : Nat) (e : Int) : Int := (Nat.log2 m : Int) + e - (mb : Int)

/-- What a finite overflow delivers (R134): `max` under SAT or a direction toward zero. -/
def towardZero (r : Rnd) (neg : Bool) : Bool :=
  match r with
  | .rtz => true
  | .rup => neg
  | .rdn => !neg
  | _ => false

/-- The encoding of a rounded magnitude that does not overflow. -/
def encodeMag (f : FFmt) (neg : Bool) (q : Nat) (l : Int) : Nat :=
  let (q, l) := if q = 2 ^ (f.mb + 1) then (2 ^ f.mb, l + 1) else (q, l)
  let body :=
    if q < 2 ^ f.mb then q
    else ((l + (f.mb : Int) + f.bias).toNat) <<< f.mb + (q - 2 ^ f.mb)
  bit neg <<< f.signPos + body

/-- Rounds an exact finite magnitude to a format: the code and the flags (R129, R134, R135).
`sat` is the SAT bit of R134. -/
def packFin (f : FFmt) (r : Rnd) (sat neg : Bool) (m : Nat) (e : Int) (sticky : Bool) : Nat × Fl :=
  if m = 0 then (bit neg <<< f.signPos, fl0)
  else
    let gu := gridOf f.mb m e
    let g := if gu < f.emin then f.emin else gu
    let rd := roundAt r neg m e g sticky
    let mx := maxFinite f
    let ovf := cmpMag rd.q rd.l mx.1 mx.2 == .gt
    let tiny := match r with
      | .stoch _ => cmpMag rd.q rd.l (2 ^ f.mb) f.emin == .lt
      | _ =>
        let ru := roundAt r neg m e gu sticky
        cmpMag ru.q ru.l (2 ^ f.mb) f.emin == .lt
    if ovf then
      let code := match f.kind with
        | .finite => maxCode f neg
        | .ieee => if sat || towardZero r neg then maxCode f neg else infCode f neg
        | .e4m3 => if sat || towardZero r neg then maxCode f neg else 0x7F
      (code, { ov := true, ix := true })
    else (encodeMag f neg rd.q rd.l, { uf := tiny && rd.ix, ix := rd.ix })

/-- Rounds an exact value to a floating-point format (R134). -/
def packF (f : FFmt) (r : Rnd) (sat : Bool) (x : Num) (sticky : Bool) : Nat × Fl :=
  match x with
  | .nan sg => (canonNan f, { inv := sg || decide (f.kind = .finite) })
  | .inf neg =>
    match f.kind with
    | .ieee => (infCode f neg, fl0)
    | .e4m3 => (0x7F, flInv)
    | .finite => (maxCode f neg, flInv)
  | .fin neg m e => packFin f r sat neg m e sticky

/-- A magnitude rounded to an integer in a direction, and whether the value changed. -/
def roundInt (r : Rnd) (neg : Bool) (m : Nat) (e : Int) : Nat × Bool :=
  let rd := roundAt r neg m e 0 false
  (rd.q, rd.ix)

/-- Rounds an exact value to an `n`-bit two's-complement integer (R134, the INT rows). -/
def packInt (n : Nat) (r : Rnd) (x : Num) : Nat × Fl :=
  let hi := 2 ^ (n - 1) - 1
  let lo := 2 ^ (n - 1)
  match x with
  | .nan _ => (0, flInv)
  | .inf neg => (if neg then lo else hi, flInv)
  | .fin neg m e =>
    let (q, ix) := roundInt r neg m e
    if neg then
      if lo < q then (lo, { inv := true, ix := true }) else ((2 ^ n - q) % 2 ^ n, { ix := ix })
    else if hi < q then (hi, { inv := true, ix := true }) else (q, { ix := ix })

/-- The value of an `n`-bit two's-complement integer scaled by `2^e`. -/
def intNum (n c : Nat) (e : Int) : Num :=
  let i := signedOf n c
  .fin (decide (i < 0)) i.natAbs e

/-- The exact value of a number times a power of two. -/
def scaleNum (x : Num) (k : Int) : Num :=
  match x with
  | .fin s m e => .fin s m (e + k)
  | y => y

/-! ## Exact operations -/

/-- An exact result before its rounding: a value, whether something lies below its last place, and
the flags that the operation itself raises. -/
structure Ex where
  x : Num
  sticky : Bool := false
  fl : Fl := {}
  deriving DecidableEq, Repr

/-- A signalling NaN operand. -/
def isSig (x : Num) : Bool :=
  match x with
  | .nan s => s
  | _ => false

/-- Any NaN. -/
def isNan (x : Num) : Bool :=
  match x with
  | .nan _ => true
  | _ => false

/-- A zero of either sign. -/
def isZero (x : Num) : Bool :=
  match x with
  | .fin _ 0 _ => true
  | _ => false

/-- The sign of a value; a NaN has none. -/
def isNeg (x : Num) : Bool :=
  match x with
  | .nan _ => false
  | .inf n => n
  | .fin n _ _ => n

/-- The value with its sign flipped. -/
def negNum (x : Num) : Num :=
  match x with
  | .nan s => .nan s
  | .inf n => .inf (!n)
  | .fin n m e => .fin (!n) m e

/-- The magnitude. -/
def absNum (x : Num) : Num :=
  match x with
  | .nan s => .nan s
  | .inf _ => .inf false
  | .fin _ m e => .fin false m e

/-- A signed significand. -/
def sigInt (neg : Bool) (m : Nat) : Int := if neg then -(m : Int) else (m : Int)

/-- The exact sum of two finite values as a signed significand and an exponent. -/
def addFin (s1 : Int) (e1 : Int) (s2 : Int) (e2 : Int) : Int × Int :=
  if e1 ≤ e2 then (s1 + s2 * (2 : Int) ^ (e2 - e1).toNat, e1)
  else (s1 * (2 : Int) ^ (e1 - e2).toNat + s2, e2)

/-- IEEE 754-2019 addition, exact, with the zero sign of the direction. -/
def exAdd (r : Rnd) (a b : Num) : Ex :=
  match a, b with
  | .nan p, y => ⟨.nan false, false, { inv := p || isSig y }⟩
  | x, .nan q => ⟨.nan false, false, { inv := q || isSig x }⟩
  | .inf p, .inf q => if p = q then ⟨.inf p, false, fl0⟩ else ⟨.nan false, false, flInv⟩
  | .inf p, _ => ⟨.inf p, false, fl0⟩
  | _, .inf q => ⟨.inf q, false, fl0⟩
  | .fin p m e, .fin q n f =>
    if m = 0 ∧ n = 0 then ⟨.fin (if p = q then p else decide (r = .rdn)) 0 0, false, fl0⟩
    else
      let (s, g) := addFin (sigInt p m) e (sigInt q n) f
      if s = 0 then ⟨.fin (decide (r = .rdn)) 0 0, false, fl0⟩
      else ⟨.fin (decide (s < 0)) s.natAbs g, false, fl0⟩

/-- IEEE 754-2019 multiplication, exact. -/
def exMul (a b : Num) : Ex :=
  match a, b with
  | .nan p, y => ⟨.nan false, false, { inv := p || isSig y }⟩
  | x, .nan q => ⟨.nan false, false, { inv := q || isSig x }⟩
  | .inf p, y =>
    if isZero y then ⟨.nan false, false, flInv⟩ else ⟨.inf (p != isNeg y), false, fl0⟩
  | x, .inf q =>
    if isZero x then ⟨.nan false, false, flInv⟩ else ⟨.inf (isNeg x != q), false, fl0⟩
  | .fin p m e, .fin q n f => ⟨.fin (p != q) (m * n) (e + f), false, fl0⟩

/-- IEEE 754-2019 fused multiply-add, exact. Whether 0 × Inf + quiet NaN raises INVALID is left
open by IEEE 754-2019 and by R129: `Config.fmaInvalid` (log 2). -/
def exFma (r : Rnd) (a b c : Num) : Ex :=
  let p := exMul a b
  if isNan c ∧ p.fl.inv ∧ !isNan a ∧ !isNan b then
    ⟨.nan false, false, { inv := isSig c || Config.fmaInvalid }⟩
  else
    let s := exAdd r p.x c
    { s with fl := flOr p.fl s.fl }

/-- IEEE 754-2019 division: 200 bits of quotient and whether anything is left. -/
def exDiv (a b : Num) : Ex :=
  match a, b with
  | .nan p, y => ⟨.nan false, false, { inv := p || isSig y }⟩
  | x, .nan q => ⟨.nan false, false, { inv := q || isSig x }⟩
  | .inf _, .inf _ => ⟨.nan false, false, flInv⟩
  | .inf p, y => ⟨.inf (p != isNeg y), false, fl0⟩
  | x, .inf q => ⟨.fin (isNeg x != q) 0 0, false, fl0⟩
  | .fin p m e, .fin q n f =>
    if n = 0 then
      if m = 0 then ⟨.nan false, false, flInv⟩ else ⟨.inf (p != q), false, { dz := true }⟩
    else
      let k := m <<< 200
      ⟨.fin (p != q) (k / n) (e - f - 200), decide (k % n ≠ 0), fl0⟩

/-- IEEE 754-2019 square root: at least 100 bits of root and whether anything is left. -/
def exSqrt (a : Num) : Ex :=
  match a with
  | .nan p => ⟨.nan false, false, { inv := p }⟩
  | .inf p => if p then ⟨.nan false, false, flInv⟩ else ⟨.inf false, false, fl0⟩
  | .fin p m e =>
    if m = 0 then ⟨.fin p 0 0, false, fl0⟩
    else if p then ⟨.nan false, false, flInv⟩
    else
      let (m, e) := if e % 2 = 0 then (m, e) else (2 * m, e - 1)
      let k := m <<< 200
      let q := isqrt k
      ⟨.fin false q (e / 2 - 100), decide (q * q ≠ k), fl0⟩

/-- Reciprocal (R130). -/
def exRcp (a : Num) : Ex :=
  match a with
  | .nan p => ⟨.nan false, false, { inv := p }⟩
  | .inf p => ⟨.fin p 0 0, false, fl0⟩
  | .fin p m e =>
    if m = 0 then ⟨.inf p, false, { dz := true }⟩
    else
      let k := 2 ^ 200
      ⟨.fin p (k / m) (-e - 200), decide (k % m ≠ 0), fl0⟩

/-- Reciprocal square root (R130). -/
def exRsqrt (a : Num) : Ex :=
  match a with
  | .nan p => ⟨.nan false, false, { inv := p }⟩
  | .inf p => if p then ⟨.nan false, false, flInv⟩ else ⟨.fin false 0 0, false, fl0⟩
  | .fin p m e =>
    if m = 0 then ⟨.inf p, false, { dz := true }⟩
    else if p then ⟨.nan false, false, flInv⟩
    else
      let (m, e) := if e % 2 = 0 then (m, e) else (2 * m, e - 1)
      let k := 2 ^ 400
      let q := isqrt (k / m)
      ⟨.fin false q (-(e / 2) - 200), decide (q * q * m ≠ k), fl0⟩

/-- `2^(f / 2^k)` in 256-bit fixed point, for `f < 2^k`: the product of the iterated square roots of
2 that the bits of `f` select, from the top bit down. -/
def exp2Frac : (k f root acc : Nat) → Nat
  | 0, _, _, acc => acc
  | k + 1, f, root, acc =>
    let root' := isqrt (root <<< 256)
    exp2Frac k f root' (if bitOf f k then (acc * root') >>> 256 else acc)

/-- exp2 (R130). 2^x of a dyadic x that is no integer is irrational, so its bits below 256 are
known to be neither all zero nor all one at the rounding of 24 bits (log 13). -/
def exExp2 (a : Num) : Ex :=
  match a with
  | .nan p => ⟨.nan false, false, { inv := p }⟩
  | .inf p => if p then ⟨.fin false 0 0, false, fl0⟩ else ⟨.inf false, false, fl0⟩
  | .fin p m e =>
    if m = 0 then ⟨.fin false 1 0, false, fl0⟩
    else if (Nat.log2 m : Int) + e < -26 then
      -- |x| < 2^-26: the result lies next to 1, above or below it
      if p then ⟨.fin false (2 ^ 200 - 1) (-200), true, fl0⟩
      else ⟨.fin false (2 ^ 200) (-200), true, fl0⟩
    else if 9 < (Nat.log2 m : Int) + e then
      if p then ⟨.fin false (2 ^ 200) (-800), true, fl0⟩ else ⟨.fin false (2 ^ 200) 400, true, fl0⟩
    else
      let k := (-e).toNat
      let s := sigInt p (if 0 ≤ e then m <<< e.toNat else m)
      let n := s / ((2 ^ k : Nat) : Int)
      let f := (s % ((2 ^ k : Nat) : Int)).toNat
      if f = 0 then ⟨.fin false 1 n, false, fl0⟩
      else ⟨.fin false (exp2Frac k f (2 ^ 257) (2 ^ 256)) (n - 256), true, fl0⟩

/-- `n` bits of the binary logarithm of `y / 2^512`, `1 ≤ y / 2^512 < 2`, by squaring. -/
def log2Frac : (n y acc : Nat) → Nat
  | 0, _, acc => acc
  | n + 1, y, acc =>
    let z := (y * y) >>> 512
    if 2 ^ 513 ≤ z then log2Frac n (z >>> 1) (2 * acc + 1) else log2Frac n z (2 * acc)

/-- log2 (R130): the exponent where the operand is a power of two, else 128 bits of fraction of an
irrational number (log 13). -/
def exLog2 (a : Num) : Ex :=
  match a with
  | .nan p => ⟨.nan false, false, { inv := p }⟩
  | .inf p => if p then ⟨.nan false, false, flInv⟩ else ⟨.inf false, false, fl0⟩
  | .fin p m e =>
    if m = 0 then ⟨.inf true, false, { dz := true }⟩
    else if p then ⟨.nan false, false, flInv⟩
    else
      let b := Nat.log2 m
      let x : Int := (b : Int) + e
      if m = 2 ^ b then ⟨.fin (decide (x < 0)) x.natAbs 0, false, fl0⟩
      else
        let f := log2Frac 128 ((m <<< 512) >>> b) 0
        let v : Int := x * ((2 ^ 128 : Nat) : Int) + (f : Int)
        if 0 ≤ v then ⟨.fin false v.natAbs (-128), true, fl0⟩
        else ⟨.fin true (v.natAbs - 1) (-128), true, fl0⟩

/-! ## Comparison, minimum and maximum -/

/-- The order of two values that are not NaN; zeros compare equal. -/
def cmpNum (a b : Num) : Ordering :=
  match a, b with
  | .inf p, .inf q => if p = q then .eq else if p then .lt else .gt
  | .inf p, _ => if p then .lt else .gt
  | _, .inf q => if q then .gt else .lt
  | .fin p m e, .fin q n f =>
    if m = 0 ∧ n = 0 then .eq
    else if m = 0 then (if q then .gt else .lt)
    else if n = 0 then (if p then .lt else .gt)
    else if p != q then (if p then .lt else .gt)
    else if p then cmpMag n f m e else cmpMag m e n f
  | _, _ => .eq

/-- The smaller of two values that are not NaN, −0 below +0. -/
def minNum (a b : Num) : Num :=
  match cmpNum a b with
  | .lt => a
  | .gt => b
  | .eq => if isNeg a then a else b

/-- The larger of two values that are not NaN, −0 below +0. -/
def maxNum (a b : Num) : Num :=
  match cmpNum a b with
  | .lt => b
  | .gt => a
  | .eq => if isNeg a then b else a

/-- IEEE 754-2019 minimum and maximum: a NaN operand gives a NaN. -/
def exMinMax (mx : Bool) (a b : Num) : Ex :=
  if isNan a || isNan b then ⟨.nan false, false, { inv := isSig a || isSig b }⟩
  else ⟨if mx then maxNum a b else minNum a b, false, fl0⟩

/-- IEEE 754-2019 minimumNumber and maximumNumber: a NaN operand loses against a number. -/
def exMinMaxNumber (mx : Bool) (a b : Num) : Ex :=
  let fl : Fl := { inv := isSig a || isSig b }
  if isNan a then ⟨if isNan b then .nan false else b, false, fl⟩
  else if isNan b then ⟨a, false, fl⟩
  else ⟨if mx then maxNum a b else minNum a b, false, fl⟩

/-- A compare of VCMP (R186): EQ, LT, LE, UNORDERED, NE, and whether INVALID is raised. -/
def cmpCond (cond : Nat) (signalling : Bool) (a b : Num) : Bool × Fl :=
  if isNan a || isNan b then
    (cond == 3 || cond == 4, { inv := isSig a || isSig b || signalling })
  else
    let o := cmpNum a b
    (match cond with
      | 0 => o == .eq
      | 1 => o == .lt
      | 2 => o != .gt
      | 4 => o != .eq
      | _ => false, fl0)

/-- An exact result rounded to a binary format (R129). -/
def packEx (f : FFmt) (r : Rnd) (y : Ex) : Nat × Fl :=
  let (c, fl) := packF f r false y.x y.sticky
  (c, flOr y.fl fl)

end Sys2Proof.Machine
end

