-- ==== Sys2Proof/Machine/Flags.lean ====
section
/-! DEFINITION. The flag computations: the vector unit's sticky set (R132, R151) and the array's
flags per physical tile (R97, R120). -/

namespace Sys2Proof.Machine

/-- Bits of `VEC_FLAGS` that an operation's exceptions set. -/
def flBits (f : Fl) : Nat :=
  bit f.inv + bit f.dz <<< 1 + bit f.ov <<< 2 + bit f.uf <<< 3 + bit f.ix <<< 4

/-- Raises exceptions into `VEC_FLAGS`, where each stays set until cleared by a write (R132). -/
def raiseVec (f : Fl) (d : Die) : Die := d.setReg 0x40000 (d.reg 0x40000 ||| flBits f)

/-- Raises `ZERO_STATE` (R146, R108). -/
def raiseZeroState (d : Die) : Die := d.setFlag 0x40000 5

/-- Raises exceptions into the flags of a physical tile (R97): `INVALID`, `OVERFLOW`, `INEXACT`. -/
def raiseTile (tile : Nat) (f : Fl) (d : Die) : Die :=
  let d := if f.inv then d.setFlag 0x10008 tile else d
  let d := if f.ov then d.setFlag 0x1000C tile else d
  if f.ix then d.setFlag 0x10010 tile else d

/-- Sets `POISON` of a tile (R99). -/
def poisonTile (d : Die) (tile : Nat) : Die := d.setFlag 0x10014 tile

/-- Clears every flag of a tile (R115, R117). -/
def clearTile (d : Die) (tile : Nat) : Die :=
  [0x10008, 0x1000C, 0x10010, 0x10014].foldl (fun d o => d.put ⟨o, tile, tile⟩ 0) d

/-- Sets or clears the integer mark of a tile (R98). -/
def markTile (int : Bool) (d : Die) (tile : Nat) : Die := d.put ⟨0x10018, tile, tile⟩ (bit int)

/-- The integer mark of a tile. -/
def tileInt (d : Die) (tile : Nat) : Bool := d.flag 0x10018 tile

end Sys2Proof.Machine
end

