-- ==== Sys2Proof/Machine/Array.lean ====
section
/-! DEFINITION. The cube array: operand layout (R85, R88, R90), products and sums (R95 to R99, R125 to
R128), the array queue (R105, R106, R112), the matrix ops MMA, LOADA, LOADB, SWAP, ZERO_ACC
(R113 to R117) and accesses through target 0x2 (R104). -/

namespace Sys2Proof.Machine

/-! ## Formats and layout -/

/-- Products per unit per step, by `FMT` (R84, R114). -/
def fmtK (f : Nat) : Nat :=
  if f = 8 ∨ f = 9 then 64 else if f ≤ 7 then 32 else if f = 12 then 4 else 16

/-- Bits of an element, by `FMT` (R121, R123). -/
def fmtBits (f : Nat) : Nat :=
  if f = 8 ∨ f = 9 then 4 else if f = 4 ∨ f = 5 then 6 else if f ≤ 7 then 8
  else if f = 12 then 32 else 16

/-- The microscaling formats (R123). -/
def fmtMx (f : Nat) : Bool := decide (2 ≤ f ∧ f ≤ 6) || decide (f = 9)

/-- Bytes of a slice (R85). -/
def sliceBytes (f : Nat) : Nat := if f = 12 then 64 else 128

/-- Port words of a K-slice block of `tiles` tiles (R91, R179). -/
def blockWords (f tiles : Nat) : Nat :=
  (if f = 12 then tiles else 2 * tiles) + bit (fmtMx f)

/-- The handshake at which a slice is needed (R88): role A with the `n` of its layout, or role B. -/
def needOf (roleB : Bool) (n tile i : Nat) : Nat := if roleB then tile + i else n * tile + i

/-- The place of slice `i` of tile `t` in the skewed order (R88): ascending by need, then tile. -/
def slicePos (roleB : Bool) (n tiles t i : Nat) : Nat :=
  let me := needOf roleB n t i
  ((List.range (tiles * 8)).filter (fun k =>
    let o := needOf roleB n (k / 8) (k % 8)
    decide (o < me) || (decide (o = me) && decide (k / 8 < t)))).length

/-- The exact value of an element code by `FMT`, scale aside (R121, R123). -/
def elemNum (f c : Nat) : Num :=
  match f with
  | 0 | 2 => decodeF fmtE4M3 c
  | 1 | 3 => decodeF fmtE5M2 c
  | 4 => decodeF fmtE3M2 c
  | 5 => decodeF fmtE2M3 c
  | 6 => intNum 8 c (-6)
  | 7 => intNum 8 c 0
  | 8 | 9 => decodeF fmtE2M1 c
  | 10 => decodeF fmtBF16 c
  | 11 => decodeF fmtFP16 c
  | _ => decodeF fmtB32 c

/-- An operand of a product: its value, and whether its E8M0 scale is NaN (R126). -/
structure Elt where
  v : Num
  scaleNan : Bool
  deriving DecidableEq, Repr

/-- The `K` operands of line `r` of tile `t` in a fetched block: its bytes, and the port words of the
block that could not be corrected, whose slices count as zero (R85, R90, R99). -/
def lineOf (f : Nat) (roleB : Bool) (n tiles : Nat) (block : Bytes) (lost : List Nat) (t r : Nat) :
    List Elt :=
  let pos := slicePos roleB n tiles t (r / 4)
  let sb := sliceBytes f
  let off := 512 * bit (fmtMx f) + pos * sb
  let k := fmtK f
  let rowBytes := k * fmtBits f / 8
  let row := if lost.contains (off / 512) then 0 else natAt block (off + (r % 4) * rowBytes) rowBytes
  tabulate k (fun i =>
    let x := elemNum f (bitsOf row (i * fmtBits f + fmtBits f - 1) (i * fmtBits f))
    if fmtMx f then
      let nb := k / 32
      let e := natAt block (nb * (32 * t + r) + i / 32) 1
      if e = 255 then ⟨.nan false, true⟩ else ⟨scaleNum x ((e : Int) - 127), false⟩
    else ⟨x, false⟩)

/-! ## Products and sums -/

/-- A value with no signalling NaN: the array raises nothing for one (R97). -/
def quiet (x : Num) : Num :=
  match x with
  | .nan _ => .nan false
  | y => y

/-- The product of two operands and whether it raises `INVALID` (R97, R126). -/
def prodElt (a b : Elt) : Num × Bool :=
  if a.scaleNan || b.scaleNan then (.nan false, true)
  else
    let p := exMul (quiet a.v) (quiet b.v)
    (quiet p.x, p.fl.inv)

/-- The exact sum of a step's products and whether it raises `INVALID` (R95, R97): a zero sum is −0
only if every product is −0 (R126). -/
def exactSum (ps : List Num) : Num × Bool :=
  if ps.any isNan then (.nan false, false)
  else
    let pos := ps.any (fun p => decide (p = .inf false))
    let neg := ps.any (fun p => decide (p = .inf true))
    if pos && neg then (.nan false, true)
    else if pos then (.inf false, false)
    else if neg then (.inf true, false)
    else
      let s := ps.foldl (fun a p => match p with
        | .fin n m e => addFin a.1 a.2 (sigInt n m) e
        | _ => a) ((0 : Int), (0 : Int))
      if s.1 = 0 then
        (.fin (ps.all (fun p => isZero p && isNeg p) && !ps.isEmpty) 0 0, false)
      else (.fin (decide (s.1 < 0)) s.1.natAbs s.2, false)

/-- Rounds an exact value to binary32 as the array does (R125): to nearest even, no `UNDERFLOW`. -/
def arrRound (x : Num) : Nat × Fl :=
  let (c, fl) := packF fmtB32 .rne false x false
  (c, { fl with uf := false })

/-- Adds an exact value to an accumulator element with one rounding (R95). `acc`: none where the
multiply overwrites, so that the value alone is rounded (DESIGN CHOICE, log 61). -/
def accAdd (acc : Option Nat) (x : Num) : Nat × Fl :=
  match acc with
  | none => arrRound x
  | some c =>
    let s := exAdd .rne (quiet (decodeF fmtB32 c)) x
    let (r, fl) := arrRound s.x
    (r, flOr s.fl fl)

/-- One K-slice of one element (R95): fast mode adds the exact sum; strict mode rounds each product
and each addition, in ascending k. -/
def accSlice (strict : Bool) (acc : Option Nat) (as bs : List Elt) : Option Nat × Fl :=
  let ps := List.zipWith prodElt as bs
  if strict then
    let (acc, fl) := ps.foldl (fun (st : Option Nat × Fl) p =>
      let (pc, pf) := arrRound p.1
      let (c, cf) := accAdd st.1 (decodeF fmtB32 pc)
      (some c, flOr st.2 (flOr { inv := p.2 } (flOr pf cf)))) (acc, fl0)
    (acc, fl)
  else
    let (s, inv) := exactSum (ps.map (·.1))
    let (c, fl) := accAdd acc s
    (some c, flOr fl { inv := inv || ps.any (·.2) })

/-- One K-slice of one element of an INT8 multiply (R98): an int32 sum that saturates. -/
def accInt (acc : Option Nat) (as bs : List Elt) : Option Nat × Fl :=
  let val (x : Elt) : Int := match x.v with
    | .fin n m _ => sigInt n m
    | _ => 0
  let s := (List.zipWith (fun a b => val a * val b) as bs).foldl (· + ·)
    (match acc with
      | some c => signedOf 32 c
      | none => 0)
  if 2147483647 < s then (some 0x7FFFFFFF, { ov := true })
  else if s < -2147483648 then (some 0x80000000, { ov := true })
  else (some (wrapInt 32 s), fl0)

/-! ## The accumulator file (R103, R104) -/

/-- The physical tile of relative tile `r` in a half. -/
def physTile (half : Bool) (r : Nat) : Nat := 16 * bit half + r

/-- The relative tiles of a group (R103), in order a then b. -/
def groupTiles (t m n : Nat) : List Nat :=
  (List.range m).flatMap (fun a => (List.range n).map (fun b => t + 4 * a + b))

/-- The group keeps the rule of R103. -/
def groupOk (t m n : Nat) : Bool := decide (t + 4 * (m - 1) + (n - 1) ≤ 15) && decide (t % 4 + n ≤ 4)

/-- The element codes of a physical tile, row by row. -/
def tileCodes (d : Die) (t : Nat) : List Nat :=
  tabulate 1024 (fun i => leNat (tabSlice zeroByte d.acc (4096 * t + 4 * i) 4))

/-- A tile's element codes stored. -/
def setTile (d : Die) (t : Nat) (cs : List Nat) : Die :=
  { d with acc := tabPut zeroByte d.acc (4096 * t) (cs.flatMap (leBytes 4)) }

/-- A tile of zeros. -/
def zeroTile (d : Die) (t : Nat) : Die :=
  { d with acc := tabDrop d.acc (4096 * t) (4096 * t + 4096) }

/-- `ACTIVE_HALF` (R103, R120). -/
def activeHalf (d : Die) : Bool := d.flag 0x10000 0

/-! ## Running a multiply -/

/-- The fields of an MMA (R115). -/
structure MmaF where
  acc : Nat
  m : Nat
  n : Nat
  ovr : Bool
  strict : Bool
  kslices : Nat
  deriving DecidableEq, Repr

/-- The fields of an MMA from its operands. -/
def mmaF (x : BitVec 96) : MmaF :=
  ⟨opField x 8 5, opField x 10 9 + 1, opField x 12 11 + 1, bitOf x.toNat 13, bitOf x.toNat 14,
    opField x 31 16⟩

/-- Handshakes of one tile pair of a K-slice (R92). -/
def pairSteps (f : MmaF) (fa : Nat) : Nat := if f.strict then fmtK fa else 1

/-- The handshake of a K-slice, plus 1, at which the earliest slice of word `w` of a block is needed (R88, R89):
a scale word is needed before the first step (R90). -/
def wordNeed (roleB : Bool) (f n tiles per w : Nat) : Nat :=
  if fmtMx f && decide (w = 0) then 0
  else
    let spw := 512 / sliceBytes f
    let needs := (List.range (tiles * 8)).filterMap (fun k =>
      if slicePos roleB n tiles (k / 8) (k % 8) / spw + bit (fmtMx f) = w then
        some (per * (if roleB then k / 8 else n * (k / 8)) + k % 8)
      else none)
    1 + needs.foldl min (per * n * tiles + 8)

/-- A stream's port words in address order, each with the handshake at which it is needed. -/
def streamWords (roleB : Bool) (de : Desc) (f : MmaF) (fa tiles : Nat) : List (Nat × Nat) :=
  let per := pairSteps f fa
  let fmt := de.fmt.toNat
  let needs := (List.range (blockWords fmt tiles)).map (wordNeed roleB fmt f.n tiles per)
  (List.range f.kslices).flatMap (fun k => needs.mapIdx (fun w n =>
    (k * per * f.m * f.n + n, de.base.toNat + k * de.stride.toNat + w)))

/-- The order in which the feed engine fetches two streams (R89): the word needed first, B's on a tie. -/
def fetchMerge : (fuel : Nat) → (b a : List (Nat × Nat)) → List Nat
  | 0, _, _ => []
  | _ + 1, [], a => a.map (·.2)
  | _ + 1, b, [] => b.map (·.2)
  | n + 1, x :: b, y :: a =>
    if x.1 ≤ y.1 then x.2 :: fetchMerge n b (y :: a) else y.2 :: fetchMerge n (x :: b) a

/-- The feed engine reads every word of a multiply (R89): what its reads leave behind. -/
def fetchAll (o : LongOp) (f : MmaF) (d : Die) : Die :=
  let fa := o.descA.fmt.toNat
  let b := streamWords true o.descB f fa f.n
  let a := streamWords false o.descA f fa f.m
  (fetchMerge (a.length + b.length) b a).foldl (fun d w => (spdRead 0 (512 * w) 512 d).2.2) d

/-- A K-slice block as fetched (R89, R99): bytes and lost port words. -/
def fetchBlock (base words : Nat) (d : Die) : Bytes × List Nat :=
  (tabSlice zeroByte d.spd (512 * base) (512 * words),
    ((spdBad d (512 * base) (512 * words)).filter (fun e => decide (e.2 = .double))).map
      (fun e => e.1 / 128 - base))

/-- One tile of one K-slice: every element takes its products. A block whose scale word is lost (`dead`) has products
of +0 (R99; DESIGN CHOICE, log 61). -/
def tileStep (int strict : Bool) (dead : Bool) (acc : Option (List Nat)) (rows cols : List (List Elt)) :
    List Nat × Fl :=
  let zero : Elt := ⟨.fin false 0 0, false⟩
  let one (i : Nat) : Nat × Fl :=
    let a := rows.getD (i / 32) []
    let b := cols.getD (i % 32) []
    let a := if dead then a.map (fun _ => zero) else a
    let b := if dead then b.map (fun _ => zero) else b
    let old := acc.map (fun cs => cs.getD i 0)
    let (r, fl) := if int then accInt old a b else accSlice strict old a b
    (r.getD 0, fl)
  let rs := (List.range 1024).map one
  (rs.map (·.1), rs.foldl (fun f r => flOr f r.2) fl0)

/-- One K-slice of a multiply (R88, R95, R99). -/
def mmaSlice (o : LongOp) (f : MmaF) (half : Bool) (k : Nat) (d : Die) : Die :=
  let fa := o.descA.fmt.toNat
  let fb := o.descB.fmt.toNat
  let wa := blockWords fa f.m
  let wb := blockWords fb f.n
  let (ba, la) := fetchBlock (o.descA.base.toNat + k * o.descA.stride.toNat) wa d
  let (bb, lb) := fetchBlock (o.descB.base.toNat + k * o.descB.stride.toNat) wb d
  let dead := (fmtMx fa && la.contains 0) || (fmtMx fb && lb.contains 0)
  let rowsOf (a : Nat) := tabulate 32 (fun r => lineOf fa false f.n f.m ba la a r)
  let colsOf (b : Nat) := tabulate 32 (fun c => lineOf fb true f.n f.n bb lb b c)
  let int := decide (fa = 7)
  (List.range (f.m * f.n)).foldl (fun d i =>
    let t := physTile half (f.acc + 4 * (i / f.n) + i % f.n)
    let old := if f.ovr && decide (k = 0) then none else some (tileCodes d t)
    let (cs, fl) := tileStep int f.strict dead old (rowsOf (i / f.n)) (colsOf (i % f.n))
    let d := raiseTile t fl (setTile d t cs)
    if la.isEmpty && lb.isEmpty then d else poisonTile d t) d

/-- Array steps of a multiply (R84, R92, R120). -/
def mmaSteps (fa : Nat) (f : MmaF) : Nat :=
  f.m * f.n * f.kslices * pairSteps f fa

/-- The effect of an MMA in its turn (R95, R96, R98, R117). -/
def runMma (o : LongOp) (d : Die) : Die :=
  let f := mmaF o.x
  let fa := o.descA.fmt.toNat
  let half := activeHalf d
  let tiles := (groupTiles f.acc f.m f.n).map (physTile half)
  let int := decide (fa = 7)
  let steps := mmaSteps fa f
  let d := (d.add48 0x10020 steps).add48 (talJob o.job.toNat) steps
  if f.kslices = 0 then
    if f.ovr then
      tiles.foldl (fun d t => markTile int (clearTile (zeroTile d t) t) t) d
    else d
  else
    let d := tiles.foldl (fun d t => markTile int (if f.ovr then clearTile d t else d) t) d
    (List.range f.kslices).foldl (fun d k => mmaSlice o f half k d) (fetchAll o f d)

/-- The effect of a ZERO_ACC in its turn (R115, R117). -/
def runZeroAcc (o : LongOp) (d : Die) : Die :=
  let half := if bitOf o.x.toNat 21 then !activeHalf d else activeHalf d
  ((List.range 16).filter (fun i => bitOf o.x.toNat (5 + i))).foldl (fun d i =>
    let t := physTile half i
    markTile false (clearTile (zeroTile d t) t) t) d

/-! ## Accesses through target 0x2 (R104) -/

/-- The access keeps the rules of R104. One of no bytes does not (DESIGN CHOICE, log 61). -/
def accAccessOk (off len : Nat) : Bool :=
  decide (off % 4 = 0) && decide (len % 4 = 0) && decide (0 < len) && decide (len ≤ 512) &&
    decide (off + len ≤ 131072) && decide (off / 4096 = (off + len - 1) / 4096)

/-- The physical tiles that a queued matrix op touches, in the halves as they will stand when `flip`
SWAPs ahead of it have taken effect. -/
def opTiles (d : Die) (flip : Bool) (o : LongOp) : List Nat :=
  let act := activeHalf d != flip
  match o.opcode.toNat with
  | 0x10 => let f := mmaF o.x; (groupTiles f.acc f.m f.n).map (physTile act)
  | 0x14 =>
    (groupTiles (opField o.x 8 5) (opField o.x 10 9 + 1) (opField o.x 12 11 + 1)).map
      (physTile (!act))
  | 0x15 =>
    ((List.range 16).filter (fun i => bitOf o.x.toNat (5 + i))).map
      (physTile (if bitOf o.x.toNat 21 then !act else act))
  | _ => []

/-! ## The array queue (R105, R106, R112) -/

/-- r(v) of R433, the step rate between LP, NP and HP of R1, as a fraction in 1/100 G steps/s. -/
def stepRate (mv : Nat) : Nat × Nat :=
  if mv ≤ 720 then (105 * 170 + (mv - 550) * 45, 170) else (150 * 130 + (mv - 720) * 35, 130)

/-- Array steps per µs at a row setpoint in mV, as R433 interpolates (log 33). -/
def arrayRate (mv : Nat) : Nat := 10 * (stepRate mv).1 / (stepRate mv).2

/-- Steps that the array has admitted since the last 1 µs began (R94): each MMA's at the full rate from its
beginning (log 33). -/
def admittedLast (d : Die) : Nat :=
  let rate := arrayRate (d.get ⟨0xB000C, 9, 0⟩)
  d.admitted.foldl (fun n e =>
    let t := (d.rrc - e.1).toNat
    n + (min e.2 (rate * t / 100) - min e.2 (rate * (t - 100) / 100))) 0

/-- An MMA of `steps` begins: where the array has admitted fewer than 10 % of the steps of the last 1 µs, the
issue ramp starts at 1 of 16 slots (R94). -/
def rampStart (steps : Nat) (d : Die) : Die :=
  let rate := arrayRate (d.get ⟨0xB000C, 9, 0⟩)
  let late := d.admitted.filter (fun e => decide (rate * ((d.rrc - e.1).toNat - 100) < 100 * e.2))
  { d with ramp := if 10 * admittedLast d < rate then 1 else d.ramp,
           admitted := late ++ [(d.rrc, steps)] }

/-- What an entry of the array queue does when its turn comes. A DRAIN's turn only places its marker
in the vector queue (R188); DRAIN_START runs it. -/
def runArray (o : LongOp) (d : Die) : Die :=
  match o.kind with
  | .access off len data =>
    let d := match data with
      | some bs =>
        { d with acc := tabPut zeroByte d.acc off.toNat bs, accOut := d.accOut ++ [(Status.ok, [])] }
      | none =>
        { d with accOut := d.accOut ++ [(Status.ok, tabSlice zeroByte d.acc off.toNat len)] }
    { d with ops := d.ops.filter (fun p => decide (p.id ≠ o.id)) }
  | .marker _ => d
  | .op =>
    match o.opcode.toNat with
    | 0x10 => (runMma o (rampStart (mmaSteps o.descA.fmt.toNat (mmaF o.x)) d)).opDone o.id .ok
    | 0x13 => (d.put ⟨0x10000, 0, 0⟩ (bit (!activeHalf d))).opDone o.id .ok
    | 0x15 => (runZeroAcc o d).opDone o.id .ok
    | _ => d

/-- An op of the array queue that has not taken effect. -/
def LongOp.pending (o : LongOp) : Bool :=
  match o.phase with
  | .done _ => false
  | _ => true

/-- The marker that a DRAIN places in the vector queue (R188). -/
def markerOf (o : LongOp) (id : Nat) : LongOp :=
  let p := { o with id := id, kind := .marker o.id, unit := .vector, phase := .queued }
  { p with result := none, mark := false }

/-- The first entry of the array queue that may act now: queue order, except that MMAs run past a
DRAIN (R110, R112) and an access waits only for ops on its tile (R105). -/
def nextArray (d : Die) : List LongOp → (drains others : List LongOp) → Option LongOp
  | [], _, _ => none
  | o :: rest, drains, others =>
    if o.unit ≠ .array || !o.pending then nextArray d rest drains others
    else match o.kind with
      | .access off _ _ =>
        if (drains ++ others).all (fun p => !(opTiles d false p).contains (off.toNat / 4096)) &&
            !others.any (fun p => decide (p.opcode = 0x13)) then some o
        else nextArray d rest drains others
      | .marker _ => nextArray d rest drains others
      | .op =>
        if o.opcode = 0x14 then
          if !o.mark && others.isEmpty && decide (d.depth .vector < 32) then some o
          else nextArray d rest (drains ++ [o]) others
        else if o.opcode = 0x10 then
          if others.isEmpty then some o else nextArray d rest drains (others ++ [o])
        else if others.isEmpty && drains.isEmpty then some o
        else nextArray d rest drains (others ++ [o])

/-- The array works off what its queue order allows. -/
def advanceArray : (fuel : Nat) → Die → Die
  | 0, d => d
  | n + 1, d =>
    if d.halted then d
    else match nextArray d d.ops [] [] with
      | none => d
      | some o =>
        if o.opcode = 0x14 ∧ o.kind = .op then
          let d := d.modOp o.id (fun p => { p with mark := true, phase := .running })
          advanceArray n { d with ops := d.ops ++ [markerOf o d.nextOp], nextOp := d.nextOp + 1 }
        else advanceArray n (runArray o d)

/-- The SWAP that stands at the head of the array queue behind unfinished DRAINs alone (R106). -/
def heldSwap : List LongOp → Option LongOp
  | [] => none
  | o :: rest =>
    if o.unit ≠ .array || !o.pending || o.kind ≠ .op || decide (o.opcode = 0x14) then heldSwap rest
    else if o.opcode = 0x13 then some o else none

/-- A SWAP that meets an unfinished DRAIN waits, and is counted once (R106, R120). -/
def holdSwap (d : Die) : Die :=
  match heldSwap d.ops with
  | some o =>
    if o.mark || d.halted then d
    else { d.modOp o.id (fun p => { p with mark := true }) with swapsHeld := d.swapsHeld + 1 }
  | none => d

/-- The array after a change of its queue. -/
def arrayGo (d : Die) : Die := holdSwap (advanceArray (2 * d.ops.length + 1) d)

/-- A multiply or a drain of the array runs: its turn has come and it has not completed (R120). -/
def arrBusy (d : Die) (opcode : Nat) : Bool :=
  d.ops.any (fun o => decide (o.unit = .array) && decide (o.kind = .op) && decide (o.opcode.toNat = opcode) &&
    !o.pending)

/-- Writes of the drain generator that waited for a drain take effect after it (R108). -/
def landGen (d : Die) : Die :=
  if d.genWrites.isEmpty || arrBusy d 0x14 then d
  else { d.genWrites.foldl (fun d e => d.setReg e.1 e.2) d with genWrites := [] }

/-! ## The matrix ops -/

/-- Operand fields of the four queued matrix ops (R115). -/
def mmaFields : List (Nat × Nat) := [(3, 0), (4, 4), (8, 5), (10, 9), (12, 11), (13, 13), (14, 14), (31, 16)]
def swapFields : List (Nat × Nat) := [(3, 0), (4, 4)]
def drainFields : List (Nat × Nat) :=
  [(3, 0), (4, 4), (8, 5), (10, 9), (12, 11), (16, 13), (17, 17), (18, 18), (19, 19), (20, 20),
    (24, 21), (41, 25), (58, 42)]
def zeroFields : List (Nat × Nat) := [(3, 0), (4, 4), (20, 5), (21, 21)]
def loadFields (a : Bool) : List (Nat × Nat) :=
  [(16, 0), (35, 20), (39, 36), (41, 40)] ++ (if a then [(43, 42)] else [])

/-- The pairs of R114. -/
def pairOk (a b : Nat) : Bool :=
  (decide (a ≤ 1) && decide (b ≤ 1)) ||
    (decide (2 ≤ a ∧ a ≤ 5) && decide (2 ≤ b ∧ b ≤ 5)) ||
    (decide (6 ≤ a ∧ a ≤ 12) && decide (a = b))

/-- The last word of a stream lies in the scratchpad (R116). -/
def streamOk (de : Desc) (tiles kslices : Nat) : Bool :=
  decide (kslices = 0) ||
    decide (de.base.toNat + (kslices - 1) * de.stride.toNat + blockWords de.fmt.toNat tiles ≤ spdWords)

/-- The checks of an MMA at issue (R116). -/
def mmaChk (w : OpWord) (_ : Die) (th : Thread) : Option Status :=
  let f := mmaF w.x
  let a := th.descA
  let b := th.descB
  if !pairOk a.fmt.toNat b.fmt.toNat || decide (a.tiles.toNat + 1 ≠ f.m) ||
      decide (b.tiles.toNat + 1 ≠ f.n) || decide (a.skewN.toNat + 1 ≠ f.n) ||
      !groupOk f.acc f.m f.n || !streamOk a f.m f.kslices || !streamOk b f.n f.kslices then
    some .malformed
  else none

/-- The unit has accepted the op: its queue moves on. -/
def afterArray (_ : LongOp) (d : Die) : Die := arrayGo d

/-- Engine units that an MMA costs its job's bucket at issue in SHARES mode (R424). -/
def mmaCost (w : OpWord) (fa : Nat) : Nat := 4 * mmaSteps fa (mmaF w.x)

/-- A bucket pays for an op at issue, and the units count for the next refill (R424). -/
def payBucket (job cost : Nat) (d : Die) : Die :=
  if d.classes then d
  else
    let off := talJob job + 0x1C
    let d := { d with used := tabSet (fun _ => 0) d.used job (tabGet (fun _ => 0) d.used job + cost) }
    let v := signedOf 32 (d.reg off) - (cost : Int)
    d.setReg off (wrapInt 32 (if v < -2147483648 then -2147483648 else v))

/-- MMA (R115, R116): checked, queued, and worked off in queue order. -/
def dieMma (t : ThreadId) (w : OpWord) (d : Die) : Die :=
  issueLong 0x10 .array t w mmaFields (mmaChk w) (fun _ o => o)
    (fun o d => afterArray o (payBucket o.job.toNat (mmaCost w o.descA.fmt.toNat) d)) d

/-- SWAP (R106). -/
def dieSwap (t : ThreadId) (w : OpWord) (d : Die) : Die :=
  issueLong 0x13 .array t w swapFields (fun _ _ => none) (fun _ o => o) afterArray d

/-- ZERO_ACC (R117). -/
def dieZeroAcc (t : ThreadId) (w : OpWord) (d : Die) : Die :=
  issueLong 0x15 .array t w zeroFields (fun _ _ => none) (fun _ o => o) afterArray d

/-- Bytes of a DRAIN's output element (R107). -/
def drainEltBytes (f : Nat) : Nat :=
  if f = 0 ∨ f = 5 then 4 else if f = 1 ∨ f = 2 then 2 else 1

/-- The checks of a DRAIN at issue (R116), `OREG` taken into `DEST` and `STAT` (R153). -/
def drainChk (w : OpWord) (_ : Die) (th : Thread) : Option Status :=
  let m := opField w.x 10 9 + 1
  let n := opField w.x 12 11 + 1
  let f := opField w.x 16 13
  let off := (oregOff th w).toNat
  let dest := opField w.x 41 25 + off
  let stat := opField w.x 58 42 + off
  let words := ceilDiv (1024 * m * n * drainEltBytes f) 512
  let stats := bit (bitOf w.x.toNat 18) + bit (bitOf w.x.toNat 19)
  if !groupOk (opField w.x 8 5) m n || decide (6 ≤ f) || decide (spdWords < dest + words) ||
      decide (0 < stats ∧ spdWords < stat + stats) ||
      decide (0 < stats ∧ dest < stat + stats ∧ stat < dest + words) then
    some .malformed
  else none

/-- DRAIN (R107, R116): checked and queued; its marker goes into the vector queue (R188). -/
def dieDrain (t : ThreadId) (w : OpWord) (d : Die) : Die :=
  issueLong 0x14 .array t w drainFields (drainChk w) (fun _ o => o) afterArray d

/-- LOADA and LOADB (R113): short ops that write a descriptor at issue. -/
def dieLoad (roleA : Bool) (t : ThreadId) (w : OpWord) (d : Die) : Die :=
  let opc := if roleA then 0x11 else 0x12
  let f := opField w.x 39 36
  let tiles := opField w.x 41 40
  issueOp opc t w (loadFields roleA)
    (fun _ th =>
      if 12 < f then some .malformed
      else if spdWords ≤ opField w.x 16 0 + (oregOff th w).toNat then some .malformed
      else if opField w.x 35 20 < blockWords f (tiles + 1) then some .malformed
      else none)
    (fun d th =>
      let de : Desc := ⟨BitVec.ofNat 17 (opField w.x 16 0 + (oregOff th w).toNat),
        BitVec.ofNat 16 (opField w.x 35 20), BitVec.ofNat 4 f, BitVec.ofNat 2 tiles,
        BitVec.ofNat 2 (if roleA then opField w.x 43 42 else 0)⟩
      let d := issued d t
      let th := d.thread t
      d.setThread t (if roleA then { th with descA := de } else { th with descB := de })) d

/-- An access through target 0x2 reaches the array (R104, R105): the status of the answer, and the die
with the access made or set aside behind the ops on its tile. -/
def dieAccAccess (off : BitVec 41) (len : Nat) (data : Option Bytes) (d : Die) : Die :=
  let n := match data with
    | some bs => bs.length
    | none => len
  if d.run ≠ .active then d
  else if !accAccessOk off.toNat n then { d with accOut := d.accOut ++ [(Status.malformed, [])] }
  else
    let o := { newOp d 0 0xFF ⟨0, 0, 0⟩ .array with kind := .access off n data }
    arrayGo { d with ops := d.ops ++ [o], nextOp := d.nextOp + 1 }

end Sys2Proof.Machine
end

