-- ==== Sys2Proof/Machine/Vector.lean ====
section
/-! DEFINITION. The vector unit: lane generators (R146 to R149), scale registers and conversion
streams (R133 to R145), the vector register ops (R184 to R189), the vector queue (R188) and the drain
that joins it (R107 to R110). -/

namespace Sys2Proof.Machine

/-! ## Generators (R146 to R148) -/

/-- One draw: the output and the next state (R146). -/
def genStep (a b : Nat) : Nat × Nat × Nat :=
  let m := 2 ^ 64
  let t := a ^^^ ((a <<< 23) % m)
  let t := t ^^^ (t >>> 17)
  let t := t ^^^ (b ^^^ (b >>> 26))
  (((b + t) % m) >>> 32, b, t)

/-- The two halves of a generator whose four registers start at `off`. -/
def genState (d : Die) (off : Nat) : Nat × Nat :=
  (d.reg off + d.reg (off + 4) <<< 32, d.reg (off + 8) + d.reg (off + 12) <<< 32)

/-- A generator's state stored. -/
def setGen (d : Die) (off a b : Nat) : Die :=
  (((d.setReg off (a % 2 ^ 32)).setReg (off + 4) (a >>> 32)).setReg (off + 8)
    (b % 2 ^ 32)).setReg (off + 12) (b >>> 32)

/-- A draw of the generator at `off`, which raises `ZERO_STATE` from (0, 0) (R146). -/
def drawAt (off : Nat) (d : Die) : Nat × Die :=
  let (a, b) := genState d off
  let (out, a', b') := genStep a b
  let d := if a = 0 ∧ b = 0 then raiseZeroState d else d
  (out, setGen d off a' b')

/-- The generators of the lanes from `lo` on advance `k` times without a draw (R146, R148). -/
def stepLanes (lo k : Nat) (d : Die) : Die :=
  (List.range (64 - lo)).foldl (fun d i =>
    let off := 0x41100 + 16 * (lo + i)
    let (a, b) := k.repeat (fun (x : Nat × Nat) => (genStep x.1 x.2).2) (genState d off)
    setGen d off a b) d

/-- `MODE` is FREE (R148, R151). -/
def freeMode (d : Die) : Bool := d.flag 0x41000 0

/-- In FREE mode every lane advances with every handshake of the vector unit (R148). How many pass depends on
timing: a free count, common to the 64 lanes (log 2). -/
def freeLanes (d : Die) : Die :=
  if freeMode d then
    { stepLanes 0 (Config.freeDie d.phys d.free).toNat d with free := d.free + 1 }
  else d

/-- `n` draws, element i from lane i mod 64 (R147), counted in `GEN_DRAWS`. In FREE mode the lanes that draw
nothing advance too, and handshakes pass between one round of 64 and the next (R148). -/
def drawLanes : (n i : Nat) → Die → List Nat × Die
  | 0, i, d => ([], if freeMode d && decide (i % 64 ≠ 0) then stepLanes (i % 64) 1 d else d)
  | n + 1, i, d =>
    let d := if decide (i % 64 = 0) && decide (i ≠ 0) then freeLanes d else d
    let (x, d) := drawAt (0x41100 + 16 * (i % 64)) d
    let (xs, d) := drawLanes n (i + 1) (d.add48 0x41008 1)
    (x :: xs, d)

/-- `n` draws of the drain generator (R108). -/
def drawDrain : (n : Nat) → Die → List Nat × Die
  | 0, d => ([], d)
  | n + 1, d =>
    let (x, d) := drawAt 0x10040 d
    let (xs, d) := drawDrain n d
    (x :: xs, d)

/-! ## Scale registers (R139, R140) -/

/-- `SCALE_EXP` of a scale register. -/
def scaleExp (d : Die) (n : Nat) : Int := signedOf 9 (bitsOf (d.reg (0x40100 + 8 * n)) 8 0)
/-- `MARGIN` of a scale register. -/
def scaleMargin (d : Die) (n : Nat) : Nat := bitsOf (d.reg (0x40100 + 8 * n)) 11 9
/-- `EB` of a scale register. -/
def scaleEb (d : Die) (n : Nat) : Nat := bitsOf (d.reg (0x40100 + 8 * n)) 19 12
/-- `AMAX` of a scale register. -/
def scaleAmax (d : Die) (n : Nat) : Nat := d.reg (0x40104 + 8 * n)

/-- A magnitude as `AMAX` records it (R139): truncated to binary32, +Inf above its largest finite. -/
def amaxCode (x : Num) : Nat :=
  match x with
  | .nan _ => 0
  | .inf _ => 0x7F800000
  | .fin _ m e =>
    if cmpMag m e (maxFinite fmtB32).1 (maxFinite fmtB32).2 = .gt then 0x7F800000
    else (packFin fmtB32 .rtz false false m e false).1

/-- Records a source value into a scale register (R139). -/
def recordAmax (n : Nat) (d : Die) (x : Num) : Die :=
  if isNan x then d.setFlag (0x40100 + 8 * n) 20
  else d.setReg (0x40104 + 8 * n) (max (scaleAmax d n) (amaxCode x))

/-- The emax that R140 gives a destination format. -/
def rollEmax (f : Nat) : Option Int :=
  match f with
  | 0 => some 8
  | 1 => some 15
  | 7 => some 6
  | 8 => some 2
  | 10 => some 127
  | 11 => some 15
  | 12 => some 127
  | _ => none

/-- The roll of R140. -/
def rollScale (n dst : Nat) (d : Die) : Die :=
  let ctl := 0x40100 + 8 * n
  let am := scaleAmax d n
  let d' := match rollEmax dst, decodeF fmtB32 am with
    | some em, .fin _ m e =>
      if d.flag ctl 20 || decide (m = 0) then d.setFlag ctl 21
      else
        let x := em - ((Nat.log2 m : Int) + e) - (scaleMargin d n : Int)
        let x := if x < -256 then -256 else if 255 < x then 255 else x
        (d.put ⟨ctl, 8, 0⟩ (wrapInt 9 x)).put ⟨ctl, 21, 21⟩ 0
    | _, _ => d.setFlag ctl 21
  (d'.setReg (ctl + 4) 0).put ⟨ctl, 20, 20⟩ 0

/-! ## Conversion of one element or block (R133 to R137) -/

/-- Bits of an element of a conversion format (R143). -/
def cvtBits (f : Nat) : Nat :=
  if f ≤ 12 then fmtBits f else if f = 13 then 16 else 32

/-- The TBI formats. -/
def fmtTbi (f : Nat) : Bool := decide (f = 13) || decide (f = 14)

/-- A source element's exact value (R133 step 1, R144): `sc` the E8M0 code of its block. The codes that R124 reserves
read as the integers they spell (DESIGN CHOICE, log 62). -/
def cvtSource (f c sc eb : Nat) (sx : Int) : Num :=
  if f = 13 then intNum 16 c ((eb : Int) - 142)
  else if f = 14 then intNum 32 c ((eb : Int) - 158)
  else if f = 15 then intNum 32 c sx
  else if fmtMx f then
    if sc = 255 then .nan false else scaleNum (elemNum f c) ((sc : Int) - 127)
  else elemNum f c

/-- Rounds to an element format of a floating-point or MX floating element. -/
def fltFmt (f : Nat) : FFmt :=
  match f with
  | 0 | 2 => fmtE4M3
  | 1 | 3 => fmtE5M2
  | 4 => fmtE3M2
  | 5 => fmtE2M3
  | 8 | 9 => fmtE2M1
  | 10 => fmtBF16
  | 11 => fmtFP16
  | _ => fmtB32

/-- A value rounded to an unscaled destination (R134, R137): code, flags, and the block overrun of a
TBI element. -/
def cvtDest (f : Nat) (r : Rnd) (sat : Bool) (eb : Nat) (x : Num) : Nat × Fl × Bool :=
  if f = 7 then
    let (c, fl) := packInt 8 r x
    (c, fl, false)
  else if f = 15 then
    let (c, fl) := packInt 32 r x
    (c, fl, false)
  else if fmtTbi f then
    let n := if f = 13 then 16 else 32
    let top := 2 ^ (n - 1) - 1
    let sh : Int := (if f = 13 then 142 else 158) - (eb : Int)
    match x with
    | .nan s => (0, { inv := s }, true)
    | .inf neg => (if neg then top + 2 else top, fl0, true)
    | .fin neg m e =>
      let (q, ix) := roundInt r neg m (e + sh)
      if top < q then (if neg then top + 2 else top, { ix := true }, true)
      else (if neg then (2 ^ n - q) % 2 ^ n else q, { ix := ix }, false)
  else
    let (c, fl) := packF (fltFmt f) r sat x false
    (c, fl, false)

/-- emax of an MX format's elements (R123). -/
def mxEmax (f : Nat) : Int :=
  match f with
  | 2 => 8
  | 3 => 15
  | 4 => 4
  | 5 => 2
  | 9 => 2
  | _ => 0

/-- An MX element (R136): rounded and saturated at the element's largest magnitude. A negative MXINT8 element may
round to -128 (DESIGN CHOICE, log 62). -/
def mxElem (f : Nat) (r : Rnd) (x : Num) : Nat × Fl :=
  match x with
  | .fin neg m e =>
    if f = 6 then
      let (q, ix) := roundInt r neg m (e + 6)
      if !neg && decide (127 < q) then (127, { ov := true, ix := true })
      else if neg && decide (128 < q) then (128, { ov := true, ix := true })
      else (if neg then (256 - q) % 256 else q, { ix := ix })
    else packFin (fltFmt f) r true neg m e false
  | _ => (0, fl0)

/-- The floor of the binary logarithm of a positive magnitude. -/
def floorLog2 (m : Nat) (e : Int) : Int := (Nat.log2 m : Int) + e

/-- A block rounded to an MX format (R136): scale code, element codes, flags. -/
def mxBlock (f : Nat) (rs : List Rnd) (xs : List Num) : Nat × List Nat × Fl :=
  let sig : Fl := { inv := xs.any isSig }
  if xs.any (fun x => match x with
      | .fin _ _ _ => false
      | _ => true) then (255, xs.map (fun _ => 0), sig)
  else
    let am := xs.foldl (fun (a : Nat × Int) x => match x with
      | .fin _ m e => if cmpMag a.1 a.2 m e = .lt then (m, e) else a
      | _ => a) (0, 0)
    if am.1 = 0 then (0, xs.map (fun _ => 0), sig)
    else
      let c := floorLog2 am.1 am.2 - mxEmax f + 127
      let c := if c < 0 then 0 else if 254 < c then 254 else c
      let es := List.zipWith (fun r x => mxElem f r (scaleNum x (127 - c))) rs xs
      (c.toNat, es.map (·.1), es.foldl (fun a e => flOr a e.2) sig)

/-- Bits packed least significant first into bytes (R85, R143). -/
def packCodes (bits : Nat) (cs : List Nat) : Bytes :=
  let v := (cs.foldr (fun c a => (a <<< bits) + c % 2 ^ bits) 0)
  leBytes ((cs.length * bits + 7) / 8) v

/-- `n` codes of `bits` bits from bytes. -/
def unpackCodes (bits n : Nat) (bs : Bytes) : List Nat :=
  let v := leNat bs
  tabulate n (fun i => bitsOf v (i * bits + bits - 1) (i * bits))

/-! ## CONVERT and RNG_DRAW (R143 to R147) -/

/-- The fields of a CONVERT (R143), addresses with their `OREG` offset. -/
structure CvtF where
  src : Nat
  dst : Nat
  rnd : Nat
  sat : Bool
  roll : Bool
  scale : Nat
  en : Bool
  pSrc : Nat
  pDst : Nat
  pAux : Nat
  count : Nat
  deriving DecidableEq, Repr

/-- The fields of a CONVERT from its operands. -/
def cvtF (x : BitVec 96) (off : Nat) : CvtF :=
  ⟨opField x 8 5, opField x 12 9, opField x 15 13, bitOf x.toNat 16, bitOf x.toNat 17,
    opField x 21 18, bitOf x.toNat 22, opField x 40 24 + off, opField x 57 41 + off,
    opField x 74 58 + off, opField x 90 75⟩

/-- Bytes of a region of `count` blocks (R143). -/
def cvtLen (f count : Nat) : Nat := count * 32 * cvtBits f / 8

/-- Bytes of the auxiliary region (R143). -/
def cvtAuxLen (f : CvtF) : Nat :=
  if fmtMx f.src || fmtMx f.dst then f.count
  else if fmtTbi f.dst then ceilDiv f.count 8 else 0

/-- Two byte ranges share a byte. -/
def overlaps (a n b m : Nat) : Bool := decide (0 < n ∧ 0 < m ∧ a < b + m ∧ b < a + n)

/-- A byte range lies in the scratchpad; an empty range does. -/
def inSpd (a n : Nat) : Bool := decide (n = 0 ∨ a + n ≤ spdBytes)

/-- The checks of a CONVERT at issue, in order (R144). -/
def cvtChk (w : OpWord) (_ : Die) (th : Thread) : Option Status :=
  let f := cvtF w.x (oregOff th w).toNat
  let ls := cvtLen f.src f.count
  let ld := cvtLen f.dst f.count
  let la := cvtAuxLen f
  let s := 512 * f.pSrc
  let t := 512 * f.pDst
  let a := 512 * f.pAux
  if (f.src ≠ 12 ∧ f.dst ≠ 12) ∨ 4 < f.rnd then some .malformed
  else if f.roll && (rollEmax f.dst).isNone then some .malformed
  else if f.en && (fmtTbi f.dst || fmtTbi f.src) then some .malformed
  else if !inSpd s ls || !inSpd t ld || !inSpd a la then some .malformed
  else if (overlaps s ls t ld && !(decide (s = t) && decide (cvtBits f.dst ≤ cvtBits f.src))) ||
      overlaps s ls a la || overlaps t ld a la then some .malformed
  else none

/-- Elements of a packed stream that touch a lost 32-bit word. -/
def lostElts (base bits n : Nat) (lost : List Nat) : List Bool :=
  if lost.isEmpty then List.replicate n false
  else tabulate n (fun i =>
    let lo := base + i * bits / 8
    let hi := base + (i * bits + bits - 1) / 8
    lost.any (fun w => decide (lo / 4 ≤ w) && decide (w ≤ hi / 4)))

/-- The rounding of each element: the op's direction, or its draw (R135, R147). -/
def rndList (rnd n : Nat) (d : Die) : List Rnd × Die :=
  if rnd = 4 then
    let (xs, d) := drawLanes n 0 d
    (xs.map (fun x => .stoch (BitVec.ofNat 32 x)), d)
  else (List.replicate n ((rndOf rnd).getD .rne), d)

/-- A list cut into runs of 32. -/
def blocks32 {α : Type} (n : Nat) (l : List α) : List (List α) :=
  tabulate n (fun i => (l.drop (32 * i)).take 32)

/-- The effect of a CONVERT (R133 to R141, R177): its status. -/
def runConvert (o : LongOp) (d : Die) : Status × Die :=
  let f := cvtF o.x o.off.toNat
  let d := if f.roll then rollScale f.scale f.dst d else d
  let n := 32 * f.count
  let sx := scaleExp d f.scale
  let eb := scaleEb d f.scale
  let (sb, lost, d) := spdRead 3 (512 * f.pSrc) (cvtLen f.src f.count) d
  let (ab, lostA, d) :=
    if fmtMx f.src then spdRead 3 (512 * f.pAux) f.count d else ([], [], d)
  let (rs, d) := rndList f.rnd n d
  let codes := unpackCodes (cvtBits f.src) n sb
  let bad := lostElts (512 * f.pSrc) (cvtBits f.src) n lost
  let xs := tabulate n (fun i =>
    if bad.getD i false || lostA.contains ((512 * f.pAux + i / 32) / 4) then .nan false
    else cvtSource f.src (codes.getD i 0) (natAt ab (i / 32) 1) eb sx)
  let d := xs.foldl (recordAmax f.scale) d
  let ys := if f.en && decide (f.src ≠ 15) then xs.map (fun x => scaleNum x sx) else xs
  let st : Status := if lost.isEmpty && lostA.isEmpty then .ok else .poisoned
  if fmtMx f.dst then
    let bl := List.zipWith (mxBlock f.dst) (blocks32 f.count rs) (blocks32 f.count ys)
    let fl := bl.foldl (fun a b => flOr a b.2.2) fl0
    let d := spdWrite 3 (512 * f.pDst) (packCodes (cvtBits f.dst) (bl.flatMap (·.2.1))) d
    let d := spdWrite 3 (512 * f.pAux) (bl.map (fun b => BitVec.ofNat 8 b.1)) d
    (st, raiseVec fl d)
  else
    let es := List.zipWith (fun r x => cvtDest f.dst r f.sat eb x) rs ys
    let fl := es.foldl (fun a e => flOr a e.2.1) fl0
    let d := spdWrite 3 (512 * f.pDst) (packCodes (cvtBits f.dst) (es.map (·.1))) d
    let d := if fmtTbi f.dst then
        let runs := (blocks32 f.count es).map (fun b => bit (b.any (·.2.2)))
        spdWrite 3 (512 * f.pAux) (packCodes 1 runs) d
      else d
    (st, raiseVec fl d)

/-- The effect of an RNG_DRAW (R145). -/
def runRngDraw (o : LongOp) (d : Die) : Status × Die :=
  let n := 32 * opField o.x 90 75
  let (xs, d) := drawLanes n 0 d
  let uniform := decide (opField o.x 6 5 = 1)
  let codes := xs.map (fun x =>
    if uniform then (packFin fmtB32 .rne false false (x >>> 8) (-24) false).1 else x)
  (.ok, spdWrite 3 (512 * o.addr 40 24) (codes.flatMap (leBytes 4)) d)

/-! ## Vector registers (R184) -/

/-- The 64 lanes of a vector register. -/
def vreg (d : Die) (r : Nat) : List Nat :=
  (tabSlice (fun _ => (0 : Word32)) d.vregs (64 * r) 64).map BitVec.toNat

/-- A vector register written. -/
def setVreg (d : Die) (r : Nat) (ls : List Nat) : Die :=
  { d with vregs := tabPut (fun _ => 0) d.vregs (64 * r) (ls.map (BitVec.ofNat 32)) }

/-- The 32 binary64 values of a register's lanes (R184). -/
def pairs64 : List Nat → List Nat
  | a :: b :: r => (a + b <<< 32) :: pairs64 r
  | _ => []

/-- Binary64 values as lanes (R184). -/
def unpair64 (vs : List Nat) : List Nat := vs.flatMap (fun v => [v % 2 ^ 32, v >>> 32])

/-- The values of a register. -/
def vvals (f64 : Bool) (ls : List Nat) : List Nat := if f64 then pairs64 ls else ls
/-- Values as lanes. -/
def vlanes (f64 : Bool) (vs : List Nat) : List Nat := if f64 then unpair64 vs else vs

/-- The fields of a vector register op (R185). -/
structure VecF where
  vd : Nat
  va : Nat
  vb : Nat
  vc : Nat
  rnd : Nat
  f64 : Bool
  len : Nat
  sb : Bool
  sreg : Nat
  deriving DecidableEq, Repr

/-- The fields of a vector register op from its operands (R185). -/
def vecF (x : BitVec 96) : VecF :=
  ⟨opField x 11 5, opField x 18 12, opField x 25 19, opField x 32 26, opField x 35 33,
    bitOf x.toNat 36, opField x 43 37, bitOf x.toNat 44, opField x 49 45⟩

/-- The source registers that an op reads as ranges (R186). -/
def vecSrcs (opcode : Nat) (f : VecF) : List Nat :=
  let b := if f.sb then [] else [f.vb]
  match opcode with
  | 0x20 | 0x21 | 0x22 | 0x24 | 0x26 | 0x27 | 0x28 | 0x29 | 0x2A => f.va :: b
  | 0x23 | 0x2B => f.va :: (b ++ [f.vc])
  | 0x25 | 0x2C | 0x2D | 0x2E | 0x2F | 0x30 | 0x31 => [f.va]
  | _ => []

/-- The op writes the register range at `VD` (R186). -/
def vecDst (opcode : Nat) : Bool := decide (opcode ≤ 0x32) || decide (opcode = 0x34)

/-- The register ranges of R185 end at V127, and the destination coincides with a source or is apart
from it. -/
def rangesOk (opcode : Nat) (f : VecF) : Bool :=
  let srcs := vecSrcs opcode f
  let srcs' := if opcode = 0x33 then [f.vd] else srcs
  (srcs'.all (fun r => decide (r + f.len ≤ 127))) &&
    (!vecDst opcode || (decide (f.vd + f.len ≤ 127) &&
      srcs.all (fun r => decide (r = f.vd) || decide (r + f.len < f.vd) || decide (f.vd + f.len < r))))

/-- An offset of a scale register or generator register within the block at 0x0004_0000 (R151,
R189). -/
def vecRegOff (o : Nat) : Bool :=
  inArray o 0x100 4 32 || decide (o = 0x1000) || decide (o = 0x1008) || decide (o = 0x100C) ||
    inArray o 0x1100 4 256

/-- The checks of a vector register op at issue (R185, R186, R189), `RND` and its kin first. -/
def vecChk (opcode : Nat) (w : OpWord) (_ : Die) (th : Thread) : Option Status :=
  let f := vecF w.x
  let bad : Bool := match opcode with
    | 0x2A => decide (4 < f.rnd)
    | 0x31 => decide (2 < f.rnd)
    | _ => decide (3 < f.rnd)
  let own : Bool := match opcode with
    | 0x2C | 0x2D | 0x2E | 0x2F => f.f64
    | 0x30 => decide (opField w.x 28 26 = 7)
    | 0x32 | 0x33 => decide (196608 < opField w.x 29 12 + (oregOff th w).toNat + f.len + 1)
    | 0x35 => f.f64 && decide (31 < opField w.x 31 26)
    | 0x3A | 0x3B => !vecRegOff (opField w.x 27 12)
    | _ => false
  let ranged := decide (opcode ≤ 0x34)
  if bad || own || (ranged && !rangesOk opcode f) then some .malformed else none

/-- Bits of a vector register op that are not reserved (R185, R186). -/
def vecFields (opcode : Nat) : List (Nat × Nat) :=
  [(49, 0)] ++ (if opcode = 0x2A then [(50, 50)] else [])

/-- Vector handshakes of an op (R186, R423). -/
def vecHs (opcode : Nat) (x : BitVec 96) : Nat :=
  let n := opField x 43 37 + 1
  match opcode with
  | 0x24 | 0x25 => 4 * n
  | 0x2C | 0x2D | 0x2E | 0x2F => 2 * n
  | 0x31 => 8 * n
  | 0x35 | 0x3A | 0x3B => 1
  | 0x38 | 0x39 => Config.convertHandshakes (opField x 90 75)
  | _ => n

/-- The exact result of a per-value arithmetic op, before its rounding (R129, R130, R186). -/
def vecEx (opcode : Nat) (r : Rnd) (a b c : Num) : Ex :=
  match opcode with
  | 0x20 => exAdd r a b
  | 0x21 => exAdd r a (negNum b)
  | 0x22 => exMul a b
  | 0x23 => exFma r a b c
  | 0x24 => exDiv a b
  | 0x25 => exSqrt a
  | 0x26 => exMinMax false a b
  | 0x27 => exMinMax true a b
  | 0x28 => exMinMaxNumber false a b
  | 0x29 => exMinMaxNumber true a b
  | 0x2C => exExp2 a
  | 0x2D => exLog2 a
  | 0x2E => exRcp a
  | _ => exRsqrt a

/-- One value of a per-value op: its code and flags. An exp2 beyond the range is +Inf in every
direction (R130). -/
def vecVal (opcode : Nat) (x : BitVec 96) (a b c : Nat) : Nat × Fl :=
  let f := vecF x
  let fm := if f.f64 then fmtB64 else fmtB32
  let r := (rndOf f.rnd).getD .rne
  match opcode with
  | 0x2A =>
    let (t, fl) := cmpCond f.rnd (bitOf x.toNat 50) (decodeF fm a) (decodeF fm b)
    (if t then 2 ^ (if f.f64 then 64 else 32) - 1 else 0, fl)
  | 0x2B => (if c ≠ 0 then a else b, fl0)
  | 0x2C =>
    let (v, fl) := packEx fm r (exExp2 (decodeF fm a))
    (if fl.ov then infCode fm false else v, fl)
  | _ => packEx fm r (vecEx opcode r (decodeF fm a) (decodeF fm b) (decodeF fm c))

/-- The registers of a per-value op, in ascending order. -/
def runValues (opcode : Nat) (o : LongOp) (d : Die) : Die :=
  let f := vecF o.x
  let n := if f.f64 then 32 else 64
  let sv := if f.f64 then o.sval.toNat else o.sval.toNat % 2 ^ 32
  (List.range (f.len + 1)).foldl (fun d i =>
    let as := vvals f.f64 (vreg d (f.va + i))
    let bs := if f.sb then List.replicate n sv else vvals f.f64 (vreg d (f.vb + i))
    let cs := vvals f.f64 (vreg d (f.vc + i))
    let rs := tabulate n (fun j => vecVal opcode o.x (as.getD j 0) (bs.getD j 0) (cs.getD j 0))
    raiseVec (rs.foldl (fun a r => flOr a r.2) fl0)
      (setVreg d (f.vd + i) (vlanes f.f64 (rs.map (·.1))))) d

/-- One register of VCVT (R186): new lanes, and flags. `old`: the destination's lanes before. To INT32, a value out of
range gives the nearest bound and a NaN 0, with `INVALID` alone (R129; DESIGN CHOICE, log 62). -/
def cvtReg (kind : Nat) (r : Rnd) (src old : List Nat) : List Nat × Fl :=
  let up (l : List Nat) := l.map (fun c => packF fmtB64 r false (decodeF fmtB32 c) false)
  let noIx (p : Nat × Fl) : Nat × Fl := (p.1, if p.2.inv then { p.2 with ix := false } else p.2)
  let fin (rs : List (Nat × Fl)) := rs.foldl (fun a x => flOr a x.2) fl0
  match kind with
  | 0 => let rs := up (src.take 32); (unpair64 (rs.map (·.1)), fin rs)
  | 1 => let rs := up (src.drop 32); (unpair64 (rs.map (·.1)), fin rs)
  | 2 =>
    let rs := (pairs64 src).map (fun c => packF fmtB32 r false (decodeF fmtB64 c) false)
    (rs.map (·.1) ++ List.replicate 32 0, fin rs)
  | 3 =>
    let rs := src.map (fun c => noIx (packInt 32 r (decodeF fmtB32 c)))
    (rs.map (·.1), fin rs)
  | 4 =>
    let rs := src.map (fun c => packF fmtB32 r false (intNum 32 c 0) false)
    (rs.map (·.1), fin rs)
  | 5 =>
    let rs := (pairs64 src).map (fun c => noIx (packInt 32 r (decodeF fmtB64 c)))
    (rs.map (·.1) ++ old.drop 32, fin rs)
  | _ =>
    let rs := (src.take 32).map (fun c => packF fmtB64 r false (intNum 32 c 0) false)
    (unpair64 (rs.map (·.1)), fin rs)

/-- VCVT (R186). -/
def runVcvt (o : LongOp) (d : Die) : Die :=
  let f := vecF o.x
  (List.range (f.len + 1)).foldl (fun d i =>
    let (ls, fl) := cvtReg (opField o.x 28 26) ((rndOf f.rnd).getD .rne) (vreg d (f.va + i))
      (vreg d (f.vd + i))
    raiseVec fl (setVreg d (f.vd + i) ls)) d

/-- One level of the tree of R187. -/
def reduceLevel (op : Nat) (fm : FFmt) : List Nat → List Nat × Fl
  | a :: b :: r =>
    let x := decodeF fm a
    let y := decodeF fm b
    let e := if op = 0 then exAdd .rne x y else exMinMax (decide (op = 1)) x y
    let (c, fl) := packEx fm .rne e
    let (cs, fl') := reduceLevel op fm r
    (c :: cs, flOr fl fl')
  | l => (l, fl0)

/-- The tree of R187 down to one value. -/
def reduceTree (op : Nat) (fm : FFmt) : (levels : Nat) → List Nat → List Nat × Fl
  | 0, l => (l, fl0)
  | n + 1, l =>
    let (l, fl) := reduceLevel op fm l
    let (l, fl') := reduceTree op fm n l
    (l, flOr fl fl')

/-- VREDUCE (R187). -/
def runVreduce (o : LongOp) (d : Die) : Die :=
  let f := vecF o.x
  let fm := if f.f64 then fmtB64 else fmtB32
  (List.range (f.len + 1)).foldl (fun d i =>
    let (l, fl) := reduceTree f.rnd fm (if f.f64 then 5 else 6) (vvals f.f64 (vreg d (f.va + i)))
    let vs := l.take 1 ++ List.replicate (if f.f64 then 31 else 63) 0
    raiseVec fl (setVreg d (f.vd + i) (vlanes f.f64 vs))) d

/-- VLOAD (R186, R177). -/
def runVload (o : LongOp) (d : Die) : Status × Die :=
  let f := vecF o.x
  let a := 256 * o.addr 29 12
  let (bs, lost, d) := spdRead 3 a (256 * (f.len + 1)) d
  let lanes := tabulate (64 * (f.len + 1)) (fun i =>
    if lost.contains (a / 4 + i) then 0x7FC00000 else natAt bs (4 * i) 4)
  (if lost.isEmpty then .ok else .poisoned,
    (List.range (f.len + 1)).foldl (fun d i =>
      setVreg d (f.vd + i) ((lanes.drop (64 * i)).take 64)) d)

/-- VSTORE (R186). -/
def runVstore (o : LongOp) (d : Die) : Die :=
  let f := vecF o.x
  let bs := (List.range (f.len + 1)).flatMap (fun i => (vreg d (f.vd + i)).flatMap (leBytes 4))
  spdWrite 3 (256 * o.addr 29 12) bs d

/-- A write to a register of the vector block (R151): the scale registers, the generators,
`GEN_MODE` by the management complex alone. -/
def vecRegWrite (mgmt : Bool) (o v : Nat) (d : Die) : Die :=
  let off := 0x40000 + o
  if o = 0x1000 then
    if mgmt then
      let d := if 1 < v then d.invalidWrite off else d
      d.put ⟨off, 0, 0⟩ v
    else d.invalidWrite off
  else if inArray o 0x100 8 16 then
    let d := if 2 ^ 22 ≤ v then d.invalidWrite off else d
    d.put ⟨off, 21, 0⟩ v
  else if inArray o 0x104 8 16 then
    if 0x7F800000 < v then d.invalidWrite off else d.setReg off v
  else if inArray o 0x1100 4 256 then d.setReg off v
  else d

/-- An op's effect when its turn comes in the vector queue (R188): its status, and the die with its
effect and, for VGET and VREG_READ, the value it writes on completion (R189). -/
def runVec (o : LongOp) (d : Die) : Status × Option (BitVec 5 × Word64) × Die :=
  let f := vecF o.x
  let opc := o.opcode.toNat
  let sr := BitVec.ofNat 5 f.sreg
  match opc with
  | 0x30 => (.ok, none, runVcvt o d)
  | 0x31 => (.ok, none, runVreduce o d)
  | 0x32 =>
    let (st, d) := runVload o d
    (st, none, d)
  | 0x33 => (.ok, none, runVstore o d)
  | 0x34 =>
    let n := if f.f64 then 32 else 64
    let v := if f.f64 then o.sval.toNat else o.sval.toNat % 2 ^ 32
    (.ok, none, (List.range (f.len + 1)).foldl (fun d i =>
      setVreg d (f.vd + i) (vlanes f.f64 (List.replicate n v))) d)
  | 0x35 =>
    let v := (vvals f.f64 (vreg d f.va)).getD (opField o.x 31 26) 0
    (.ok, some (sr, BitVec.ofNat 64 v), d)
  | 0x38 =>
    let (st, d) := runConvert o d
    (st, none, d)
  | 0x39 =>
    let (st, d) := runRngDraw o d
    (st, none, d)
  | 0x3A => (.ok, none, vecRegWrite false (opField o.x 27 12) (o.sval.toNat % 2 ^ 32) d)
  | 0x3B =>
    (.ok, some (sr, BitVec.ofNat 64 (d.reg (0x40000 + opField o.x 27 12))), d)
  | _ => (.ok, none, runValues opc o d)

/-- The first vector op that has not taken effect, if no marker stands before it (R188). -/
def nextVec : List LongOp → Option LongOp
  | [] => none
  | o :: rest =>
    if o.unit ≠ .vector || !o.pending then nextVec rest
    else match o.kind with
      | .op => some o
      | _ => none

/-- The vector unit works off its queue in order, up to a marker (R188). -/
def advanceVec : (fuel : Nat) → Die → Die
  | 0, d => d
  | n + 1, d =>
    if d.halted then d
    else match nextVec d.ops with
      | none => d
      | some o =>
        let d := freeLanes d
        let (st, res, d) := runVec o d
        let d := freeLanes d
        let d := d.add48 (talJob o.job.toNat + 8) (vecHs o.opcode.toNat o.x)
        advanceVec n (d.modOp o.id (fun p => { p with phase := .done st, result := res }))

/-- The vector unit after a change of its queue. -/
def vecGo (d : Die) : Die := advanceVec (d.ops.length + 1) d

/-- The issue of a vector op (R156, R188, R424). -/
def issueVec (opcode : Nat) (t : ThreadId) (w : OpWord) (fields : List (Nat × Nat))
    (chk : Die → Thread → Option Status) (d : Die) : Die :=
  issueLong opcode .vector t w fields chk
    (fun th o => { o with sval := th.sreg (opField w.x 49 45) })
    (fun o d => vecGo (payBucket o.job.toNat (3 * vecHs opcode o.x) d)) d

/-- A vector register op (R185, R186). -/
def dieVec (opcode : Nat) (t : ThreadId) (w : OpWord) (d : Die) : Die :=
  issueVec opcode t w (vecFields opcode) (vecChk opcode w) d

/-- CONVERT (R143, R144). -/
def dieConvert (t : ThreadId) (w : OpWord) (d : Die) : Die :=
  issueVec 0x38 t w [(22, 0), (40, 24), (57, 41), (74, 58), (90, 75)] (cvtChk w) d

/-- RNG_DRAW (R145). A region beyond the scratchpad is `MALFORMED` (DESIGN CHOICE, log 62). -/
def dieRngDraw (t : ThreadId) (w : OpWord) (d : Die) : Die :=
  issueVec 0x39 t w [(6, 0), (40, 24), (90, 75)]
    (fun _ th =>
      if 1 < opField w.x 6 5 then some .malformed
      else if !inSpd (512 * (opField w.x 40 24 + (oregOff th w).toNat)) (128 * opField w.x 90 75) then
        some .malformed
      else none) d

/-! ## The drain (R107 to R110, R188) -/

/-- The exact value of a tile element (R107). -/
def tileNum (int : Bool) (c : Nat) : Num := if int then intNum 32 c 0 else decodeF fmtB32 c

/-- One output element of a drain (R107, R134): its code, flags, and the value to record. -/
def drainElt (fmt : Nat) (r : Rnd) (int : Bool) (sx : Int) (c : Nat) : Nat × Fl :=
  if fmt = 5 then (c, fl0)
  else if fmt = 0 then
    if int then
      let (v, fl) := arrRound (intNum 32 c 0)
      (v, fl)
    else (c, fl0)
  else
    let f := match fmt with
      | 1 => fmtBF16
      | 2 => fmtFP16
      | 3 => fmtE4M3
      | _ => fmtE5M2
    packF f r false (scaleNum (tileNum int c) sx) false

/-- A binary32 maximum of R109: NaN if any is NaN, +0 above −0. -/
def statMax (a b : Num) : Num := if isNan a || isNan b then .nan false else maxNum a b

/-- A binary32 sum of R109: one rounding to nearest even. -/
def statAdd (a b : Num) : Num := decodeF fmtB32 (packEx fmtB32 .rne (exAdd .rne (quiet a) (quiet b))).1

/-- A value as a binary32 code, rounded to nearest even. -/
def statCode (x : Num) : Nat := (packF fmtB32 .rne false (quiet x) false).1

/-- Row statistics of one kind written at a port word (R109): merged with the old values where
`merge`; a destination that cannot be read becomes the canonical NaN (R177). -/
def writeStats (merge mx : Bool) (word : Nat) (vals : List Num) (d : Die) : Bool × Die :=
  let len := 4 * vals.length
  if merge then
    let (bs, lost, d) := spdRead 0 (512 * word) len d
    let new := tabulate vals.length (fun i =>
      if lost.contains (128 * word + i) then 0x7FC00000
      else
        let old := decodeF fmtB32 (natAt bs (4 * i) 4)
        let v := vals.getD i (.fin false 0 0)
        statCode (if mx then statMax old v else statAdd old v))
    (!lost.isEmpty, spdWrite 0 (512 * word) (new.flatMap (leBytes 4)) d)
  else (false, spdWrite 0 (512 * word) ((vals.map statCode).flatMap (leBytes 4)) d)

/-- The run of a DRAIN once its marker is at the head of the vector queue (R107 to R110, R116). A row's sum starts
from its first value (R109; DESIGN CHOICE, log 61). -/
def runDrain (o : LongOp) (d : Die) : Status × Die :=
  let m := opField o.x 10 9 + 1
  let n := opField o.x 12 11 + 1
  let fmt := opField o.x 16 13
  let sc := opField o.x 24 21
  let half := !activeHalf d
  let tiles := (groupTiles (opField o.x 8 5) m n).map (physTile half)
  if decide (fmt = 5) && !tiles.all (tileInt d) then (.malformed, d)
  else
    let stoch := bitOf o.x.toNat 17
    let sx := scaleExp d sc
    let codes := tiles.map (tileCodes d)
    let ints := tiles.map (tileInt d)
    let (draws, d) := if stoch then drawDrain (1024 * m * n) d else ([], d)
    let stream := decide (1 ≤ fmt ∧ fmt ≤ 4)
    let elts := (List.range (m * n)).map (fun i =>
      let int := ints.getD i false
      ((List.range 1024).map (fun k =>
        let c := (codes.getD i []).getD k 0
        let r : Rnd := if stoch then .stoch (BitVec.ofNat 32 (draws.getD (1024 * i + k) 0)) else .rne
        drainElt fmt r int sx c)))
    let d := if stream then
        (List.range (m * n)).foldl (fun d i => ((codes.getD i []).map
          (tileNum (ints.getD i false))).foldl (recordAmax sc) d) d
      else d
    let d := (List.range (m * n)).foldl (fun d i =>
      raiseTile (tiles.getD i 0) ((elts.getD i []).foldl (fun a e => flOr a e.2) fl0) d) d
    let at_ (l : List (List (Nat × Fl))) (r c : Nat) : Nat :=
      ((l.getD (r / 32 * n + c / 32) []).getD (r % 32 * 32 + c % 32) (0, fl0)).1
    let out := (List.range (32 * m)).flatMap (fun r => (List.range (32 * n)).flatMap (fun c =>
      leBytes (drainEltBytes fmt) (at_ elts r c)))
    let d := spdWrite 0 (512 * o.addr 41 25) out d
    let row (r : Nat) : List Num := (List.range (32 * n)).map (fun c =>
      let i := r / 32 * n + c / 32
      tileNum (ints.getD i false) ((codes.getD i []).getD (r % 32 * 32 + c % 32) 0))
    let rowMax := bitOf o.x.toNat 18
    let rowSum := bitOf o.x.toNat 19
    let merge := bitOf o.x.toNat 20
    let stat := o.addr 58 42
    let (bad1, d) := if rowMax then
        writeStats merge true stat ((List.range (32 * m)).map (fun r => match row r with
          | x :: xs => xs.foldl statMax x
          | [] => .fin false 0 0)) d
      else (false, d)
    let (bad2, d) := if rowSum then
        writeStats merge false (stat + bit rowMax) ((List.range (32 * m)).map (fun r => match row r with
          | x :: xs => xs.foldl statAdd (decodeF fmtB32 (statCode x))
          | [] => .fin false 0 0)) d
      else (false, d)
    (if bad1 || bad2 || tiles.any (fun t => d.flag 0x10014 t) then .poisoned else .ok, d)

/-- The DRAIN whose marker stands first in the vector queue (R188). -/
def headMarker : List LongOp → Option (Nat × Nat)
  | [] => none
  | o :: rest =>
    if o.unit ≠ .vector || !o.pending then headMarker rest
    else match o.kind with
      | .marker id => some (o.id, id)
      | _ => none

/-- DRAIN_START (R188): the marker has reached the head and the drain before it has completed; the drain runs,
the marker leaves, and what waited behind either queue moves on. -/
def dieDrainStart (d : Die) : Die :=
  if d.halted || decide (d.run ≠ .active) || d.clearing || arrBusy d 0x14 then d
  else match headMarker d.ops with
    | none => d
    | some (mk, id) =>
      match d.op? id with
      | none => d
      | some o =>
        let (st, d) := runDrain o d
        let d := { d with ops := d.ops.filter (fun p => decide (p.id ≠ mk)) }
        settle (arrayGo (vecGo (d.opDone id st)))

end Sys2Proof.Machine
end

