-- ==== Sys2Proof/Machine/Move.lean ====
section
/-! DEFINITION. The movement ops (R178 to R183): DMA, SKEWCOPY, WIDEN, GATHER, SCATTER, and the DMA
engine that starts them. -/

namespace Sys2Proof.Machine

/-- The requester that a movement op is (R289, R388). -/
def dmaReq (d : Die) (o : LongOp) (write : Bool) : Req := ⟨.dma, write, d.world, o.job.toNat⟩

/-- The offsets, within a byte range at LPDDR offset `a`, of the 32-bit words of the halves `hs`. -/
def halfWords (a len : Nat) (hs : List Nat) : List Nat :=
  (List.range (len / 4)).filter (fun i => hs.contains ((a + 4 * i) / 32))

/-- 32-bit words of the scratchpad, at word offsets `ws` from byte `a`, get check bits that read as
uncorrectable (R177, R283). -/
def spdSpoil (a : Nat) (ws : List Nat) (d : Die) : Die :=
  ws.foldl (fun d i => { d with spdMarks := tabSet goodSpd d.spdMarks (a / 4 + i) .double }) d

/-- LPDDR bytes placed in the scratchpad by the DMA engine: words of unreadable halves read as
uncorrectable (R283). -/
def placeLp (a spw : Nat) (bs : Bytes) (bad : List Nat) (d : Die) : Die :=
  spdSpoil spw (halfWords a bs.length bad) (spdWrite 1 spw bs d)

/-- Scratchpad bytes written to LPDDR: each 64-byte unit with a lost word carries the poison mark
(R177, R284). `lost`: 32-bit words of the scratchpad; `spw`: the first byte's place there. -/
def writeUnits (r : Req) (a spw : Nat) (bs : Bytes) (lost : List Nat) (d : Die) : Die :=
  let d := lpStore r a bs d
  let units := (lost.filter (fun w => decide (spw / 4 ≤ w) && decide (w < (spw + bs.length) / 4))).map
    (fun w => (a + (4 * w - spw) / 64 * 64) / 32)
  lpPoison (units.flatMap (fun h => [h, h + 1])) d

/-- A status with the refusal first (R178). -/
def moveStatus (ref : Option Status) (poisoned : Bool) : Status :=
  match ref with
  | some st => st
  | none => if poisoned then .poisoned else .ok

/-- Records the refusal of a unit. -/
def noteRefusal (r : Req) (a : Nat) (st : Option Status) (d : Die) : Die :=
  match st with
  | some s => regionRefused r a s d
  | none => d

/-- DMA (R178). -/
def runDma (o : LongOp) (d : Die) : Status × Die :=
  let toLp := bitOf o.x.toNat 5
  let spw := 512 * o.addr 22 6
  let mem := 64 * o.addr 51 23
  let n := 8 * opField o.x 68 52
  let r := dmaReq d o toLp
  let (ok, st) := unitsOk d r n mem
  let d := noteRefusal r (mem + 64 * ok) st d
  if toLp then
    let (bs, lost, d) := spdRead 1 spw (64 * ok) d
    (moveStatus st (!lost.isEmpty), writeUnits r mem spw bs lost d)
  else
    let (bs, bad, d) := lpRead mem (64 * ok) d
    (moveStatus st (!bad.isEmpty), placeLp mem spw bs bad d)

/-! ## SKEWCOPY (R179, R180) -/

/-- The fields of a SKEWCOPY (R179). -/
structure SkewF where
  roleB : Bool
  inSp : Bool
  fmt : Nat
  tiles : Nat
  n : Nat
  dest : Nat
  dstride : Nat
  ks : Nat
  src : Nat
  deriving DecidableEq, Repr

/-- The fields from the operands, addresses with their `OREG` offset; `src` in bytes. -/
def skewF (x : BitVec 96) (off : Nat) : SkewF :=
  let sp := bitOf x.toNat 6
  ⟨bitOf x.toNat 5, sp, opField x 10 7, opField x 12 11 + 1, opField x 14 13 + 1,
    opField x 31 15 + off, opField x 47 32, opField x 63 48,
    if sp then 512 * (opField x 80 64 + off) else 64 * (opField x 92 64 + off)⟩

/-- Bytes of elements of one line that one K-slice takes (R180). -/
def lineBytes (f : Nat) : Nat := fmtK f * fmtBits f / 8

/-- The pitch of the source's lines (R180). -/
def skewPitch (f : SkewF) : Nat :=
  let kt := f.ks * fmtK f.fmt
  roundUp (kt * fmtBits f.fmt / 8 + (if fmtMx f.fmt then kt / 32 else 0)) 64

/-- Bytes of the whole source. -/
def skewSrcLen (f : SkewF) : Nat := if f.ks = 0 then 0 else 32 * f.tiles * skewPitch f

/-- Bytes of one block. -/
def skewBlock (f : SkewF) : Nat := 512 * blockWords f.fmt f.tiles

/-- Output and source share a byte of the scratchpad. -/
def skewOverlap (f : SkewF) : Bool :=
  f.inSp && (List.range f.ks).any (fun k =>
    overlaps (512 * (f.dest + k * f.dstride)) (skewBlock f) f.src (skewSrcLen f))

/-- The checks of a SKEWCOPY, in order (R180). -/
def skewChk (w : OpWord) (_ : Die) (th : Thread) : Option Status :=
  let f := skewF w.x (oregOff th w).toNat
  if decide (12 < f.fmt) || (f.roleB && decide (opField w.x 14 13 ≠ 0)) ||
      (f.inSp && decide (opField w.x 92 81 ≠ 0)) then some .malformed
  else if f.dstride < blockWords f.fmt f.tiles then some .malformed
  else if 0 < f.ks ∧ spdWords < f.dest + (f.ks - 1) * f.dstride + blockWords f.fmt f.tiles then
    some .malformed
  else if 0 < f.ks ∧ (if f.inSp then spdBytes else 2 ^ 35) < f.src + skewSrcLen f then some .malformed
  else if skewOverlap f then some .malformed
  else none

/-- Pieces of source that block `k` is built from, in the order of its bytes: the scale word first,
then the slices in skewed order (R88, R90, R180). Each piece is a source offset and its length; an
offset of none is zero filling. -/
def skewPieces (f : SkewF) (k : Nat) : List (Option Nat × Nat) :=
  let pitch := skewPitch f
  let kt := f.ks * fmtK f.fmt
  let nb := fmtK f.fmt / 32
  let lb := lineBytes f.fmt
  let scales : List (Option Nat × Nat) :=
    if fmtMx f.fmt then
      (List.range (32 * f.tiles)).map (fun l =>
        (some (l * pitch + kt * fmtBits f.fmt / 8 + k * nb), nb)) ++
        [(none, 512 - 32 * f.tiles * nb)]
    else []
  let order := (List.range (8 * f.tiles)).map (fun p =>
    ((List.range (8 * f.tiles)).find? (fun s =>
      decide (slicePos f.roleB f.n f.tiles (s / 8) (s % 8) = p))).getD 0)
  scales ++ order.flatMap (fun s =>
    (List.range 4).map (fun q => (some ((32 * (s / 8) + 4 * (s % 8) + q) * pitch + k * lb), lb)) ++
      (if 4 * lb < sliceBytes f.fmt then [(none, sliceBytes f.fmt - 4 * lb)] else []))

/-- The LPDDR units that the pieces need, from `src`. -/
def pieceUnits (src : Nat) (ps : List (Option Nat × Nat)) : List Nat :=
  ps.flatMap (fun p => match p.1 with
    | some o => tabulate ((src + o + p.2 - 1) / 64 - (src + o) / 64 + 1)
        (fun i => 64 * ((src + o) / 64 + i))
    | none => [])

/-- The bytes of a block and, for each, whether its source could not be read. -/
def skewBytes (f : SkewF) (ps : List (Option Nat × Nat)) (d : Die) : List (Byte × Bool) × Die :=
  ps.foldl (fun (acc : List (Byte × Bool) × Die) p =>
    match p.1 with
    | none => (acc.1 ++ List.replicate p.2 (0, false), acc.2)
    | some o =>
      let a := f.src + o
      let (bs, lost, d) := if f.inSp then spdRead 1 a p.2 acc.2 else lpRead a p.2 acc.2
      let g := if f.inSp then 4 else 32
      (acc.1 ++ bs.zipIdx.map (fun b => (b.1, lost.contains ((a + b.2) / g))), d)) ([], d)

/-- The blocks of a SKEWCOPY in ascending k, up to the first that a refused unit stops (R180). -/
def skewBlocks (f : SkewF) (r : Req) : (n k : Nat) → Bool → Die → Status × Die
  | 0, _, bad, d => (if bad then .poisoned else .ok, d)
  | n + 1, k, bad, d =>
    let ps := skewPieces f k
    let ref := if f.inSp then none
      else (pieceUnits f.src ps).findSome? (fun u => (regionChk d r u 64).map (fun st => (u, st)))
    match ref with
    | some (u, st) => (st, regionRefused r u st d)
    | none =>
      let (cells, d) := skewBytes f ps d
      let a := 512 * (f.dest + k * f.dstride)
      let d := spdWrite 1 a (cells.map (·.1)) d
      let ws := (List.range (cells.length / 4)).filter (fun i =>
        ((cells.drop (4 * i)).take 4).any (·.2))
      skewBlocks f r n (k + 1) (bad || !ws.isEmpty) (spdSpoil a ws d)

/-- SKEWCOPY (R180). -/
def runSkew (o : LongOp) (d : Die) : Status × Die :=
  let f := skewF o.x o.off.toNat
  skewBlocks f (dmaReq d o false) f.ks 0 false d

/-! ## WIDEN (R181) -/

/-- The fields of a WIDEN (R181), addresses in bytes. -/
structure WidenF where
  src : Nat
  dst : Nat
  pSrc : Nat
  mem : Bool
  pDst : Nat
  count : Nat
  deriving DecidableEq, Repr

/-- The fields from the operands. -/
def widenF (x : BitVec 96) (off : Nat) : WidenF :=
  let mem := bitOf x.toNat 30
  ⟨opField x 8 5, opField x 12 9, 512 * (opField x 29 13 + off), mem,
    if mem then 64 * (opField x 59 31 + off) else 512 * (opField x 47 31 + off), opField x 75 60⟩

/-- Bytes of a source block: a scale byte, where the format has one, then 32 elements (R181). -/
def widenBlock (f : Nat) : Nat := bit (fmtMx f) + 4 * fmtBits f

/-- Bytes of a destination block. -/
def widenOut (dst : Nat) : Nat := if dst = 10 then 64 else 128

/-- The checks of a WIDEN, in order (R181). -/
def widenChk (w : OpWord) (_ : Die) (th : Thread) : Option Status :=
  let f := widenF w.x (oregOff th w).toNat
  let ls := f.count * widenBlock f.src
  let ld := f.count * widenOut f.dst
  if (5 < f.src ∧ f.src ≠ 9) ∨ (f.dst ≠ 10 ∧ f.dst ≠ 12) ∨ (!f.mem ∧ opField w.x 59 48 ≠ 0) then
    some .malformed
  else if !inSpd f.pSrc ls then some .malformed
  else if (if f.mem then 2 ^ 35 else spdBytes) < f.pDst + ld ∧ 0 < ld then some .malformed
  else if !f.mem && overlaps f.pSrc ls f.pDst ld then some .malformed
  else none

/-- The output codes of a WIDEN and, for each element, whether its source was lost (R177, R181). -/
def widenElts (f : WidenF) (bs : Bytes) (lost : List Nat) : List ((Nat × Fl) × Bool) :=
  let bl := widenBlock f.src
  let s := bit (fmtMx f.src)
  let bits := fmtBits f.src
  (List.range f.count).flatMap (fun q =>
    let codes := unpackCodes bits 32 (sliceB bs (q * bl + s) (4 * bits))
    let sc := natAt bs (q * bl) 1
    (List.range 32).map (fun i =>
      let (c, fl, _) := cvtDest f.dst .rne false 0 (cvtSource f.src (codes.getD i 0) sc 0 0)
      let lo := f.pSrc + q * bl + s + i * bits / 8
      let hi := f.pSrc + q * bl + s + (i * bits + bits - 1) / 8
      let gone := lost.any (fun w => (decide (lo / 4 ≤ w) && decide (w ≤ hi / 4)) ||
        (decide (s = 1) && decide (w = (f.pSrc + q * bl) / 4)))
      ((c, fl), gone)))

/-- WIDEN (R181): flags go to `VEC_FLAGS`. -/
def runWiden (o : LongOp) (d : Die) : Status × Die :=
  let f := widenF o.x o.off.toNat
  let (bs, lost, d) := spdRead 1 f.pSrc (f.count * widenBlock f.src) d
  let es := widenElts f bs lost
  let d := raiseVec (es.foldl (fun a e => flOr a e.1.2) fl0) d
  let eb := if f.dst = 10 then 2 else 4
  let out := es.flatMap (fun e => leBytes eb e.1.1)
  let gone := (List.range es.length).filter (fun i => (es.getD i ((0, fl0), false)).2)
  if f.mem then
    let r := dmaReq d o true
    let (ok, st) := unitsOk d r (out.length / 64) f.pDst
    let d := noteRefusal r (f.pDst + 64 * ok) st d
    let d := lpStore r f.pDst (out.take (64 * ok)) d
    let hs := gone.map (fun i => (f.pDst + i * eb / 64 * 64) / 32)
    let hs := (hs.filter (fun h => decide (32 * h < f.pDst + 64 * ok))).flatMap (fun h => [h, h + 1])
    (moveStatus st (!lost.isEmpty), lpPoison hs d)
  else
    let d := spdWrite 1 f.pDst out d
    (moveStatus none (!lost.isEmpty), spdSpoil f.pDst (gone.map (fun i => i * eb / 4)) d)

/-! ## GATHER and SCATTER (R182, R296) -/

/-- The fields of a GATHER or SCATTER are sound: both regions lie in the scratchpad (R10, R153). -/
def needleChk (w : OpWord) (_ : Die) (th : Thread) : Option Status :=
  let off := (oregOff th w).toNat
  let n := opField w.x 84 69
  if !inSpd (512 * (opField w.x 21 5 + off)) (4 * n) ||
      !inSpd (512 * (opField w.x 38 22 + off)) (32 * n) then some .malformed
  else none

/-- An item that a GATHER has read: its place in the data, its bytes, and whether they could be read. -/
abbrev Gathered := Nat × Bytes × Bool

/-- The items of a GATHER that belong to one port word of its data, 16 to a word, are written to it together
(R182); the words of an item that could not be read will read as uncorrectable (R283). -/
def gatherWord (data w : Nat) (items : List Gathered) (d : Die) : Die :=
  let mine := items.filter (fun e => decide (e.1 / 16 = w))
  if mine.isEmpty then d
  else mine.foldl (fun d e =>
    let a := data + 32 * e.1
    let d := { spdClearMarks d a 32 with spd := tabPut zeroByte d.spd a e.2.1 }
    if e.2.2 then spdSpoil a (List.range 8) d else d) (spdGrant 1 1 d)

/-- Every word of a GATHER's data is written once, in ascending order. -/
def gatherWords (data n : Nat) (items : List Gathered) (d : Die) : Die :=
  (List.range (ceilDiv n 16)).foldl (fun d w => gatherWord data w items d) d

/-- What the items of a GATHER or SCATTER have come to: the first skipped item's status, whether anything was
lost, the items read, and the die. -/
structure NeedleAcc where
  st : Option Status := none
  bad : Bool := false
  items : List Gathered := []
  d : Die

/-- One item of a GATHER or SCATTER, item `j` (R182, R296): an unreadable index names none (log 16); an item
out of range or refused is skipped; a SCATTER of unreadable data marks the unit (R177). -/
def needleItem (write : Bool) (r : Req) (base data j : Nat) (i : Option Nat) (x : NeedleAcc) : NeedleAcc :=
  match i with
  | none => { x with bad := true }
  | some i =>
    let a := (base + i) * 32
    if 2 ^ 35 ≤ a then { x with st := x.st.or (some .malformed) }
    else match regionChk x.d r a 32 with
      | some s => { x with st := x.st.or (some s), d := regionRefused r a s x.d }
      | none =>
        if write then
          let (bs, lost, d) := spdRead 1 (data + 32 * j) 32 x.d
          let d := lpStore r a bs d
          let unit := a / 64 * 2
          { x with bad := x.bad || !lost.isEmpty, d := if lost.isEmpty then d else lpPoison [unit, unit + 1] d }
        else
          let (bs, lost, d) := lpRead a 32 x.d
          { x with bad := x.bad || !lost.isEmpty, items := x.items ++ [(j, bs, !lost.isEmpty)], d := d }

/-- The items in index order. -/
def needleItems (write : Bool) (r : Req) (base data : Nat) (idx : List (Option Nat)) (d : Die) : NeedleAcc :=
  idx.zipIdx.foldl (fun x e => needleItem write r base data e.2 e.1 x) { d := d }

/-- GATHER and SCATTER (R182, R296). An index that cannot be read names no item: it is skipped and the
op is `POISONED` (log 16). -/
def runNeedle (write : Bool) (o : LongOp) (d : Die) : Status × Die :=
  let idx := 512 * o.addr 21 5
  let data := 512 * o.addr 38 22
  let n := opField o.x 84 69
  let (bs, lost, d) := spdRead 1 idx (4 * n) d
  let is := tabulate n (fun i =>
    if lost.contains (idx / 4 + i) then none else some (natAt bs (4 * i) 4))
  let r : Req := ⟨.needle, write, d.world, o.job.toNat⟩
  let x := needleItems write r (o.addr 68 39) data is d
  (moveStatus x.st x.bad, gatherWords data n x.items x.d)

/-! ## The DMA engine (R183) -/

/-- What an op of the DMA engine does once it is in progress. -/
def runMove (o : LongOp) (d : Die) : Status × Die :=
  match o.opcode.toNat with
  | 0x40 => runDma o d
  | 0x41 => runSkew o d
  | 0x42 => runNeedle false o d
  | 0x43 => runNeedle true o d
  | _ => runWiden o d

/-- The extents of LPDDR that a movement op reaches, and whether by the needle path. -/
def moveExtents (o : LongOp) (d : Die) : Bool × List (Nat × Nat) :=
  match o.opcode.toNat with
  | 0x40 => (false, [(64 * o.addr 51 23, 512 * opField o.x 68 52)])
  | 0x41 =>
    let f := skewF o.x o.off.toNat
    (false, if f.inSp then [] else [(f.src, skewSrcLen f)])
  | 0x44 =>
    let f := widenF o.x o.off.toNat
    (false, if f.mem then [(f.pDst, f.count * widenOut f.dst)] else [])
  | _ =>
    let bs := tabSlice zeroByte d.spd (512 * o.addr 21 5) (4 * opField o.x 84 69)
    (true, tabulate (opField o.x 84 69) (fun i => ((o.addr 68 39 + natAt bs (4 * i) 4) * 32, 32)))

/-- The op's channels serve it, and the scratchpad its client (R175, R292, R299, R302). -/
def moveServed (o : LongOp) (d : Die) : Bool :=
  let (needle, es) := moveExtents o d
  !d.clearing && es.all (fun e => lpServes needle e.1 e.2 d)

/-- Ops of the DMA engine in progress. -/
def dmaActive (d : Die) : Nat :=
  (d.ops.filter (fun o => decide (o.unit = .dma) && decide (o.phase ≠ .queued))).length

/-- Queued ops start while fewer than 16 are in progress (R183). -/
def startDma : (fuel : Nat) → Die → Die
  | 0, d => d
  | n + 1, d =>
    if 16 ≤ dmaActive d then d
    else match d.ops.find? (fun o => decide (o.unit = .dma) && decide (o.phase = .queued)) with
      | none => d
      | some o => startDma n (d.modOp o.id (fun o => { o with phase := .running }))

/-- The engine starts queued ops, and carries out those in progress that the memory serves; the others wait
for it. -/
def advanceDma (fuel : Nat) (d : Die) : Die :=
  let d := startDma fuel d
  (d.ops.filter (fun o => decide (o.unit = .dma) && decide (o.phase = .running))).foldl (fun d o =>
    if moveServed o d then
      let (st, d) := runMove o d
      d.opDone o.id st
    else d) d

/-- The DMA engine after a change of its queue. -/
def dmaGo (d : Die) : Die := advanceDma (d.ops.length + 1) d

/-- The issue of a movement op. -/
def issueMove (opcode : Nat) (t : ThreadId) (w : OpWord) (fields : List (Nat × Nat))
    (chk : Die → Thread → Option Status) (d : Die) : Die :=
  issueLong opcode .dma t w fields chk (fun _ o => o) (fun _ d => dmaGo d) d

/-- DMA (R178). -/
def dieDma (t : ThreadId) (w : OpWord) (d : Die) : Die :=
  issueMove 0x40 t w [(68, 0)] (fun _ th =>
    let off := (oregOff th w).toNat
    let n := opField w.x 68 52
    if spdWords < opField w.x 22 6 + off + n then some .malformed
    else if 2 ^ 35 < 64 * (opField w.x 51 23 + off) + 512 * n then some .malformed
    else none) d

/-- SKEWCOPY (R179). -/
def dieSkewcopy (t : ThreadId) (w : OpWord) (d : Die) : Die :=
  issueMove 0x41 t w [(92, 0)] (skewChk w) d

/-- GATHER (R182). -/
def dieGather (t : ThreadId) (w : OpWord) (d : Die) : Die :=
  issueMove 0x42 t w [(4, 0), (84, 5)] (needleChk w) d

/-- SCATTER (R182). -/
def dieScatter (t : ThreadId) (w : OpWord) (d : Die) : Die :=
  issueMove 0x43 t w [(4, 0), (84, 5)] (needleChk w) d

/-- WIDEN (R181). -/
def dieWiden (t : ThreadId) (w : OpWord) (d : Die) : Die :=
  issueMove 0x44 t w [(75, 0)] (widenChk w) d

/-- Every unit works off what its queue allows (R164). -/
def unitsGo (d : Die) : Die := dmaGo (vecGo (arrayGo d))

/-- Whether an op's place in its unit's order lets it complete now (R164): in queue order for the
array, where an MMA may pass a DRAIN, and for the vector unit. -/
def mayComplete (d : Die) (o : LongOp) : Bool :=
  match o.unit with
  | .vector => d.ops.all (fun p => decide (o.id ≤ p.id) || decide (p.unit ≠ .vector) ||
      decide (p.kind ≠ .op))
  | .array => d.ops.all (fun p => decide (o.id ≤ p.id) || decide (p.unit ≠ .array) ||
      decide (p.kind ≠ .op) || (decide (p.opcode = 0x14) && decide (o.opcode = 0x10)))
  | _ => true

/-- OP_COMPLETION (R163): a finished op leaves its unit, its token counts down, a status that is not
`OK` is recorded, a fault or the end of its thread follows, and its unit moves on. -/
def dieOpCompletion (id : Nat) (d : Die) : Die :=
  match d.op? id with
  | none => d
  | some o =>
    match o.phase with
    | .done st =>
      if o.kind = .op ∧ mayComplete d o ∧ !(d.halted ∧ (o.unit = .array ∨ o.unit = .vector)) then
        settle (unitsGo (landGen (finishOp id st d)))
      else d
    | _ => d

end Sys2Proof.Machine
end

