-- ==== Sys2Proof/Machine/MemCtl.lean ====
section
/-! DEFINITION. The rows of the memory controllers (R282 to R302): requests, queues, write-backs,
scrubbing, refresh, temperature, and the traffic generators. -/

namespace Sys2Proof.Machine

/-- The requester of a request as the region table sees it. -/
def mcReqOf (r : McReq) : Req := ⟨r.cls, r.write, r.secure, r.job.toNat⟩
/-- Bytes that a request moves: a half on the needle path, a unit otherwise; a write what it
carries. -/
def mcLen (r : McReq) : Nat :=
  if r.write then r.data.length else if r.cls = .needle then 32 else 64

/-- A controller has room for a request (R292, R296). -/
def mcRoom (d : Die) (mc : Bool) (r : McReq) : Bool :=
  slotFree d (decide (r.cls = .needle)) mc (mcChannel r.addr.toNat)

/-- A write enters the write queue of its channel and is answered: later reads return it (R292,
R293). -/
def mcStore (mc : Bool) (s : McSlot) (d : Die) : Die :=
  let a := s.req.addr.toNat
  let d := if a % 32 = 0 ∧ s.req.data.length % 32 = 0 then lpWrite a s.req.data d
    else lpWritePart a s.req.data d
  setMcQueue mc (mcQueue d mc ++ [{ s with answered := true, since := d.rrc }])
    { d with mcOut := d.mcOut ++ [(s.req.cls, .ok, [])] }

/-- The waiting writes of a channel enter its queue while it has room, in order (R292). -/
def mcAdmit (mc : Bool) : List McSlot → Die → Die
  | [], d => d
  | s :: rest, d =>
    let ch := s.channel.toNat
    if s.req.write ∧ mcServes d mc ch ∧ mcDepth d mc ch < 64 then mcAdmit mc rest (mcStore mc s d)
    else mcAdmit mc rest (setMcSlots mc (mcSlots d mc ++ [s]) d)

/-- A controller's waiting writes are offered again. -/
def mcGo (mc : Bool) (d : Die) : Die := mcAdmit mc (mcSlots d mc) (setMcSlots mc [] d)

/-- What waits for the memory is offered again once a channel serves or a slot is free: the controller's
writes, ops of the DMA engine, spilled beads that a RECV copies, sends from LPDDR. -/
def memGo (mc : Bool) (d : Die) : Die := settle (sendsGo (serveRods (unitsGo (mcGo mc d))))

/-- MC_REQUEST (R290, R292): a full controller takes the request later, a refused one moves no data. -/
def dieMcRequest (r : McReq) (d : Die) : Die :=
  let a := r.addr.toNat
  let mc := decide (2 ^ 34 ≤ a)
  if !mcOpen d mc ∨ !mcRoom d mc r then d
  else match regionChk d (mcReqOf r) a (mcLen r) with
    | some st =>
      let d := regionRefused (mcReqOf r) a st d
      { d with mcOut := d.mcOut ++ [(r.cls, st, [])] }
    | none => mcGo mc (setMcSlots mc
        (mcSlots d mc ++ [⟨r, BitVec.ofNat 2 (mcChannel a), false, d.rrc⟩]) d)

/-! ### The order of a channel (R294) -/

/-- The number of a bank among the die's. -/
def bankKey (mc : Bool) (ch page : Nat) : Nat :=
  64 * mcIx mc + 16 * ch + 4 * pageBg page + pageBank page

/-- The page of an offset is open in its bank. -/
def pageOpen (d : Die) (mc : Bool) (a : Nat) : Bool :=
  decide (tabGet (fun _ => 0) d.openPage (bankKey mc (mcChannel a) (lpPage a)) = lpPage a + 1)

/-- The page of an offset is opened. -/
def openPageAt (mc : Bool) (a : Nat) (d : Die) : Die :=
  { d with openPage := tabSet (fun _ => 0) d.openPage (bankKey mc (mcChannel a) (lpPage a)) (lpPage a + 1) }

/-- A channel's write queue is due to drain: its batch is full, or a write has waited 200 ticks. -/
def drainDue (d : Die) (mc : Bool) (ch : Nat) : Bool :=
  let q := (mcQueue d mc).filter (fun s => decide (s.channel.toNat = ch))
  decide (d.get ⟨mcReg mc + 4, 6, 0⟩ ≤ q.length) || q.any (fun s => decide (200 ≤ (d.rrc - s.since).toNat))

/-- The outstanding reads of a channel, each with its place among the controller's requests. -/
def channelReads (d : Die) (mc : Bool) (ch : Nat) : List (McSlot × Nat) :=
  (mcSlots d mc).zipIdx.filter (fun e => !e.1.req.write && decide (e.1.channel.toNat = ch))

/-- The read that a channel serves next: normal and needle reads by turns where both wait, of one kind the
oldest with its page open, else the oldest. -/
def nextRead (d : Die) (mc : Bool) (ch : Nat) : Option (McSlot × Nat) :=
  let l := channelReads d mc ch
  let needle := l.filter (fun e => isNeedle e.1)
  let normal := l.filter (fun e => !isNeedle e.1)
  let turn := if needle.isEmpty then normal else if normal.isEmpty then needle
    else if tabGet (fun _ => false) d.lastNeedle (4 * mcIx mc + ch) then normal else needle
  (turn.find? (fun e => pageOpen d mc e.1.req.addr.toNat)).or turn.head?

/-- MC_READ_RETURN (R281 to R283, R294): the data of outstanding request `i`, the read that its channel serves
next, returns. -/
def dieMcReadReturn (mc : Bool) (i : Nat) (d : Die) : Die :=
  match (mcSlots d mc)[i]? with
  | none => d
  | some s =>
    let ch := s.channel.toNat
    if !mcServes d mc ch ∨ drainDue d mc ch ∨ (nextRead d mc ch).map (·.2) ≠ some i then d
    else
      let d := openPageAt mc s.req.addr.toNat d
      let d := { d with lastNeedle := tabSet (fun _ => false) d.lastNeedle (4 * mcIx mc + ch) (isNeedle s) }
      let (bs, bad, d) := lpRead s.req.addr.toNat (mcLen s.req) d
      let st := if bad.isEmpty then Status.ok else .poisoned
      memGo mc (setMcSlots mc ((mcSlots d mc).eraseIdx i)
        { d with mcOut := d.mcOut ++ [(s.req.cls, st, bs)] })

/-- WRITE_BATCH_DRAIN (R294): once it is due, the channel's whole queue goes to the memory, and waiting
writes enter. -/
def dieWriteBatchDrain (mc : Bool) (ch : Nat) (d : Die) : Die :=
  if !mcServes d mc ch ∨ !drainDue d mc ch then d
  else
    let q := (mcQueue d mc).filter (fun s => decide (s.channel.toNat = ch))
    memGo mc (drainChannel mc ch (q.foldl (fun d s => openPageAt mc s.req.addr.toNat d) d))

/-- No outstanding request wants a channel's command slots (R282, R285). -/
def channelIdle (d : Die) (mc : Bool) (ch : Nat) : Bool :=
  mcServes d mc ch && (mcSlots d mc).all (fun s => decide (s.channel.toNat ≠ ch))

/-- MC_ECC_WRITE_BACK (R282): at an idle command slot of the half's channel. -/
def dieMcEccWriteBack (mc : Bool) (d : Die) : Die :=
  match tabGet (fun _ => none) d.lpWb (mcIx mc) with
  | none => d
  | some h =>
    if !channelIdle d mc (mcChannel (32 * h)) then d else
    let d := { d with lpWb := tabSet (fun _ => none) d.lpWb (mcIx mc) none }
    if tabGet goodLp d.lpMarks h = .single then
      { d with lpMarks := tabSet goodLp d.lpMarks h .good }
    else d

/-- Data halves of a controller (R280). -/
def mcHalves : Nat := 15 * 2 ^ 30 / 32

/-- PATROL_SCRUB (R285): the next half of the pass is read, in ascending order of halves (log 18), in a command
slot of its channel that no request wants. -/
def diePatrolScrub (mc : Bool) (d : Die) : Die :=
  let k := tabGet (fun _ => 0) d.scrubPos (mcIx mc)
  let h := (if mc then 2 ^ 29 else 0) + k
  if !channelIdle d mc (mcChannel (32 * h)) ∨ !d.flag (mcReg mc + 4) 8 then d
  else
    let d := lpTouch d (h, tabGet goodLp d.lpMarks h)
    let last := decide (k + 1 = mcHalves)
    let d := { d with scrubPos := tabSet (fun _ => 0) d.scrubPos (mcIx mc) (if last then 0 else k + 1) }
    if last then d.count (mcReg mc + 0x24) 1 else d

/-- REFRESH (R298): a refresh of a channel takes time and changes no state that the rules name. -/
def dieRefresh (_mc : Bool) (_ch : Nat) (d : Die) : Die := d

/-- TEMP_READOUT (R298, R299). -/
def dieTempReadout (mc : Bool) (celsius : Nat) (d : Die) : Die :=
  let b := mcReg mc
  let was := d.flag b 2
  let d := d.put ⟨b, 15, 8⟩ celsius
  let d := if 95 ≤ celsius then d.put ⟨b, 2, 2⟩ 1 else if celsius < 92 then d.put ⟨b, 2, 2⟩ 0 else d
  let d := if 95 ≤ celsius ∧ !was then (d.setFlag (b + 8) 1).event b else d
  let d := if 105 ≤ celsius then d.put ⟨b, 3, 3⟩ 1 else if celsius ≤ 100 then d.put ⟨b, 3, 3⟩ 0 else d
  memGo mc d

/-! ## The traffic generators (R302) -/

/-- The LPDDR offset of unit `u` of a channel (R280). -/
def tgUnit (mc : Bool) (ch u : Nat) : Nat := (if mc then 2 ^ 34 else 0) + 64 * (4 * u + ch)

/-- `n` draws from a generator state (R146). -/
def tgDraws : (n a b : Nat) → List Nat
  | 0, _, _ => []
  | n + 1, a, b =>
    let (out, a', b') := genStep a b
    out :: tgDraws n a' b'

/-- The pattern of a half (R302): eight draws seeded with `SEED` and its channel number plus 1. -/
def tgPattern (seed half : Nat) : Bytes := (tgDraws 8 seed (half + 1)).flatMap (leBytes 4)

/-- TG_START: a write of `MCx_TGc_CTL` (R302). `formed`: the die belongs to a formed partition. -/
def dieTgStart (mgmt formed mc : Bool) (ch v : Nat) (d : Die) : Die :=
  let o := tgReg mc ch
  if !mgmt then d.invalidWrite (mcReg mc)
  else
    let bad := decide (5 < bitsOf v 2 0)
    let d := if bad || decide (bitsOf v 31 6 ≠ 0) then d.invalidWrite (mcReg mc) else d
    let d := if bad then d else d.put ⟨o, 2, 0⟩ v
    let d := d.put ⟨o, 3, 3⟩ (bitsOf v 3 3)
    if !bitOf v 4 then d
    else if formed ∨ tgBusy d mc ch ∨ 2 ^ 21 < d.reg (o + 4) + d.reg (o + 8) then
      (d.setFlag (mcReg mc + 8) 3).event (mcReg mc)
    else (d.put ⟨o, 5, 5⟩ 1).setReg (o + 0x24) 0

/-- The units of a pass and whether each is written (R302). In the random modes each address is a draw
whose mapping the spec does not give, and in MIX_2_1 the place of the writes among the reads is not
given: free values (log 2). -/
def tgUnits (mode first pages : Nat) (d : Die) : List (Nat × Bool) :=
  let n := 30 * pages
  let lo := 30 * first
  let f (i : Nat) : Nat := (Config.freeDie d.phys (d.free + i)).toNat
  match mode with
  | 0 => tabulate n (fun i => (lo + i, false))
  | 1 => tabulate n (fun i => (lo + i, true))
  | 2 => tabulate n (fun i => (lo + i, decide ((i + f 0) % 3 = 2)))
  | _ => tabulate n (fun i => (lo + f i % n, decide (mode = 5)))

/-- The halves that an access touches: both of its unit, or on the needle path one. -/
def tgHalves (mode i : Nat) (d : Die) (u : Nat) : List Nat :=
  if mode = 4 ∨ mode = 5 then
    [2 * u + (Config.freeDie d.phys (d.free + i)).toNat / 2 ^ 32 % 2] else [2 * u, 2 * u + 1]

/-- One half of a pass: written with its pattern, or read and compared. -/
def tgHalf (mc : Bool) (ch : Nat) (write : Bool) (k : Nat) (d : Die) : Die :=
  let o := tgReg mc ch
  let a := tgUnit mc ch (k / 2) + 32 * (k % 2)
  let page := k / 2 / 30
  let pat := tgPattern (d.reg (o + 0xC)) (64 * page + 2 * (k / 2 % 30) + k % 2)
  if write then lpWrite a pat d
  else
    let (bs, _, d) := lpRead a 32 d
    if d.flag o 3 ∧ bs ≠ pat then
      let d := d.count (o + 0x20) 1
      if d.flag (o + 0x24) 31 then d
      else d.setReg (o + 0x24) (page + (k / 2 % 30) <<< 21 + (k % 2) <<< 26 + 1 <<< 31)
    else d

/-- TG_PASS_DONE (R302): the pass has run over its pages and ends with its bytes, ticks and errors. -/
def dieTgPassDone (mc : Bool) (ch ticks : Nat) (d : Die) : Die :=
  let o := tgReg mc ch
  if !tgBusy d mc ch then d
  else
    let mode := d.get ⟨o, 2, 0⟩
    let d0 := d
    let us := tgUnits mode (d.reg (o + 4)) (d.reg (o + 8)) d
    let d := us.zipIdx.foldl (fun d u =>
      (tgHalves mode u.2 d0 u.1.1).foldl (fun d k => tgHalf mc ch u.1.2 k d) d) (d.setReg (o + 0x20) 0)
    let bytes := us.length * (if mode = 4 ∨ mode = 5 then 32 else 64)
    let d := { d with free := d.free + us.length }
    let d := ((d.setReg48 (o + 0x10) bytes).setReg48 (o + 0x18) ticks).put ⟨o, 5, 5⟩ 0
    memGo mc ((d.setFlag (mcReg mc + 8) 2).event (mcReg mc))

/-! ## The region table (R287, R291) -/

/-- A region entry is sound (R287): within one controller's storage, or wholly zero. -/
def regionOk (lo hi : Nat) : Bool :=
  let base := bitsOf lo 14 0
  let last := base + bitsOf lo 30 16
  if bitOf lo 31 then
    decide (bitsOf lo 15 15 = 0) && decide (bitsOf hi 31 14 = 0) &&
      (decide (last < 15360) || (decide (16384 ≤ base) && decide (last < 31744)))
  else decide (lo = 0) && decide (hi = 0)

/-- Two valid entries overlap. -/
def regionsMeet (x y : Nat) : Bool :=
  bitOf x 31 && bitOf y 31 && decide (bitsOf x 14 0 ≤ bitsOf y 14 0 + bitsOf y 30 16) &&
    decide (bitsOf y 14 0 ≤ bitsOf x 14 0 + bitsOf x 30 16)

/-- A whole table is sound: its entries, and no two of them overlap (R287). -/
def tableOk : List (Nat × Nat) → Bool
  | [] => true
  | (lo, hi) :: rest => regionOk lo hi && rest.all (fun e => !regionsMeet lo e.1) && tableOk rest

/-- The 64 entries of a table of 512 bytes (R288). -/
def tableOf (bs : Bytes) : List (Nat × Nat) :=
  tabulate 64 (fun k => (natAt bs (8 * k) 4, natAt bs (8 * k + 4) 4))

/-- A table written to the die whole (R286, R291). -/
def setTable (t : List (Nat × Nat)) (d : Die) : Die :=
  t.zipIdx.foldl (fun d e => (d.setReg (0xC1000 + 8 * e.2) e.1.1).setReg (0xC1004 + 8 * e.2) e.1.2) d

end Sys2Proof.Machine
end

