-- ==== Sys2Proof/Machine/Port.lean ====
section
/-! DEFINITION. The port block of a die: link packets, the cullet, credit, lanes, link states and
failover (R305 to R335). -/

namespace Sys2Proof.Machine

/-! ## Registers -/

/-- `STATE`: 0 OFF, 1 TRAINING, 2 UP, 3 RETRAIN, 4 RESET, 5 DOWN (R326). -/
def wlkState (d : Die) : Nat := d.get ⟨0xD0000, 2, 0⟩
/-- The die with the link state stored. -/
def setWlkState (v : Nat) (d : Die) : Die := d.put ⟨0xD0000, 2, 0⟩ v
/-- The link layer of a port runs on this die. -/
def wlkCarries (d : Die) : Bool := decide (d.run = .active) && d.flag 0xD0000 3
/-- The port is open (R326). -/
def wlkUp (d : Die) : Bool := wlkCarries d && decide (wlkState d = 2)
/-- `LEPOCH`. -/
def wlkEpoch (d : Die) : Nat := d.get ⟨0xD0000, 15, 8⟩
/-- Port number of the die (R18). -/
def wlkPort (d : Die) : Nat := d.get ⟨0xD0000, 18, 16⟩
/-- `NEXT_TX`. -/
def wlkNextTx (d : Die) : Nat := d.get ⟨0xD001C, 11, 0⟩
/-- `NEXT_RX`. -/
def wlkNextRx (d : Die) : Nat := d.get ⟨0xD001C, 23, 12⟩
/-- `LIMIT` of a virtual channel. -/
def wlkLimit (d : Die) (v : Nat) : Nat := d.get ⟨0xD0080 + 8 * v, 15, 0⟩
/-- `SENT` of a virtual channel. -/
def wlkSent (d : Die) (v : Nat) : Nat := d.get ⟨0xD0080 + 8 * v, 31, 16⟩
/-- Own cumulative credit counter of a virtual channel. -/
def wlkCounter (d : Die) (v : Nat) : Nat := d.get ⟨0xD0084 + 8 * v, 15, 0⟩
/-- Packets in the buffer of a virtual channel. -/
def wlkHeld (d : Die) (v : Nat) : Nat := d.get ⟨0xD0084 + 8 * v, 26, 16⟩
/-- Transmit lanes in service. -/
def wlkTxLanes (d : Die) : BitVec 18 := BitVec.ofNat 18 (d.get ⟨0xD000C, 17, 0⟩)
/-- Receive lanes marked failed. -/
def wlkRxFailed (d : Die) : BitVec 18 := BitVec.ofNat 18 (d.get ⟨0xD0010, 17, 0⟩)
/-- An event of the port block. -/
def wlkEvent (i : Nat) (d : Die) : Die := (d.setFlag 0xD0008 i).event 0xD0000
/-- The die with its link layer changed. -/
def modWlk (f : Wlk → Wlk) (d : Die) : Die := { d with wlk := f d.wlk }
/-- The die with `NEXT_TX` stored. -/
def setNextTx (v : Nat) (d : Die) : Die := d.put ⟨0xD001C, 11, 0⟩ v
/-- The die with `NEXT_RX` stored. -/
def setNextRx (v : Nat) (d : Die) : Die := d.put ⟨0xD001C, 23, 12⟩ v
/-- The cullet stored, and its register with it (R316). -/
def setCullet (l : List DataPkt) (d : Die) : Die :=
  let oldest := match l with
    | p :: _ => p.seq
    | [] => wlkNextTx d
  let d := modWlk (fun w => { w with cullet := l }) d
  (d.put ⟨0xD0020, 11, 0⟩ l.length).put ⟨0xD0020, 23, 12⟩ oldest

/-! ## Packets (R312 to R315) -/

/-- Header bits that every packet carries now: `ACK`, credit counters, `LEPOCH` (R320). -/
def hdrNow (d : Die) : Nat :=
  ((wlkNextRx d + 4095) % 4096) <<< 12 + wlkCounter d 0 <<< 40 + wlkCounter d 1 <<< 56 +
    wlkCounter d 2 <<< 72 + wlkCounter d 3 <<< 88 + wlkEpoch d <<< 104

/-- A packet with its CRC (R312, R313). -/
def sealPkt (hdr : Nat) (body : Bytes) : Bytes :=
  let bs := leBytes 16 hdr ++ body
  bs ++ leBytes 4 (crc32 bs).toNat

/-- A packet goes out on a lane. -/
def sendOn (lane : Nat) (bs : Bytes) (d : Die) : Die :=
  modWlk (fun w => { w with line := w.line ++ [(lane, bs)], busy := w.busy ||| BitVec.ofNat 18 (2 ^ lane) }) d

/-- The in-service lane whose turn it is: the next above the lane last served (R317). -/
def nextLane (d : Die) : Nat :=
  let on := (List.range 18).filter (fun i => (wlkTxLanes d).getLsbD i)
  ((on.find? (fun i => decide (d.wlk.lane < i))).or on.head?).getD 0

/-- A packet goes out on the line, on the in-service lanes in turn (R317). -/
def sendLine (bs : Bytes) (d : Die) : Die :=
  let lane := nextLane d
  modWlk (fun w => { w with lane := lane }) (sendOn lane bs d)

/-- A packet goes out on every lane in service (R325). -/
def sendEvery (bs : Bytes) (d : Die) : Die :=
  ((List.range 18).filter (fun i => (wlkTxLanes d).getLsbD i)).foldl (fun d i => sendOn i bs d) d

/-- A DATA packet goes out with what a header carries now. -/
def sendData (p : DataPkt) (d : Die) : Die :=
  sendLine (sealPkt (p.seq + p.vc <<< 24 + p.unitsM1 <<< 28 + bit p.start <<< 31 +
    bit p.cont <<< 32 + bit p.rap <<< 33 + hdrNow d) p.body) d

/-- A LINKCTL body (R315). -/
def ctlBody (d : Die) (code : Nat) (lanes : BitVec 18) (nextRx proposed : Nat) : Bytes :=
  leBytes 32 (code + lanes.toNat <<< 8 + nextRx <<< 32 + proposed <<< 44 + d.pkg.toNat <<< 52 +
    wlkPort d <<< 64)

/-- A LINKCTL waits to be sent (R323). -/
def queueCtl (code : Nat) (lanes : BitVec 18) (nextRx proposed : Nat) (d : Die) : Die :=
  modWlk (fun w => { w with ctl := w.ctl ++ [ctlBody d code lanes nextRx proposed] }) d

/-! ## Frames and segments (R214, R249, R306, R314) -/

/-- The bytes of a frame, header first. -/
def frameBytes : Frame → Bytes
  | .bead h p => leBytes 32 h.toNat ++ p
  | .rap h p => leBytes 64 h.toNat ++ p

/-- A frame is a remote-accumulate packet. -/
def frameRap : Frame → Bool
  | .bead _ _ => false
  | .rap _ _ => true

/-- Source package, source die and handle of a frame. -/
def frameKey : Frame → Nat × Nat × Nat
  | .bead h _ => ((beadOf h).srcPkg, (beadOf h).srcDie, (beadOf h).handle)
  | .rap h _ => ((rapOf h).srcPkg, (rapOf h).srcDie, (rapOf h).handle)

/-- Length in units that the first 32 bytes of a frame give (R314). -/
def frameUnits (rap : Bool) (head : Bytes) : Nat :=
  let v := natAt head 0 32
  if rap then 2 + 2 * (bitsOf v 191 186 + 1) else bitsOf v 191 168

/-- The frame that bytes spell. -/
def frameOf (rap : Bool) (bs : Bytes) : Frame :=
  if rap then .rap (BitVec.ofNat 512 (natAt bs 0 64)) (bs.drop 64)
  else .bead (BitVec.ofNat 256 (natAt bs 0 32)) (bs.drop 32)

/-- The virtual channel on which a frame leaves through a port of a role (R305, R306); a POWER bead
has none. -/
def frameVc (role : Nat) : Frame → Option Nat
  | .rap _ _ => some 1
  | .bead h _ =>
    let b := beadOf h
    if b.kind ≤ 1 then some (if role = 5 then 2 else if role = 6 then 3 else 0)
    else if b.kind = 5 then
      if 2 ≤ b.csub ∧ b.csub ≤ 5 then some 1 else if b.csub = 6 then none else some 3
    else some 3

/-- A seam segment as it crosses the link (R314): a continuation segment begins with its continuation
unit. -/
def outSeg (g : Seg) : OutSeg :=
  let key := frameKey g.frame
  let part := framePayload g.frame
  ⟨g.cont, frameRap g.frame, true,
    if g.cont then leBytes 32 (key.1 + key.2.1 <<< 12 + key.2.2 <<< 19 + (part.length / 32) <<< 29) ++ part
    else frameBytes g.frame⟩

/-- The port block takes a segment for the line (R323). The rest of a frame whose beginning a reset or DOWN
has discarded is dropped (R329). -/
def wlkOffer (vc : Nat) (g : Seg) (d : Die) : Die :=
  let head := frameHead g.frame
  if g.cont ∧ !d.wlk.opened.contains head then d
  else modWlk (fun w => { w with
    tx := tabSet (fun _ => []) w.tx vc (tabGet (fun _ => []) w.tx vc ++ [outSeg g]),
    opened := if g.last then w.opened.erase head
      else if g.cont then w.opened else w.opened ++ [head] }) d

/-! ## Transmission (R316, R321 to R323) -/

/-- A virtual channel has data and credit. -/
def vcReady (d : Die) (v : Nat) : Bool :=
  let k := (wlkLimit d v + 65536 - wlkSent d v) % 65536
  !(tabGet (fun _ => []) d.wlk.tx v).isEmpty && decide (1 ≤ k) && decide (k ≤ 32767)

/-- A new DATA packet from the head of a virtual channel: up to eight units of one segment. -/
def sendNew (v : Nat) (d : Die) : Die :=
  match tabGet (fun _ => []) d.wlk.tx v with
  | [] => d
  | s :: rest =>
    let body := s.bytes.take 256
    let left := s.bytes.drop 256
    let p : DataPkt := ⟨wlkNextTx d, v, s.fresh, s.fresh && s.cont, s.fresh && s.rap,
      body.length / 32 - 1, sliceB body 0 256⟩
    let segs := if left.isEmpty then rest else { s with fresh := false, bytes := left } :: rest
    let d := modWlk (fun w => { w with tx := tabSet (fun _ => []) w.tx v segs, lastVc := v }) d
    let d := (setNextTx ((p.seq + 1) % 4096) d).put ⟨0xD0080 + 8 * v, 31, 16⟩ (wlkSent d v + 1)
    let d := setCullet (d.wlk.cullet ++ [p]) d
    sendData p (d.add48 0xD0050 1)

/-- LINK_TRANSMIT (R316, R321, R323): a pending replay, else a pending LINKCTL, else a new DATA packet
by round-robin over the virtual channels. LINKCTL also goes out while the link retrains or resets;
LANE_FAIL goes out on every lane in service (R325), and RESET again and again until it is answered
(R328). -/
def dieLinkTransmit (d : Die) : Die :=
  if !wlkCarries d then d
  else
    let up := decide (wlkState d = 2)
    match d.wlk.replay with
    | some i =>
      if up then
        match d.wlk.cullet[i]? with
        | some p =>
          let more := decide (i + 1 < d.wlk.cullet.length)
          sendData p (modWlk (fun w => { w with replay := if more then some (i + 1) else none }) d)
        | none => modWlk (fun w => { w with replay := none }) d
      else ctlOr d d
    | none =>
      ctlOr d (
        if up ∧ d.wlk.cullet.length < 2048 then
          match ([1, 2, 3, 4].map (fun k => (d.wlk.lastVc + k) % 4)).find? (vcReady d) with
          | some v => sendNew v d
          | none => d
        else d)
where
  /-- A pending LINKCTL, else what follows it. -/
  ctlOr (d other : Die) : Die :=
    match d.wlk.ctl with
    | b :: rest =>
      if 2 ≤ wlkState d ∧ wlkState d ≤ 4 then
        let pkt := sealPkt (wlkNextTx d + 2 <<< 26 + hdrNow d) b
        let d := modWlk (fun w => { w with ctl := rest }) d
        if natAt b 0 1 = 1 then sendEvery pkt d else sendLine pkt d
      else other
    | [] =>
      if wlkState d = 4 then
        sendLine (sealPkt (wlkNextTx d + 2 <<< 26 + hdrNow d) (ctlBody d 0x05 0 0 d.wlk.proposed)) d
      else other

/-- LINK_IDLE_TIMER: an IDLE packet on every lane that has carried no other packet, spares included (R320,
R324). -/
def dieLinkIdleTimer (d : Die) : Die :=
  if wlkUp d then
    let pkt := sealPkt (wlkNextTx d + 1 <<< 26 + hdrNow d) []
    let idle := (List.range 18).filter (fun i => !d.wlk.busy.getLsbD i)
    modWlk (fun w => { w with busy := 0 }) (idle.foldl (fun d i => sendOn i pkt d) d)
  else d

/-! ## Link states (R326 to R329) -/

/-- Enters RETRAIN: cullet and sequence state are kept. -/
def enterRetrain (d : Die) : Die :=
  let d := modWlk (fun w => { w with replay := none, replays := 0, retrains := 0, trained := false,
                                     farResume := none }) d
  wlkEvent 2 ((setWlkState 3 d).count 0xD0044 1)

/-- What DOWN and OFF discard: cullet, held and buffered state, and what waits to be sent. -/
def dropLink (d : Die) : Die :=
  let d := setCullet [] (modWlk (fun w =>
    { w with tx := [], opened := [], replay := none, replays := 0, retrains := 0, ctl := [], held := [],
             lastReq := none, accLeft := [], rx := [], seg := [], frames := [], unacked := 0,
             trained := false, farResume := none }) d)
  [0, 1, 2, 3].foldl (fun d v => d.put ⟨0xD0084 + 8 * v, 26, 16⟩ 0) d

/-- Enters DOWN. -/
def enterDown (d : Die) : Die := wlkEvent 4 (setWlkState 5 (dropLink d))

/-- Starts a link reset (R328): the previous epoch plus 1, or after switch-on an entropy value. -/
def startReset (d : Die) : Die :=
  let (k, d) := if d.wlk.history then ((wlkEpoch d + 1) % 256, d)
    else ((Config.freeDie d.phys d.free).toNat % 256, { d with free := d.free + 1 })
  let d := modWlk (fun w => { w with proposed := k, owed := true, trained := false, farResume := none }) d
  queueCtl 0x05 0 0 k (setWlkState 4 d)

/-- The packets of a buffer up to the end of its last whole segment. -/
def wholeSegs (left : Nat) (l : List DataPkt) : List DataPkt :=
  let n := (l.foldl (fun (acc : Nat × Nat × Nat) p =>
    let left := if p.start then segNeed p else acc.2.2
    let rest := left - (p.unitsM1 + 1)
    (acc.1 + 1, if rest = 0 then acc.1 + 1 else acc.2.1, rest)) (0, 0, left)).2.1
  l.take n
where
  /-- Units of the segment that a packet begins (R314). -/
  segNeed (p : DataPkt) : Nat :=
    if p.cont then bitsOf (natAt p.body 0 32) 36 29 + 1 else min (frameUnits p.rap p.body) 128

/-- Source and handle of the frame that a waiting segment belongs to. -/
def outKey (g : OutSeg) : Nat × Nat × Nat :=
  let u := natAt g.bytes 0 32
  if g.cont then (bitsOf u 11 0, bitsOf u 18 12, bitsOf u 28 19) else frameKey (frameOf g.rap g.bytes)

/-- What a reset leaves of the segments that wait to be sent (R328, R329): those of frames that are still
whole, none of a frame whose beginning has gone out. `keys`: the frames whose beginning is kept. -/
def keepWhole (keys : List (Nat × Nat × Nat)) : List OutSeg → List OutSeg × List (Nat × Nat × Nat)
  | [] => ([], keys)
  | g :: gs =>
    if g.fresh ∧ !g.cont then
      let r := keepWhole (outKey g :: keys) gs
      (g :: r.1, r.2)
    else
      let r := keepWhole keys gs
      (if g.fresh ∧ keys.contains (outKey g) then g :: r.1 else r.1, r.2)

/-- The cullet is gone: of what waits to be sent only whole frames stay (R329). -/
def dropCutFrames (w : Wlk) : Wlk :=
  let kept := w.tx.map (fun e => (e.1, keepWhole [] e.2))
  let keys := kept.flatMap (fun e => e.2.2)
  { w with tx := (kept.map (fun e => (e.1, e.2.1))).filter (fun e => !e.2.isEmpty),
           opened := w.opened.filter (fun f => keys.contains (frameKey f)) }

/-- A new sequence history of epoch `k` (R328), and the link is UP. -/
def freshLink (k : Nat) (d : Die) : Die :=
  let d := modWlk dropCutFrames d
  let keep := [0, 1, 2, 3].map (fun v =>
    (v, wholeSegs (match tabGet (fun _ => none) d.wlk.seg v with
      | some s => s.left
      | none => 0) (tabGet (fun _ => []) d.wlk.rx v)))
  let d := modWlk (fun w => { w with
    cullet := [], replay := none, replays := 0, held := [],
    lastReq := none, accLeft := [], rx := keep.filter (fun e => !e.2.isEmpty),
    seg := w.seg.filter (fun e => keep.any (fun k => decide (k.1 = e.1) && !k.2.isEmpty)),
    frames := [], history := true, owed := false, trained := false, farResume := none }) d
  let d := (setNextRx 0 (setNextTx 0 d)).put ⟨0xD0000, 15, 8⟩ k
  let d := keep.foldl (fun d e =>
    (d.setReg (0xD0080 + 8 * e.1) 0).setReg (0xD0084 + 8 * e.1) (1024 + e.2.length <<< 16)) d
  let d := (setCullet [] d).setReg 0xD0018 d.wlk.rtt
  wlkEvent 3 ((setWlkState 2 d).count 0xD0048 1)

/-- A replay begins (R321); past `REPLAY_LIMIT` replays that released nothing the port retrains. -/
def startReplay (d : Die) : Die :=
  if d.wlk.cullet.isEmpty then d
  else if d.get ⟨0xD0004, 15, 8⟩ ≤ d.wlk.replays then enterRetrain d
  else modWlk (fun w => { w with replay := some 0, replays := w.replays + 1 }) (d.count 0xD003C 1)

/-- Releases the first `n` packets of the cullet. -/
def releaseCullet (n : Nat) (d : Die) : Die :=
  if n = 0 then d
  else
    let d := setCullet (d.wlk.cullet.drop n) d
    modWlk (fun w => { w with replays := 0, replay := match w.replay with
      | some i => if n ≤ i then some (i - n) else if w.cullet.isEmpty then none else some 0
      | none => none }) d

/-- A received `ACK` (R320). -/
def applyAck (a : Nat) (d : Die) : Die :=
  match d.wlk.cullet with
  | [] => d
  | p :: _ =>
    let k := (a + 4096 - p.seq) % 4096
    if k < d.wlk.cullet.length then releaseCullet (k + 1) d else d

/-- A received credit counter (R320). -/
def applyCredit (v x : Nat) (d : Die) : Die :=
  let k := (x + 65536 - wlkLimit d v) % 65536
  if 1 ≤ k ∧ k ≤ 32767 then d.put ⟨0xD0080 + 8 * v, 15, 0⟩ x else d

/-! ## Reception (R313, R318 to R320) -/

/-- A bit field of a packet's header. -/
def ph (bs : Bytes) (hi lo : Nat) : Nat := bitsOf (natAt bs 0 16) hi lo
/-- A bit field of a LINKCTL body. -/
def pc (bs : Bytes) (hi lo : Nat) : Nat := bitsOf (natAt bs 16 32) hi lo

/-- The length of a packet of a type; 0 for a reserved one (R312). -/
def pktLen (type : Nat) : Nat :=
  match type with
  | 0 => 276
  | 1 => 20
  | 2 => 52
  | _ => 0

/-- The CRC of a packet is right and its length that of its type. -/
def crcOk (bs : Bytes) : Bool :=
  decide (20 ≤ bs.length) && decide ((crc32 (bs.take (bs.length - 4))).toNat = natAt bs (bs.length - 4) 4)

/-- A reserved encoding in a packet, or `CONT` or `RAP` without `SEG_START` (R313, R315). -/
def pktBad (bs : Bytes) : Bool :=
  let type := ph bs 27 26
  let code := pc bs 7 0
  decide (bs.length ≠ pktLen type) || decide (ph bs 39 34 ≠ 0) || decide (ph bs 127 112 ≠ 0) ||
  (decide (type = 0) && decide (ph bs 31 31 = 0) && decide (ph bs 33 32 ≠ 0)) ||
  (decide (type ≠ 0) && (decide (ph bs 25 24 ≠ 0) || decide (ph bs 33 28 ≠ 0))) ||
  (decide (type = 2) &&
    (decide (code = 0) || decide (6 < code) || decide (pc bs 31 26 ≠ 0) || decide (pc bs 255 67 ≠ 0) ||
      (decide (2 < code) && decide (pc bs 25 8 ≠ 0)) ||
      (decide (code ≠ 4 ∧ code ≠ 6) && decide (pc bs 43 32 ≠ 0)) ||
      (decide (code ≠ 5) && decide (pc bs 51 44 ≠ 0))))

/-- RESUME, RESET and RESET_ACK may carry another epoch (R313). -/
def anyEpoch (bs : Bytes) : Bool := decide (ph bs 27 26 = 2) && decide (4 ≤ pc bs 7 0)

/-- A packet at the port block: discarded and counted, or its `ACK` and credits applied, and `k` runs
if the packet is of the row's kind (`code` 0: DATA 0x100, IDLE 0x101, else a LINKCTL code). Where `bad`
holds, the packet is discarded by what follows and every field of it is ignored (R313). -/
def receiveIf (bad : Die → Bool) (code : Nat) (bs : Bytes) (k : Die → Die) (d : Die) : Die :=
  if !wlkCarries d ∨ wlkState d < 1 ∨ 4 < wlkState d then d
  else if !crcOk bs then d.count 0xD0030 1
  else if pktBad bs then d.count 0xD0034 1
  else
    let type := ph bs 27 26
    let same := decide (ph bs 111 104 = wlkEpoch d)
    if (if type = 2 then pc bs 7 0 else 0x100 + type) ≠ code then d
    else if !same && !anyEpoch bs then d.count 0xD0034 1
    else if same && decide (code ≠ 5) && !bad d then
      k (applyCredit 3 (ph bs 103 88) (applyCredit 2 (ph bs 87 72) (applyCredit 1 (ph bs 71 56)
        (applyCredit 0 (ph bs 55 40) (applyAck (ph bs 23 12) d)))))
    else k d

/-- Such a packet of a kind that nothing further discards. -/
def receive (code : Nat) (bs : Bytes) (k : Die → Die) (d : Die) : Die :=
  receiveIf (fun _ => false) code bs k d

/-- REPLAY_REQ is sent, but not twice for one `NEXT_RX` within 2 × `WLK_RTT` (R319). -/
def askReplay (d : Die) : Die :=
  let n := wlkNextRx d
  let wait := match d.wlk.lastReq with
    | some (m, t) => decide (m = n) && decide (10 * (d.rrc - t).toNat < 2 * d.reg 0xD0018)
    | none => false
  if wait then d
  else queueCtl 0x03 0 0 0
    (modWlk (fun w => { w with lastReq := some (n, d.rrc) }) (d.count 0xD0040 1))

/-- The held packets are discarded and a replay asked for (R319). -/
def gap (d : Die) : Die := askReplay (modWlk (fun w => { w with held := [] }) d)

/-- Units that a packet adds to, or begins, the segment in progress on its virtual channel; `none`: it
contradicts that segment (R314). -/
def segAfter (left : Nat) (p : DataPkt) : Option Nat :=
  let n := p.unitsM1 + 1
  let unit := natAt p.body 0 32
  if p.start then
    let need := if p.cont then
        (if bitsOf unit 36 29 = 0 ∨ 128 < bitsOf unit 36 29 ∨ 2 ^ 37 ≤ unit then 0
         else bitsOf unit 36 29 + 1)
      else min (frameUnits p.rap p.body) 128
    if left = 0 ∧ n ≤ need then some (need - n) else none
  else if n ≤ left then some (left - n) else none

/-- What an in-order DATA packet leaves of its segment; `none`: it contradicts the segment in progress (R314),
or finds no room in the buffer, which R322 forbids (log 19). -/
def dataFits (p : DataPkt) (d : Die) : Option Nat :=
  if 1024 ≤ wlkHeld d p.vc then none else segAfter (tabGet (fun _ => 0) d.wlk.accLeft p.vc) p

/-- An in-order DATA packet (R318): accepted into its virtual channel's buffer, or discarded as
malformed (R314). -/
def acceptData (p : DataPkt) (d : Die) : Bool × Die :=
  match dataFits p d with
  | none => (false, gap (d.count 0xD0034 1))
  | some left =>
    let d := modWlk (fun w => { w with
      accLeft := tabSet (fun _ => 0) w.accLeft p.vc left,
      rx := tabSet (fun _ => []) w.rx p.vc (tabGet (fun _ => []) w.rx p.vc ++ [p]) }) d
    let d := d.put ⟨0xD0084 + 8 * p.vc, 26, 16⟩ (wlkHeld d p.vc + 1)
    (true, setNextRx ((wlkNextRx d + 1) % 4096) (d.add48 0xD0058 1))

/-- Held packets that are now in order are accepted in turn (R318). -/
def acceptHeld : (fuel : Nat) → Die → Die
  | 0, d => d
  | n + 1, d =>
    match d.wlk.held.find? (fun e => decide (e.1.seq = wlkNextRx d)) with
    | none => d
    | some (p, _) =>
      let d := modWlk (fun w => { w with held := w.held.filter (fun e => decide (e.1.seq ≠ p.seq)) }) d
      match acceptData p d with
      | (true, d) => acceptHeld n d
      | (false, d) => d

/-- The DATA packet that bytes spell. -/
def dataOf (bs : Bytes) : DataPkt :=
  ⟨ph bs 11 0, ph bs 25 24, decide (ph bs 31 31 = 1), decide (ph bs 32 32 = 1),
    decide (ph bs 33 33 = 1), ph bs 30 28, (bs.drop 16).take 256⟩

/-- The in-order DATA packet that bytes spell contradicts what came before it (R314). -/
def dataContradicts (bs : Bytes) (d : Die) : Bool :=
  decide (wlkState d = 2) && decide (ph bs 11 0 = wlkNextRx d) && (dataFits (dataOf bs) d).isNone

/-- DATA_RECEIVE (R318, R319). -/
def dieDataReceive (bs : Bytes) (d : Die) : Die :=
  receiveIf (dataContradicts bs) 0x100 bs (fun d =>
    if wlkState d ≠ 2 then d
    else
      let p := dataOf bs
      let k := (p.seq + 4096 - wlkNextRx d) % 4096
      if k = 0 then
        match acceptData p d with
        | (true, d) => acceptHeld (d.wlk.held.length + 1) d
        | (false, d) => d
      else if k ≤ 64 then
        if d.wlk.held.any (fun e => decide (e.1.seq = p.seq)) then d
        else modWlk (fun w => { w with held := w.held ++ [(p, d.rrc)] }) d
      else if k ≤ 2047 then gap d
      else d.count 0xD0038 1) d

/-- IDLE_RECEIVE (R320). -/
def dieIdleReceive (bs : Bytes) (d : Die) : Die := receive 0x101 bs id d

/-- GAP_TIMEOUT (R319). -/
def dieGapTimeout (d : Die) : Die :=
  if wlkUp d && !d.wlk.held.isEmpty then gap d else d

/-- REPLAY_TIMEOUT (R321). -/
def dieReplayTimeout (d : Die) : Die := if wlkUp d then startReplay d else d

/-- REPLAY_REQ received (R321). -/
def dieReplayReq (bs : Bytes) (d : Die) : Die :=
  receive 0x03 bs (fun d => if wlkState d = 2 then startReplay d else d) d

/-! ## Leaving the buffer (R314, R322, R391) -/

/-- The answer to a frame that a router or a port refuses: a NAK from the frame's destination (R205,
R254); `none`: a NAK, a CONTROL bead, which no one answers (R202, R263, R308), or a frame from a die number
that R8 reserves. A destination number that is reserved gives way to that of the refusing die, `own` (R6). -/
def refusal (world : Bool) (own : Nat) (f : Frame) (st : Status) : Option (BitVec 256) :=
  let dst (n : Nat) : Nat := if dieReserved n then own else n
  match f with
  | .bead h _ =>
    let b := beadOf h
    if b.kind = 2 ∨ b.kind = 5 ∨ dieReserved b.srcDie then none
    else some (answerTo world { b with dstDie := dst b.dstDie } 2 0 st.code)
  | .rap h _ =>
    let r := rapOf h
    if dieReserved r.srcDie then none
    else some (packBead { dstPkg := r.srcPkg, dstDie := r.srcDie, world := world,
                          srcPkg := bitsOf r.target 63 52, srcDie := dst (bitsOf r.target 51 45),
                          job := r.job, kind := 2, status := st.code, handle := r.handle })

/-- World of a frame. -/
def frameWorld : Frame → Bool
  | .bead h _ => (beadOf h).world
  | .rap h _ => (rapOf h).world

/-- The router input of a virtual channel of the port block, as a queue key (R215). -/
def portKey (v : Nat) : Nat := 2 * (6 + v)

/-- A first segment from the port enters the fabric; a secure frame through a non-secure port is refused
(R391), and the rest of it is dropped. -/
def fromPort (secure : Bool) (v : Nat) (f : Frame) (left : Nat) (d : Die) : Die :=
  if frameWorld f ∧ !secure then
    match refusal d.world d.logical.toNat f .worldViolation with
    | some n => emit (.bead n []) (worldRefused d)
    | none => worldRefused d
  else
    let d := if left = 0 then d
      else modWlk (fun w => { w with frames := w.frames.filter (fun e =>
        decide (frameKey e.head ≠ frameKey f)) ++ [⟨frameHead f, left⟩] }) d
    rtPush (portKey v) [{ frame := f, last := decide (left = 0) }] d

/-- A whole segment leaves the buffer as one seam segment, without its continuation unit (R314). -/
def segDone (secure : Bool) (v : Nat) (s : InSeg) (d : Die) : Die :=
  if s.cont then
    let u := natAt s.bytes 0 32
    let hit (e : InFrame) : Bool := decide (frameRap e.head = s.rap) &&
      decide (frameKey e.head = (bitsOf u 11 0, bitsOf u 18 12, bitsOf u 28 19))
    match d.wlk.frames.find? hit with
    | none => d
    | some e =>
      let left := e.left - bitsOf u 36 29
      let part := s.bytes.drop 32
      let f : Frame := match e.head with
        | .bead h _ => .bead h part
        | .rap h _ => .rap h part
      let g : Seg := { frame := f, cont := true, last := decide (left = 0) }
      let rest (l : List InFrame) : List InFrame :=
        if left = 0 then l.erase e else l.map (fun x => if x = e then { e with left := left } else x)
      let d := modWlk (fun w => { w with frames := rest w.frames }) d
      rtPush (portKey v) [g] d
  else
    fromPort secure v (frameOf s.rap s.bytes) (frameUnits s.rap s.bytes - 128) d

/-- The router input of a virtual channel can take more: less than 4 flits wait there (R214). -/
def portRoom (v : Nat) (d : Die) : Bool :=
  decide (((rtQueue d (portKey v)).map segFlits).sum < 4)

/-- VC_BUFFER_RELEASE (R314, R322): the oldest packet of a virtual channel's buffer leaves into the
fabric, once the router has room, and its credit is freed. -/
def dieVcBufferRelease (secure : Bool) (v : Nat) (d : Die) : Die :=
  if !wlkCarries d ∨ !portRoom v d then d
  else match tabGet (fun _ => []) d.wlk.rx v with
    | [] => d
    | p :: rest =>
      let d := modWlk (fun w => { w with rx := tabSet (fun _ => []) w.rx v rest }) d
      let d := (d.put ⟨0xD0084 + 8 * v, 15, 0⟩ (wlkCounter d v + 1)).put ⟨0xD0084 + 8 * v, 26, 16⟩
        (wlkHeld d v - 1)
      let s : InSeg := match tabGet (fun _ => none) d.wlk.seg v with
        | some s => s
        | none => ⟨p.cont, p.rap, [], wholeSegs.segNeed p⟩
      let n := p.unitsM1 + 1
      let s := { s with bytes := s.bytes ++ p.body.take (32 * n), left := s.left - n }
      let keep := if s.left = 0 then none else some s
      let d := modWlk (fun w => { w with seg := tabSet (fun _ => none) w.seg v keep }) d
      if s.left = 0 then segDone secure v s d else d

/-! ## Lanes (R324, R325) -/

/-- The lanes of a mask, ascending. -/
def laneList (m : BitVec 18) : List Nat := (List.range 18).filter (fun i => m.getLsbD i)
/-- The mask of a list of lanes. -/
def laneMask (l : List Nat) : BitVec 18 := l.foldl (fun m i => m ||| BitVec.ofNat 18 (2 ^ i)) 0
/-- Number of lanes in a mask. -/
def laneCount (m : BitVec 18) : Nat := (laneList m).length

/-- The lanes to use when `failed` are out: the sixteen data lanes with the lowest healthy spare in the
place of each failed one; without one, the eight lowest-numbered healthy lanes (R325). -/
def serviceLanes (narrow : Bool) (failed : BitVec 18) : Bool × BitVec 18 :=
  let good := (List.range 18).filter (fun i => !failed.getLsbD i)
  let data := good.filter (fun i => decide (i < 16))
  let spares := good.filter (fun i => decide (16 ≤ i))
  let lost := 16 - data.length
  if !narrow ∧ lost ≤ spares.length then (false, laneMask (data ++ spares.take lost))
  else (true, laneMask (good.take 8))

/-- The transmit lanes with `failed` out of service: `NARROW` and `LANE_FAIL` are raised as they come
about (R325). -/
def setTxLanes (failed : BitVec 18) (d : Die) : Die :=
  let was := d.flag 0xD0000 5
  let (narrow, m) := serviceLanes (d.wlk.narrow || was) failed
  let d := modWlk (fun w => { w with txFailed := failed }) d
  let d := (d.setReg 0xD000C m.toNat).put ⟨0xD0000, 5, 5⟩ (bit narrow)
  if narrow ∧ !was then wlkEvent 1 d else d

/-- Receive lanes are marked failed (R324, R325), once the link has trained: LANE_FAIL goes out with the whole
mask, and fewer than eight lanes left retrain the port. -/
def failRx (lanes : BitVec 18) (d : Die) : Die :=
  let m := wlkRxFailed d ||| lanes
  if m = wlkRxFailed d ∨ (wlkState d ≠ 2 ∧ wlkState d ≠ 4) then d
  else
    let d := wlkEvent 0 (d.setReg 0xD0010 m.toNat)
    if 18 - laneCount m < 8 then enterRetrain d
    else queueCtl 0x01 m 0 0 (modWlk (fun w => { w with unacked := m }) d)

/-- LANE_LOSS_OF_LOCK (R324). -/
def dieLaneLossOfLock (lane : Nat) (d : Die) : Die :=
  if wlkCarries d then failRx (BitVec.ofNat 18 (2 ^ lane)) d else d

/-- LANE_WINDOW_END (R324): the counts of each lane over a window of 1 ms. -/
def dieLaneWindowEnd (csym ucw : List Nat) (d : Die) : Die :=
  if !wlkCarries d then d
  else
    let d := (List.range 18).foldl (fun d i =>
      (d.setReg (0xD0100 + 8 * i) (min (csym.getD i 0) (2 ^ 32 - 1))).count (0xD0104 + 8 * i)
        (ucw.getD i 0)) d
    let bad := (List.range 18).filter (fun i =>
      decide (d.get ⟨0xD0024, 7, 0⟩ ≤ ucw.getD i 0) || decide (d.get ⟨0xD0024, 31, 8⟩ ≤ csym.getD i 0))
    failRx (laneMask bad) d

/-- LANE_FAIL received (R325). -/
def dieLaneFail (bs : Bytes) (d : Die) : Die :=
  receive 0x01 bs (fun d =>
    if wlkState d ≠ 2 ∧ wlkState d ≠ 4 then d
    else
      let m := BitVec.ofNat 18 (pc bs 25 8) ||| d.wlk.txFailed
      let spared := decide (wlkTxLanes d &&& m ≠ 0)
      let d := setTxLanes m d
      let d := if spared then wlkEvent 0 d else d
      if 18 - laneCount m < 8 then enterRetrain d else queueCtl 0x02 (wlkTxLanes d) 0 0 d) d

/-- LANE_FAIL_REPEAT (R325). -/
def dieLaneFailRepeat (d : Die) : Die :=
  if wlkCarries d ∧ (wlkState d = 2 ∨ wlkState d = 4) ∧ d.wlk.unacked ≠ 0 then queueCtl 0x01 (wlkRxFailed d) 0 0 d else d

/-- LANE_ACK received (R325): it shows the far transmitter's narrow mode, whose beginning raises `NARROW`. -/
def dieLaneAck (bs : Bytes) (d : Die) : Die :=
  receive 0x02 bs (fun d =>
    let m := BitVec.ofNat 18 (pc bs 25 8)
    let narrow := decide (laneCount m ≤ 8)
    let d := if narrow ∧ !d.flag 0xD0000 6 then wlkEvent 1 d else d
    let d := d.put ⟨0xD0000, 6, 6⟩ (bit narrow)
    if m &&& d.wlk.unacked = 0 then modWlk (fun w => { w with unacked := 0 }) d else d) d

/-! ## Resume and reset (R326 to R328) -/

/-- RETRAIN ends once both sides have trained and exchanged RESUME (R326). -/
def tryResume (d : Die) : Die :=
  match d.wlk.farResume with
  | none => d
  | some (ep, next) =>
    if wlkState d ≠ 3 ∨ !d.wlk.trained then d
    else if ep ≠ wlkEpoch d ∨ d.wlk.owed then startReset d
    else
      let d := applyAck ((next + 4095) % 4096) d
      let d := modWlk (fun w => { w with
        trained := false, farResume := none, retrains := 0,
        replay := if w.cullet.isEmpty then none else some 0 }) d
      (setWlkState 2 d).setReg 0xD0018 d.wlk.rtt

/-- RESUME received (R326). -/
def dieLinkResume (bs : Bytes) (d : Die) : Die :=
  receive 0x04 bs (fun d =>
    if wlkState d = 3 then
      tryResume (modWlk (fun w => { w with farResume := some (ph bs 111 104, pc bs 43 32) }) d)
    else d) d

/-- RESET received (R326, R328). When both sides propose, the higher package wins, then the higher port.
In RETRAIN any RESET of the far side is taken. In UP a RESET of the epoch in force is one whose RESET_ACK was
lost: it is acknowledged again (log 21). -/
def dieLinkReset (bs : Bytes) (d : Die) : Die :=
  receive 0x05 bs (fun d =>
    let k := pc bs 51 44
    let st := wlkState d
    let take (d : Die) : Die := queueCtl 0x06 0 0 0 (freshLink k (modWlk (fun w => { w with ctl := [] }) d))
    if st = 2 ∨ st = 3 then
      if st = 3 ∨ k ≠ wlkEpoch d ∨ !d.wlk.history then take d
      else queueCtl 0x06 0 (wlkNextRx d) 0 d
    else if st = 4 then
      let mine := d.pkg.toNat * 8 + wlkPort d
      if mine < pc bs 63 52 * 8 + pc bs 66 64 then take d else d
    else d) d

/-- RESET_ACK received (R326, R328). -/
def dieLinkResetAck (bs : Bytes) (d : Die) : Die :=
  receive 0x06 bs (fun d =>
    if wlkState d = 4 ∧ ph bs 111 104 = d.wlk.proposed then
      freshLink d.wlk.proposed (modWlk (fun w => { w with ctl := [] }) d)
    else d) d

/-- A failed training (R326). -/
def trainingFailed (d : Die) : Die :=
  let st := wlkState d
  if st ≠ 1 ∧ st ≠ 3 then d
  else
    let n := d.wlk.retrains + 1
    let d := modWlk (fun w => { w with retrains := n, trained := false }) d
    if d.get ⟨0xD0004, 19, 16⟩ ≤ n then enterDown d else d

/-- LINK_TRAINING_DONE (R325, R326): the good lanes of both directions and the measured loop time. -/
def dieLinkTrainingDone (goodTx goodRx : BitVec 18) (rtt : Nat) (d : Die) : Die :=
  let st := wlkState d
  if !wlkCarries d ∨ (st ≠ 1 ∧ st ≠ 3) then d
  else if laneCount goodTx < 8 ∨ laneCount goodRx < 8 then trainingFailed d
  else
    let d := (d.put ⟨0xD0000, 5, 5⟩ 0).setReg 0xD0010 (~~~goodRx).toNat
    let d := setTxLanes (~~~goodTx) (modWlk (fun w => { w with rtt := rtt, unacked := 0 }) d)
    if st = 1 then startReset (modWlk (fun w => { w with retrains := 0 }) d)
    else tryResume (queueCtl 0x04 0 (wlkNextRx d) 0 (modWlk (fun w => { w with trained := true }) d))

/-- LINK_TRAINING_FAIL (R326). -/
def dieLinkTrainingFail (d : Die) : Die := if wlkCarries d then trainingFailed d else d

/-- The Reckoner trains the port (R326): from OFF in LINKS, from DOWN every 60 s. -/
def beginTraining (d : Die) : Die :=
  setWlkState 1 (modWlk (fun w => { w with retrains := 0 }) d)

/-- LINK_DOWN_RETRY (R326). -/
def dieLinkDownRetry (role : Nat) (d : Die) : Die :=
  if wlkCarries d ∧ wlkState d = 5 ∧ role ≠ 0 then beginTraining d else d

/-- A write of `WLK_CTL` (R326, R334). -/
def wlkCtlWrite (mgmt : Bool) (v : Nat) (d : Die) : Die :=
  if !mgmt then d.invalidWrite 0xD0000
  else
    let bad := decide (bitsOf v 7 2 ≠ 0) || decide (bitsOf v 31 20 ≠ 0) ||
      decide (bitsOf v 15 8 = 0) || decide (bitsOf v 19 16 = 0)
    let d := if bad then d.invalidWrite 0xD0000 else d
    let d := if bitsOf v 15 8 = 0 then d else d.put ⟨0xD0004, 15, 8⟩ (bitsOf v 15 8)
    let d := if bitsOf v 19 16 = 0 then d else d.put ⟨0xD0004, 19, 16⟩ (bitsOf v 19 16)
    let d := d.put ⟨0xD0004, 1, 1⟩ (bitsOf v 1 1)
    if bitOf v 1 then (setWlkState 0 (dropLink d)).setReg 0xD000C 0
    else if bitOf v 0 ∧ wlkUp d then enterRetrain d
    else d

/-- RETRAIN_REQ: a write of `WLK_CTL` that sets it and changes nothing else. -/
def dieRetrainReq (mgmt : Bool) (d : Die) : Die := wlkCtlWrite mgmt (putBits (d.reg 0xD0004) 0 0 1) d

/-- PORT_DISABLE: a write of `WLK_CTL` that sets `DISABLE` and changes nothing else. -/
def diePortDisable (mgmt : Bool) (d : Die) : Die := wlkCtlWrite mgmt (putBits (d.reg 0xD0004) 1 1 1) d

/-- RELAY_FAILOVER (R330): the UCIe module in use fails; the alternate die's module takes over, unless
it too has failed. -/
def dieRelayFailover (alternateOk : Bool) (d : Die) : Die :=
  if !wlkCarries d then d
  else if alternateOk ∧ !d.flag 0xD0000 7 then
    wlkEvent 5 ((d.put ⟨0xD0000, 4, 4⟩ 1).put ⟨0xD0000, 7, 7⟩ 1)
  else if wlkState d = 0 ∨ wlkState d = 5 then d
  else enterDown d

end Sys2Proof.Machine
end

