-- ==== Sys2Proof/Machine/Regs.lean ====
section
/-! DEFINITION. The register space of a Pylek die (R11): what a read of a register returns, what a write
does (R4, R5), and SLOAD and SSTORE (R167, R168). -/

namespace Sys2Proof.Machine

/-! ## The register map -/

/-- Bits [hi:lo] as a mask. -/
def span (hi lo : Nat) : Nat := 2 ^ (hi + 1) - 2 ^ lo

/-- All bits of a register. -/
def full : Nat := 2 ^ 32 - 1

/-- A row of the register map: `n` registers from `base`, `stride` bytes apart; the bits of type RW, of
type W1C and of the other named fields; whether the management complex alone writes it. Every other
bit is reserved. -/
structure RegRow where
  base : Nat
  stride : Nat
  n : Nat
  rw : Nat
  w1c : Nat
  ro : Nat
  mgmt : Bool
  deriving DecidableEq, Repr

/-- A register that only the hardware writes. -/
def roRow (base stride n ro : Nat) : RegRow := ⟨base, stride, n, 0, 0, ro, false⟩

/-- Identity page, bindings, job control, watchdog (R191, R386, R436, R458); array (R120); scratchpad
and DMA (R193). -/
def rowsCore : List RegRow := [
  roRow 0x0 4 1 (full - span 15 15 - span 27 23), ⟨0x4, 4, 1, 0, 1, span 12 8, true⟩,
  roRow 0x100 4 1 full, roRow 0x104 4 1 (span 15 0),
  ⟨0x200, 16, 4, span 15 0, 0, 0, false⟩, roRow 0x204 16 4 full, ⟨0x208, 16, 4, full, 0, 0, false⟩,
  ⟨0x300, 4, 16, 3 + span 16 8, 0, 0, true⟩, ⟨0x400, 4, 1, span 23 0, 0, 0, true⟩,
  ⟨0x404, 4, 1, 0, 3, 0, true⟩,
  roRow 0x10000 4 1 (span 11 0), ⟨0x10008, 4, 4, 0, full, 0, false⟩, roRow 0x10018 4 1 full, roRow 0x10020 4 1 full,
  roRow 0x10024 4 1 (span 15 0), roRow 0x10028 4 3 full, ⟨0x10040, 4, 4, full, 0, 0, false⟩,
  roRow 0x20000 4 2 full, ⟨0x20008, 4, 1, 0, span 31 31, span 23 0, false⟩, roRow 0x2000C 4 1 1,
  roRow 0x20010 4 5 full, roRow 0x20100 4 1 (span 11 0)]

/-- Sequencer (R192), vector flags and draw counter (R151), rod unit (R223). -/
def rowsSeq : List RegRow := [
  roRow 0x30000 4 1 (span 30 0), ⟨0x30004, 4, 1, 0, span 4 0, 0, false⟩,
  roRow 0x30008 4 1 (span 10 0 + span 31 16), ⟨0x30010, 4, 1, span 21 0, 0, 0, true⟩,
  ⟨0x30020, 4, 1, span 28 0, 0, 0, true⟩, ⟨0x30024, 4, 1, span 16 0, 0, 0, true⟩,
  roRow 0x30030 4 1 full, roRow 0x30034 4 1 (span 15 0), roRow 0x34000 8 2048 (span 27 0),
  roRow 0x34004 8 2048 full,
  ⟨0x40000, 4, 1, 0, span 5 0, 0, false⟩, roRow 0x41008 4 1 full, roRow 0x4100C 4 1 (span 15 0),
  roRow 0x50000 4 1 (span 22 0), roRow 0x50004 4 1 (span 9 0), ⟨0x50008, 4, 1, 0, 7, 0, false⟩,
  roRow 0x5000C 4 1 (span 10 0), ⟨0x50010, 4, 1, span 19 0, 0, 0, true⟩, roRow 0x50014 4 2 full,
  roRow 0x5001C 4 1 (span 3 0), ⟨0x50100, 4, 73, span 3 0, 0, 0, true⟩,
  roRow 0x52000 32 512 full, roRow 0x52004 32 512 (span 17 0), roRow 0x52008 32 512 (span 23 0),
  roRow 0x5200C 32 512 (span 23 0), roRow 0x52010 32 512 (span 15 0), roRow 0x52014 32 512 (span 14 0),
  roRow 0x56000 4 4096 (span 26 0), roRow 0x5C000 8 2048 full,
  roRow 0x5C004 8 2048 (span 15 0 + span 24 16 + span 31 31)]

/-- A memory controller (R303, R276), its block at `b`. -/
def rowsMc (b : Nat) : List RegRow := [
  roRow b 4 1 (span 3 0 + span 15 8), ⟨b + 4, 4, 1, span 8 0, 0, 0, true⟩,
  ⟨b + 8, 4, 1, 0, span 3 0, 0, false⟩, roRow (b + 0x10) 4 3 full,
  ⟨b + 0x1C, 4, 1, 0, span 31 31, span 29 0, false⟩, roRow (b + 0x20) 4 1 (span 16 0),
  roRow (b + 0x24) 4 1 full, ⟨b + 0x1004, 0x40, 4, span 20 0, 0, 0, true⟩,
  ⟨b + 0x1008, 0x40, 4, span 21 0, 0, 0, true⟩, ⟨b + 0x100C, 0x40, 4, full, 0, 0, true⟩,
  roRow (b + 0x1010) 0x40 4 full, roRow (b + 0x1014) 0x40 4 (span 15 0),
  roRow (b + 0x1018) 0x40 4 full, roRow (b + 0x101C) 0x40 4 (span 15 0),
  roRow (b + 0x1020) 0x40 4 full, roRow (b + 0x1024) 0x40 4 (span 26 0 + span 31 31),
  roRow (b + 0x400C) 32 1536 (full - span 7 7), roRow (b + 0x4010) 32 1536 full,
  roRow (b + 0x4014) 32 1536 (span 15 0), roRow (b + 0x4018) 32 1536 full,
  roRow (b + 0x401C) 32 1536 full]

/-- Version registry (R245), reduction and ledger (R275, R277), tallies (R246, R278, R436). -/
def rowsRed : List RegRow := [
  roRow 0x60010 0x100 4 (span 8 0 + span 24 16),
  roRow 0x60020 8 8 (full - span 7 3), roRow 0x60024 8 8 (span 3 0),
  roRow 0x60120 8 8 (full - span 7 3), roRow 0x60124 8 8 (span 3 0),
  roRow 0x60220 8 8 (full - span 7 3), roRow 0x60224 8 8 (span 3 0),
  roRow 0x60320 8 8 (full - span 7 3), roRow 0x60324 8 8 (span 3 0),
  ⟨0x90000, 4, 1, 0, 1, 0, false⟩, roRow 0x90004 4 3 full,
  ⟨0x90100, 0x20, 16, span 27 0, 0, 0, true⟩, ⟨0x90104, 0x20, 16, span 6 0, 0, 0, true⟩,
  ⟨0x90108, 0x20, 16, full, 0, 0, true⟩, ⟨0x9010C, 0x20, 16, full, 0, 0, true⟩,
  ⟨0x90110, 0x20, 16, span 24 0, 0, 0, true⟩, ⟨0x90114, 0x20, 16, full, 0, 0, true⟩,
  ⟨0x90118, 0x20, 16, span 15 0, 0, 0, true⟩, roRow 0x9011C 0x20 16 (span 1 0 + span 15 8),
  roRow 0x92004 4 1 (span 2 0 + span 23 8), ⟨0x92008, 4, 3, full, 0, 0, true⟩,
  ⟨0x92014, 4, 1, span 17 0, 0, 0, true⟩, ⟨0x92018, 4, 1, span 23 0, 0, 0, true⟩,
  ⟨0x9201C, 4, 1, span 15 0, 0, 0, true⟩, ⟨0x92020, 4, 3, full, 0, 0, true⟩,
  ⟨0x9202C, 4, 1, span 18 0, 0, 0, true⟩, roRow 0x92040 4 7 full, roRow 0x92060 4 1 full,
  ⟨0x92100, 4, 256, span 18 0 + span 31 31, 0, 0, true⟩,
  ⟨0xA0000, 4, 1, span 15 0, 0, 0, true⟩, roRow 0xA0004 4 2 full,
  roRow 0xA1004 32 256 full, roRow 0xA1008 32 256 (span 15 0), roRow 0xA100C 32 256 full,
  roRow 0xA1010 32 256 (span 15 0), roRow 0xA1014 32 256 full, roRow 0xA1018 32 256 (span 23 0),
  roRow 0xA8008 0x40 4 full, roRow 0xA800C 0x40 4 (span 15 0), roRow 0xA8010 0x40 4 full,
  roRow 0xA8014 0x40 4 (span 15 0), roRow 0xA8018 0x40 4 full, roRow 0xA801C 0x40 4 (span 15 0),
  roRow 0xA8020 0x40 4 full, roRow 0xA8024 0x40 4 (span 15 0), roRow 0xA8028 0x40 4 full,
  roRow 0xA9000 0x40 16 full, roRow 0xA9004 0x40 16 (span 15 0), roRow 0xA9008 0x40 16 full,
  roRow 0xA900C 0x40 16 (span 15 0), roRow 0xA9010 0x40 16 full, roRow 0xA9014 0x40 16 (span 15 0),
  ⟨0xA9018, 0x40, 16, span 8 0, 0, 0, true⟩, roRow 0xA901C 0x40 16 full]

/-- Power (R437), world and region table (R304, R410), port block (R334, R335), Lehr (R459). -/
def rowsEdge : List RegRow := [
  ⟨0xB0000, 4, 1, span 19 0, 0, 0, true⟩, roRow 0xB0004 4 1 (span 19 0),
  ⟨0xB0008, 4, 1, span 5 5, 0, span 4 0, true⟩, ⟨0xB000C, 4, 1, span 9 0, 0, 0, true⟩,
  roRow 0xC0000 4 1 1, roRow 0xC0004 4 1 full,
  ⟨0xC1200, 4, 1, 0, span 31 31, span 10 0, false⟩, roRow 0xC1204 4 1 (span 29 0),
  roRow 0xC1208 4 1 full,
  roRow 0xD0000 4 1 (span 19 0), ⟨0xD0008, 4, 1, 0, span 5 0, 0, false⟩,
  roRow 0xD000C 4 2 (span 17 0), ⟨0xD0014, 4, 1, span 19 0, 0, 0, true⟩,
  roRow 0xD0018 4 1 (span 19 0), roRow 0xD001C 4 2 (span 23 0), ⟨0xD0024, 4, 1, full, 0, 0, true⟩,
  roRow 0xD0030 4 8 full, roRow 0xD0050 8 2 full, roRow 0xD0054 8 2 (span 15 0),
  roRow 0xD0080 8 4 full, roRow 0xD0084 8 4 (span 26 0), roRow 0xD0100 4 36 full,
  ⟨0xD1000, 4, 1024, 0x87878787, 0, 0, true⟩, ⟨0xD2000, 4, 1024, 0x87878787, 0, 0, true⟩,
  ⟨0xE0000, 4, 1, span 12 0, 0, 0, true⟩, ⟨0xE0008, 4, 1, full, 0, 0, false⟩,
  roRow 0xE0010 4 1 (1 + span 19 8), ⟨0xE0020, 4, 1, full, 0, 0, true⟩,
  ⟨0xE0100, 8, 16, full, 0, 0, true⟩, ⟨0xE0104, 8, 16, span 15 0 + span 31 31, 0, 0, true⟩]

/-- The register map of a Pylek die, less the registers whose writes have a rule of their own. -/
def dieRows : List RegRow :=
  rowsCore ++ rowsSeq ++ rowsMc 0x70000 ++ rowsMc 0x80000 ++ rowsRed ++ rowsEdge

/-- The row of a register. -/
def rowOf (off : Nat) : Option RegRow := dieRows.find? (fun r => inArray off r.base r.stride r.n)

/-- Whether an offset lies in a block of the die's register space (R11). The tables give the blocks' bases alone: each
is taken to end at the next one (DESIGN CHOICE, log 41). -/
def inBlocks (off : Nat) : Bool :=
  decide (off < 0xF0000) || (decide (0x100000 ≤ off) && decide (off < 0x120000))

/-- The fields of a write that carry a reserved encoding (R5), as a mask: the limits that the register
tables of R223, R275, R277, R278, R303, R334 and R458 give, and the die numbers of R8. -/
def reservedFields (off v : Nat) : Nat :=
  if off = 0x50010 then (if bitsOf v 19 0 = 0 then span 19 0 else 0)
  else if off = 0x70004 ∨ off = 0x80004 then
    (if bitsOf v 6 0 < 8 ∨ 64 < bitsOf v 6 0 then span 6 0 else 0)
  else if inArray off 0x71008 0x40 4 || inArray off 0x81008 0x40 4 then
    (if bitsOf v 21 0 = 0 ∨ 2097152 < bitsOf v 21 0 then span 21 0 else 0)
  else if inArray off 0x90100 0x20 16 then (if dieReserved (bitsOf v 15 9) then span 15 9 else 0)
  else if inArray off 0x90104 0x20 16 then (if dieReserved (bitsOf v 6 0) then span 6 0 else 0)
  else if off = 0x92018 then (if bitsOf v 23 0 = 0 then span 23 0 else 0)
  else if off = 0x9201C then (if bitsOf v 15 0 = 0 then span 15 0 else 0)
  else if inArray off 0x92100 4 256 then (if dieReserved (bitsOf v 18 12) then span 18 12 else 0)
  else if off = 0xA0000 then (if bitsOf v 15 0 < 10 then span 15 0 else 0)
  else if off = 0xD0014 then (if bitsOf v 19 0 < 100 then span 19 0 else 0)
  else if off = 0xD0024 then
    (if bitsOf v 7 0 = 0 then span 7 0 else 0) + (if bitsOf v 31 8 = 0 then span 31 8 else 0)
  else if off = 0x400 then (if bitsOf v 23 0 = 0 then span 23 0 else 0)
  else 0

/-- `old` with the bits of mask `m` taken from `v`. -/
def maskPut (old m v : Nat) : Nat := (old ^^^ (old &&& m)) ||| (v &&& m)

/-- A write to a register of the map (R4, R5): its RW fields are stored but for reserved encodings, a 1
clears a W1C flag, and a reserved bit or encoding sets `INVALID_WRITE`. -/
def rowWrite (r : RegRow) (mgmt : Bool) (off v : Nat) (d : Die) : Die :=
  if r.mgmt && !mgmt && decide (r.rw + r.w1c ≠ 0) then d.invalidWrite off
  else
    let bad := reservedFields off v
    let old := maskPut (d.reg off) (r.rw ^^^ (r.rw &&& bad)) v
    let d := d.setReg off (old ^^^ (old &&& v &&& r.w1c))
    if v &&& (r.rw + r.w1c + r.ro) ≠ v ∨ bad ≠ 0 then d.invalidWrite off else d

/-! ## Writes with a rule of their own -/

/-- A write to word `k` of rod `n`'s table entry (R196, R388). -/
def rodWrite (mgmt : Bool) (n k v : Nat) (d : Die) : Die :=
  let off := rodBase n + 4 * k
  let bad (d : Die) : Die := d.invalidWrite 0x100000
  if 4 ≤ k then
    (let named := if k = 7 then span 25 0 else if k = 6 then span 24 0 else span 20 0
     if v &&& named ≠ v then bad d else d)
  else if rodOpen d n || (decide (k = 0) && !mgmt) then bad d
  else if k = 0 then
    if bitOf v 2 && !d.world then bad d
    else
      let d := (d.put ⟨off, 2, 2⟩ (bitsOf v 2 2)).put ⟨off, 7, 4⟩ (bitsOf v 7 4)
      if bitOf v 3 ∨ bitsOf v 15 8 ≠ 0 then bad d else d
  else if k = 1 then d.setReg off v
  else if k = 2 then
    let d := d.put ⟨off, 16, 0⟩ v
    if bitsOf v 31 17 ≠ 0 then bad d else d
  else
    let deep := decide (1024 < bitsOf v 25 15)
    let d := d.put ⟨off, 14, 0⟩ v
    let d := if deep then d else d.put ⟨off, 25, 15⟩ (bitsOf v 25 15)
    if deep || decide (bitsOf v 31 26 ≠ 0) then bad d else d

/-- A write to a control register of stage `t` (R245): by the management complex, while every slot is
FREE. -/
def verWrite (mgmt : Bool) (t k v : Nat) (d : Die) : Die :=
  let off := verBase t + 4 * k
  let free := (List.range 8).all (fun s => decide (slotState d t s = 0))
  if !mgmt || !free then d.invalidWrite off
  else
    let m := if k = 0 then span 10 0 else if k = 1 then span 26 0 else if k = 2 then full else span 15 0
    let d := d.setReg off (v &&& m)
    if v &&& m ≠ v then d.invalidWrite off else d

/-- The thread range of stage `t` (R246): first and one past the last. -/
def stageRange (w : Nat) : Nat × Nat := (bitsOf w 10 0, bitsOf w 10 0 + bitsOf w 21 11 + 1)

/-- A write to `TAL_STAGE`t`_THREADS` (R226): one that would make two ranges overlap is ignored. -/
def stageThreadsWrite (mgmt : Bool) (t v : Nat) (d : Die) : Die :=
  let off := 0xA8000 + 0x40 * t
  let meets := bitOf v 22 && (List.range 4).any (fun u =>
    let w := d.reg (0xA8000 + 0x40 * u)
    decide (u ≠ t) && bitOf w 22 && decide ((stageRange v).1 < (stageRange w).2) &&
      decide ((stageRange w).1 < (stageRange v).2))
  if !mgmt || meets then d.invalidWrite off
  else
    let d := d.setReg off (v % 2 ^ 23)
    if 2 ^ 23 ≤ v then d.invalidWrite off else d

/-- A write to word `w` of region entry `k` (R287). -/
def regionWrite (mgmt : Bool) (off v : Nat) (d : Die) : Die :=
  let d' := d.setReg off v
  let t := tabulate 64 (fun k => (regionLo d' k, regionHi d' k))
  if mgmt && tableOk t then d' else d.invalidWrite off

/-- A ledger register that stands fast while `ENABLE` is 1 (R277). -/
def ldgHeld (off : Nat) : Bool :=
  (decide (0x92008 ≤ off) && decide (off ≤ 0x92014)) || inArray off 0x92100 4 256

/-- A write of `LHR_OP_HI` (R459): `GO` asks for the op. The reserved `OP` keeps the old one (R5). -/
def lhrOpWrite (v : Nat) (d : Die) : Die :=
  let bad := decide (bitsOf v 21 20 = 3)
  let d' := d.put ⟨0xE000C, 19, 0⟩ (bitsOf v 19 0)
  let d' := if bad then d' else d'.put ⟨0xE000C, 21, 20⟩ (bitsOf v 21 20)
  let d' := if bad ∨ bitsOf v 30 22 ≠ 0 then d'.invalidWrite 0xE000C else d'
  if bitOf v 31 then { d' with lhrGo := true } else d'

/-- A write of `LHR_LEDGER_RESUME_HI` (R451, R459): `GO` puts the ledger unit COLLECTING at the step and
attempt, and it decides REPEAT with cause `POISONED`. -/
def ldgResumeWrite (mgmt : Bool) (v : Nat) (d : Die) : Die :=
  if !mgmt then d.invalidWrite 0xE0024
  else
    let d := d.put ⟨0xE0024, 23, 0⟩ (bitsOf v 23 0)
    let d := if bitsOf v 30 24 ≠ 0 then d.invalidWrite 0xE0024 else d
    if bitOf v 31 then
      let step := d.reg 0xE0020 + (d.get ⟨0xE0024, 15, 0⟩) <<< 32
      let d := d.setReg48 0x92008 step
      let d := (d.put ⟨0x92004, 1, 0⟩ 1).put ⟨0x92004, 15, 8⟩ (d.get ⟨0xE0024, 23, 16⟩)
      ldgDecide (1, Status.poisoned.code) (d.put ⟨0x92000, 0, 0⟩ 1)
    else d

/-- A write to the register at `off` of the die's space. `mgmt`: by the management complex; `hostIf`: by
the host interface (R386); `formed`: the die belongs to a formed partition (R302). A scale or lane register takes
its value at once, whatever vector ops wait (R141 orders them not; DESIGN CHOICE, log 62). -/
def dieWrite (mgmt hostIf formed : Bool) (off v : Nat) (d : Die) : Die :=
  if off % 4 ≠ 0 ∨ !inBlocks off then d
  else if 0x100000 ≤ off then rodWrite mgmt ((off - 0x100000) / 32) (off % 32 / 4) v d
  else if inArray off 0x10040 4 4 && arrBusy d 0x14 then { d with genWrites := d.genWrites ++ [(off, v)] }
  else if off = 0x30014 then dieLaunch mgmt v d
  else if off = 0x30028 then dieProgLoad mgmt v d
  else if inArray off 0x204 16 4 && (mgmt || hostIf) then d.setReg off v
  else if off = 0x41000 ∨ inArray off 0x40100 4 32 ∨ inArray off 0x41100 4 256 then
    vecRegWrite mgmt (off - 0x40000) v d
  else if inArray off 0x60000 0x100 4 || inArray off 0x60004 0x100 4 || inArray off 0x60008 0x100 4 ||
      inArray off 0x6000C 0x100 4 then
    verWrite mgmt ((off - 0x60000) / 0x100) (off % 0x100 / 4) v d
  else if inArray off 0x71000 0x40 4 || inArray off 0x81000 0x40 4 then
    dieTgStart mgmt formed (decide (0x80000 ≤ off)) (off % 0x1000 / 0x40) v d
  else if inArray off 0x74000 32 1536 || inArray off 0x74004 32 1536 || inArray off 0x74008 32 1536 then
    dieContextConfig mgmt false ((off - 0x74000) / 32) (off % 32 / 4) v d
  else if inArray off 0x84000 32 1536 || inArray off 0x84004 32 1536 || inArray off 0x84008 32 1536 then
    dieContextConfig mgmt true ((off - 0x84000) / 32) (off % 32 / 4) v d
  else if off = 0x92000 then ldgCtlWrite mgmt v d
  else if ldgHeld off && d.flag 0x92000 0 then d.invalidWrite off
  else if inArray off 0xA1000 32 256 then dieCollectorEnable mgmt ((off - 0xA1000) / 32) v d
  else if inArray off 0xA8000 0x40 4 then stageThreadsWrite mgmt ((off - 0xA8000) / 0x40) v d
  else if inArray off 0xC1000 4 128 then regionWrite mgmt off v d
  else if off = 0xD0004 then wlkCtlWrite mgmt v d
  else if off = 0xE000C then lhrOpWrite v d
  else if off = 0xE0024 then ldgResumeWrite mgmt v d
  else match rowOf off with
    | some r => rowWrite r mgmt off v d
    | none => if v = 0 then d else d.invalidWrite off

/-! ## Reads -/

/-- The slots of 16 that the budget, the issue ramp, the clamp, the pacing wires and the controllers
leave the die: the lowest (R44, R52, R94, R299, R430). -/
def diePace (d : Die) : Nat :=
  let hot (b : Nat) : Nat := if d.flag b 2 then 12 else 16
  min (min (min d.rowPace d.ramp) (min (hot 0x70000) (hot 0x80000)))
    (min (if d.clamp then 8 else 16) (d.get ⟨0xB0008, 3, 0⟩ + 1))

/-- `DIE_ID` (R191). -/
def dieId (d : Die) : Nat :=
  d.phys + (d.phys / 9) <<< 7 + (d.phys % 9) <<< 11 + d.logical.toNat <<< 16 +
    (Config.revision d.phys).toNat <<< 28

/-- `ARR_FEED_STALLS`, `ARR_LANE_STALLS` and `ARR_SWAP_WAITS` (R102, R120): nothing waits before the first step
or the first SWAP held; how long a wait lasts no rule says (log 56). -/
def stallCount (d : Die) (off : Nat) : Nat :=
  let steps := d.reg48 0x10020
  if off = 0x10030 then (if d.swapsHeld = 0 then 0 else (Config.swapWaits d.phys d.swapsHeld).toNat)
  else if steps = d.stallFrom then 0
  else if off = 0x10028 then (Config.feedStalls d.phys d.stallFrom steps).toNat
  else (Config.laneStalls d.phys d.stallFrom steps).toNat

/-- `SEQ_THREADn_STATE` (R192). -/
def threadWord (th : Thread) : Nat := th.pc.toNat + th.st.code <<< 17 + th.last.code <<< 20

/-- `SEQ_THREADn_TOKENS` (R192). -/
def tokenWord (th : Thread) : Nat :=
  (List.range 16).foldl (fun w i => w + bit (decide (th.cnt i = 0)) <<< i +
    bit (decide (th.tok i ≠ .ok)) <<< (16 + i)) 0

/-- What a read of the register at `off` returns: a field that mirrors other state is computed from it;
a WO field reads 0. -/
def dieRead (d : Die) (off : Nat) : Nat :=
  if off % 4 ≠ 0 ∨ !inBlocks off then 0
  else if off = 0x0 then dieId d
  else if off = 0x10000 then
    d.get ⟨0x10000, 0, 0⟩ + (d.depth .array) <<< 1 + bit (arrBusy d 0x10) <<< 6 +
      bit (arrBusy d 0x14) <<< 7 + (diePace d - 1) <<< 8
  else if off = 0x10028 ∨ off = 0x1002C ∨ off = 0x10030 then stallCount d off
  else if off = 0x20100 then d.depth .dma + (min 16 (d.depth .dma)) <<< 7
  else if off = 0x30000 then
    (d.threads.filter (fun e => decide (e.2.st ≠ .free))).length +
      (d.threads.filter (fun e => decide (e.2.st = .ready))).length <<< 12 +
      (d.depth .vector) <<< 24 + bit d.progLoad.isSome <<< 30
  else if inArray off 0x34000 8 2048 then threadWord (d.thread (BitVec.ofNat 11 ((off - 0x34000) / 8)))
  else if inArray off 0x34004 8 2048 then tokenWord (d.thread (BitVec.ofNat 11 ((off - 0x34004) / 8)))
  else if off = 0x50000 then
    d.sendsOut + (d.threads.filter (fun e => decide (e.2.st = .waitCredit))).length <<< 11
  else if off = 0x50004 then ((List.range 512).filter (fun e => ccValid d e)).length
  else if off = 0x70020 ∨ off = 0x80020 then
    let l := mcSlots d (decide (off = 0x80020))
    (l.filter (fun s => !isNeedle s)).length + (l.filter isNeedle).length <<< 9
  else if inArray off 0x100000 32 4096 then
    let n := (off - 0x100000) / 32
    putBits (d.reg off) 31 16 (rodEpoch d n)
  else d.reg off

/-! ## SLOAD and SSTORE (R167, R168) -/

/-- `ADDR` of SLOAD and SSTORE: an address field with `SPACE` 0 alone (R153). -/
def spaceAddr (w : OpWord) (th : Thread) : Nat :=
  opField w.x 28 6 + (if bitOf w.x.toNat 5 then 0 else (oregOff th w).toNat)

/-- The operand check of SLOAD and SSTORE (R168). -/
def spaceChk (w : OpWord) (th : Thread) : Option Status :=
  let a := spaceAddr w th
  if bitOf w.x.toNat 5 then (if inBlocks (4 * a) then none else some .malformed)
  else if spdBytes < 8 * a + 8 then some .malformed else none

/-- SLOAD (R167, R177). -/
def dieSload (t : ThreadId) (w : OpWord) (d : Die) : Die :=
  issueOp 0x0A t w [(28, 0)] (fun _ th => spaceChk w th) (fun d th =>
    let a := spaceAddr w th
    let sd := opField w.x 4 0
    let d := issued d t
    if bitOf w.x.toNat 5 then d.setThread t ((d.thread t).setS sd (BitVec.ofNat 64 (dieRead d (4 * a))))
    else
      let (bs, lost, d) := spdRead 4 (8 * a) 8 d
      let v := if lost.isEmpty then leNat bs else 0
      let d := d.setThread t ((d.thread t).setS sd (BitVec.ofNat 64 v))
      if lost.isEmpty then d else notOk d t 0x0A (wHoe w) .poisoned) d

/-- SSTORE (R167, R168). -/
def dieSstore (t : ThreadId) (w : OpWord) (d : Die) : Die :=
  issueOp 0x0B t w [(28, 0)] (fun _ th => spaceChk w th) (fun d th =>
    let a := spaceAddr w th
    let v := (th.sreg (opField w.x 4 0)).toNat
    let d := issued d t
    if bitOf w.x.toNat 5 then dieWrite false false false (4 * a) (v % 2 ^ 32) d
    else spdWrite 4 (8 * a) (leBytes 8 v) d) d

end Sys2Proof.Machine
end

