-- ==== Sys2Proof/Machine/Block.lean ====
section
/-! DEFINITION. The named operations over the block: its dies, the register space of the Punty die (R11),
host functions, partitions and jobs as the tables of R435 hold them. -/

namespace Sys2Proof.Machine

/-! ## Dies -/

/-- A die that nothing has touched: its domain off (R7, R46). -/
def die0 (p : Nat) : Die := { phys := p }

/-- Physical die `p`. -/
def State.die (s : State) (p : Nat) : Die := tabGet die0 s.dies p

/-- The block with physical die `p` stored. -/
def State.setDie (s : State) (p : Nat) (d : Die) : State := { s with dies := tabSet die0 s.dies p d }

/-- The block with physical die `p` changed. -/
def State.modDie (s : State) (p : Nat) (f : Die → Die) : State := s.setDie p (f (s.die p))

/-- The block with every die of a list changed. -/
def State.modDies (s : State) (ps : List Nat) (f : Die → Die) : State :=
  ps.foldl (fun s p => s.modDie p f) s

/-- The physical die of a logical number (R8, R69). -/
def State.physOf (s : State) (l : Nat) : Option Nat := tabGet (fun _ => none) s.binds l

/-- The physical numbers of a row (R7). -/
def rowPhys (n : Nat) : List Nat := tabulate 9 (fun c => 9 * n + c)

/-- The logical numbers of a row's place in the snake (R67). -/
def rowLogical (n : Nat) : List Nat := tabulate 8 (fun k => 8 * n + k)

/-- A free value drawn outside the dies (log 2). -/
def State.draw (s : State) : BitVec 64 × State := (Config.freeValue s.free, { s with free := s.free + 1 })

/-- A free value as a choice of a reader: advances the counter only. -/
def State.output (s : State) (o : Output) : State := { s with outputs := s.outputs ++ [o] }

/-! ## The register space of the Punty die (R11) -/

/-- The After reset words of the Punty die's registers (R45, R83, R435, R437, R460). The row setpoints,
which come from POWER, stand at the boot voltage of R41 before an image is read. -/
def puntyReset (off : Nat) : Word32 :=
  if inArray off 0x30 4 4 then 0xFFFFFFFF
  else if off = 0x40 then 0xFFFF
  else if off = 0x204 then 0x7F000
  else if off = 0x10000 then BitVec.ofNat 32 (2450 <<< 4)
  else if inArray off 0x10010 4 8 then BitVec.ofNat 32 (720 + 720 <<< 16)
  else if off = 0x10104 then 0xFFFFFFFF
  else 0

/-- The stored word of a Punty register. -/
def State.reg (s : State) (off : Nat) : Nat := (tabGet puntyReset s.punty off).toNat

/-- The block with a Punty register stored. -/
def State.setReg (s : State) (off v : Nat) : State :=
  { s with punty := tabSet puntyReset s.punty off (BitVec.ofNat 32 v) }

/-- A field of a Punty register. -/
def State.get (s : State) (f : Fld) : Nat := bitsOf (s.reg f.off) f.hi f.lo

/-- The block with a field of a Punty register stored. -/
def State.put (s : State) (f : Fld) (v : Nat) : State :=
  s.setReg f.off (putBits (s.reg f.off) f.hi f.lo v)

/-- A one-bit field of a Punty register. -/
def State.flag (s : State) (off i : Nat) : Bool := bitOf (s.reg off) i

/-- A saturating count of the Punty die. -/
def State.count (s : State) (off n : Nat) : State := s.setReg off (satAdd 32 (s.reg off) n)

/-- The Punty registers of [lo, hi) back at their After reset values. -/
def State.resetRegs (s : State) (lo hi : Nat) : State := { s with punty := tabDrop s.punty lo hi }

/-- `INVALID_WRITE` of `MGT_FLAGS` (R5, R191). -/
def State.invalidWrite (s : State) : State := s.put ⟨0x300, 0, 0⟩ 1

/-- `STATE` of `MGT_BOOT_STATE` (R55). -/
def State.boot (s : State) : Nat := s.get ⟨0x0, 3, 0⟩

/-- The boot state is entered. -/
def State.setBoot (s : State) (v : Nat) : State := s.put ⟨0x0, 3, 0⟩ v

/-- The firmware runs: FW_START, LINKS or READY (R55, R429). -/
def State.reckoner (s : State) : Bool := decide (6 ≤ s.boot) && decide (s.boot ≤ 8)

/-- `PACKAGE` (R83). -/
def State.package (s : State) : Nat := s.get ⟨0xC, 11, 0⟩

/-- `DIE_STATE` of a physical die (R83). -/
def State.dieState (s : State) (p : Nat) : Nat :=
  s.get ⟨0x30 + 4 * (p / 16), 2 * (p % 16) + 1, 2 * (p % 16)⟩

/-- The block with a `DIE_STATE` stored. -/
def State.setDieState (s : State) (p v : Nat) : State :=
  s.put ⟨0x30 + 4 * (p / 16), 2 * (p % 16) + 1, 2 * (p % 16)⟩ v

/-- Row `n` is degraded (R70). -/
def State.degraded (s : State) (n : Nat) : Bool := s.flag 0x44 n

/-! ## Partitions and jobs (R411 to R419, R435) -/

/-- `STATE` of a partition: 0 NONE, 1 FORMED, 2 RESETTING (R412). -/
def State.partState (s : State) (p : Nat) : Nat := s.get ⟨0x100 + 4 * p, 1, 0⟩

/-- The row mask of a partition. -/
def State.partMask (s : State) (p : Nat) : Nat := s.get ⟨0x100 + 4 * p, 15, 8⟩

/-- The rows of a mask, ascending. -/
def maskRows (m : Nat) : List Nat := (List.range 8).filter (fun n => bitOf m n)

/-- The rows of a partition. -/
def State.partRows (s : State) (p : Nat) : List Nat := maskRows (s.partMask p)

/-- The physical dies of a partition, its spares among them (R411). -/
def State.partPhys (s : State) (p : Nat) : List Nat := (s.partRows p).flatMap rowPhys

/-- The logical dies of a partition. -/
def State.partLogical (s : State) (p : Nat) : List Nat := (s.partRows p).flatMap rowLogical

/-- The bound dies of a partition: logical and physical numbers, in the order of the snake. -/
def State.partBound (s : State) (p : Nat) : List (Nat × Nat) :=
  (s.partLogical p).filterMap (fun l => (s.physOf l).map (fun q => (l, q)))

/-- The partition that holds a row. -/
def State.rowPart (s : State) (n : Nat) : Option Nat :=
  (List.range 8).find? (fun p => decide (s.partState p ≠ 0) && bitOf (s.partMask p) n)

/-- The die belongs to a formed partition, one that is being reset among them. -/
def State.formed (s : State) (p : Nat) : Bool := (s.rowPart (p / 9)).isSome

/-- The register of a job (R435). -/
def jobReg (j : Nat) : Nat := 0x140 + 4 * j

/-- `STATE` of a job (R417). -/
def State.jobState (s : State) (j : Nat) : Nat := s.get ⟨jobReg j, 2, 0⟩

/-- The partition of a job. -/
def State.jobPart (s : State) (j : Nat) : Nat := s.get ⟨jobReg j, 6, 4⟩

/-- A job's state is set. -/
def State.setJobState (s : State) (j v : Nat) : State := s.put ⟨jobReg j, 2, 0⟩ v

/-- A job's `CAUSE` is set. -/
def State.setJobCause (s : State) (j : Nat) (st : Status) : State := s.put ⟨jobReg j, 23, 16⟩ st.code

/-- The jobs of a partition that are not EMPTY. -/
def State.partJobs (s : State) (p : Nat) : List Nat :=
  (List.range 16).filter (fun j => decide (j ≠ 0) && decide (s.jobState j ≠ 0) && decide (s.jobPart j = p))

/-- What the Reckoner keeps of a job. -/
def State.job (s : State) (j : Nat) : JobInfo := tabGet (fun _ => {}) s.jobs j

/-- The block with that stored. -/
def State.setJob (s : State) (j : Nat) (i : JobInfo) : State :=
  { s with jobs := tabSet (fun _ => {}) s.jobs j i }

/-- The block with that changed. -/
def State.modJob (s : State) (j : Nat) (f : JobInfo → JobInfo) : State := s.setJob j (f (s.job j))

/-- The dies of a job's partition. -/
def State.jobDies (s : State) (j : Nat) : List (Nat × Nat) := s.partBound (s.jobPart j)

/-! ## Host functions (R353, R385) -/

/-- A host function. -/
def State.fn (s : State) (f : Nat) : Fn := tabGet (fun _ => {}) s.fns f

/-- The block with a function stored. -/
def State.setFn (s : State) (f : Nat) (x : Fn) : State := { s with fns := tabSet (fun _ => {}) s.fns f x }

/-- The block with a function changed. -/
def State.modFn (s : State) (f : Nat) (g : Fn → Fn) : State := s.setFn f (g (s.fn f))

/-- A word of a function's BAR0; the After reset values of R385 are 0. -/
def Fn.reg (x : Fn) (off : Nat) : Nat := (tabGet (fun _ => (0 : Word32)) x.regs off).toNat

/-- The function with a word stored. -/
def Fn.setReg (x : Fn) (off v : Nat) : Fn :=
  { x with regs := tabSet (fun _ => (0 : Word32)) x.regs off (BitVec.ofNat 32 v) }

/-- The function with a field stored. -/
def Fn.put (x : Fn) (f : Fld) (v : Nat) : Fn := x.setReg f.off (putBits (x.reg f.off) f.hi f.lo v)

/-- The function with a flag of `HST_EVENT` set (R385). -/
def Fn.event (x : Fn) (i : Nat) : Fn := x.put ⟨0x1004, i, i⟩ 1

/-- `ATTACH` of a function (R382). -/
def Fn.attach (x : Fn) : Nat := bitsOf (x.reg 0x1000) 15 0

/-- The world of a function (R388). -/
def State.fnWorld (s : State) (f : Nat) : Bool := bitOf s.worlds.functions.toNat f

/-- The world of a command queue (R388). -/
def State.queueWorld (s : State) (f q : Nat) : Bool := bitOf s.worlds.queues.toNat (4 * f + q)

/-- The world of an engine (R388). -/
def State.engineWorld (s : State) (n : Nat) : Bool := bitOf s.worlds.engines.toNat n

/-- The world of a logical die (R388). -/
def State.dieWorld (s : State) (l : Nat) : Bool := bitOf s.worlds.dies.toNat l

/-! ## The configuration in force (R54, R62) -/

/-- The offset and length of a section of an image's directory (R62). -/
def imageSection (img : Bytes) (type : Nat) : Option (Nat × Nat) :=
  ((List.range (natAt img 6 2)).find? (fun i => decide (natAt img (0x40 + 48 * i) 2 = type))).map
    (fun i => (natAt img (0x44 + 48 * i) 4, natAt img (0x48 + 48 * i) 4))

/-- The bytes of a section; none: empty. -/
def sectionBytes (img : Bytes) (type : Nat) : Bytes :=
  match imageSection img type with
  | some (o, n) => sliceB img o n
  | none => []

/-- The default snake (R21). -/
def defaultSnake (k : Nat) : Nat :=
  let m := k / 8
  let i := if m % 2 = 0 then k % 8 else 7 - k % 8
  9 * m + (if i < 4 then i else i + 1)

/-- The physical die of Lk in an image (R63). -/
def snakeOf (img : Bytes) (k : Nat) : Nat :=
  match imageSection img 2 with
  | some (o, _) => natAt img (o + k) 1
  | none => defaultSnake k

/-- The role of port `n` (R65); without a configuration: DISABLED. -/
def State.role (s : State) (n : Nat) : Nat :=
  match imageSection s.image 3 with
  | some (o, _) => natAt s.image (o + n) 1
  | none => 0

/-- The row setpoint of POWER in mV (R66). -/
def State.powerMv (s : State) (n : Nat) : Nat :=
  match imageSection s.image 0xA with
  | some (o, _) => natAt s.image (o + 2 * n) 2
  | none => 720

/-- The power manager's registers that come from the image (R66, R437): mode and setpoints. -/
def imagePower (s : State) : State :=
  (List.range 8).foldl (fun s n => s.setReg (0x10010 + 4 * n) (s.powerMv n + s.powerMv n <<< 16))
    (s.put ⟨0x10000, 0, 0⟩ (bitsOf (natAt s.image 0x12 2) 1 1))

/-- The primary and the alternate die of a port (R18). -/
def portDies (n : Nat) : Nat × Nat :=
  let p := if n < 4 then 18 * n else 18 * (n - 4) + 8
  (p, p + 9)

/-- The die whose port block carries port `n` (R309, R334): `CARRIER` is set there. -/
def State.carrier (s : State) (n : Nat) : Option Nat :=
  let has (p : Nat) : Bool := (s.die p).flag 0xD0000 3 && decide (wlkPort (s.die p) = n)
  if has (portDies n).1 then some (portDies n).1
  else if has (portDies n).2 then some (portDies n).2 else none

/-- The port whose attachment a die is (R18). -/
def portOfDie (p : Nat) : Option Nat :=
  (List.range 8).find? (fun n => decide ((portDies n).1 = p) || decide ((portDies n).2 = p))

/-- Port `n` is in state UP (R326). -/
def State.portUp (s : State) (n : Nat) : Bool :=
  match s.carrier n with
  | some p => wlkUp (s.die p)
  | none => false

end Sys2Proof.Machine
end

