-- ==== Sys2Proof/Machine/Fabric.lean ====
section
/-! DEFINITION. The panel fabric: the routes that the Punty die computes (R216), forwarding (R205, R215,
R307, R308) and the combining of tally beads (R264). -/

namespace Sys2Proof.Machine

/-! ## Routes (R216) -/

/-- The grid neighbour of a die: 1 north, 2 east, 3 south, 4 west (R7, R216). -/
def neighbour (p dir : Nat) : Option Nat :=
  if dir = 1 then (if p < 63 then some (p + 9) else none)
  else if dir = 2 then (if p % 9 < 8 then some (p + 1) else none)
  else if dir = 3 then (if 9 ≤ p then some (p - 9) else none)
  else if dir = 4 then (if 0 < p % 9 then some (p - 1) else none)
  else none

/-- The first direction of the route along the row and then along the column (R216). -/
def rowFirst (p q : Nat) : Nat :=
  if p % 9 < q % 9 then 2 else if q % 9 < p % 9 then 4
  else if p / 9 < q / 9 then 1 else if q / 9 < p / 9 then 3 else 0

/-- Every router of that route forwards. -/
def rowFirstClear (fwd : List Bool) (q : Nat) : (fuel : Nat) → Nat → Bool
  | 0, _ => false
  | n + 1, p =>
    fwd.getD p false && (decide (p = q) || (match neighbour p (rowFirst p q) with
      | some p' => rowFirstClear fwd q n p'
      | none => false))

/-- The root of the spanning tree (R216). -/
def treeRoot (fwd : List Bool) : Option Nat :=
  ([4, 13, 22, 31, 40, 49, 58, 67] ++ List.range 72).find? (fun p => fwd.getD p false)

/-- The breadth-first tree: routers reached in order, each with its parent and the direction from the
parent to it (R216). -/
def treeGrow (fwd : List Bool) : (fuel i : Nat) → List (Nat × Nat × Nat) → List (Nat × Nat × Nat)
  | 0, _, t => t
  | n + 1, i, t =>
    match t[i]? with
    | none => t
    | some (p, _, _) =>
      let t := [1, 2, 3, 4].foldl (fun t dir => match neighbour p dir with
        | some q => if fwd.getD q false && !t.any (fun e => decide (e.1 = q)) then t ++ [(q, p, dir)] else t
        | none => t) t
      treeGrow fwd n (i + 1) t

/-- The spanning tree of the forwarding routers; the root stands as its own parent. -/
def spanTree (fwd : List Bool) : List (Nat × Nat × Nat) :=
  match treeRoot fwd with
  | some r => treeGrow fwd 72 0 [(r, r, 0)]
  | none => []

/-- The parent of a router in the tree and the direction from the parent to it. -/
def treeParent (t : List (Nat × Nat × Nat)) (p : Nat) : Option (Nat × Nat) := t.lookup p

/-- The way up from a router: each router with the direction in which its parent reaches it. -/
def treeWay (t : List (Nat × Nat × Nat)) : (fuel p : Nat) → List (Nat × Nat)
  | 0, _ => []
  | n + 1, p => match treeParent t p with
    | some (q, dir) => if q = p then [(p, 0)] else (p, dir) :: treeWay t n q
    | none => []

/-- The opposite direction. -/
def backDir (dir : Nat) : Nat := if dir = 1 then 3 else if dir = 2 then 4 else if dir = 3 then 1 else 2

/-- The step of the lane-1 route from `p` to `q`: down towards `q` if `p` is above it, else up. -/
def treeStep (t : List (Nat × Nat × Nat)) (p q : Nat) : Option Nat :=
  let way := treeWay t 73 q
  if way.any (fun e => decide (e.1 = p)) then
    -- the router on `q`'s way whose parent is `p`
    (way.find? (fun e => (treeParent t e.1).map (·.1) == some p && decide (e.1 ≠ p))).map (·.2)
  else if way.isEmpty then none
  else match treeParent t p with
    | some (par, dir) => if par = p then none else some (backDir dir)
    | none => none

/-- The entry for a route from `p` to physical die `q`: `DIR` and `LANE`; `last`: the output at `q`
itself. -/
def routeEntry (fwd : List Bool) (t : List (Nat × Nat × Nat)) (p q last : Nat) : Nat :=
  if p = q then last
  else if rowFirstClear fwd q 17 p then rowFirst p q
  else match treeStep t p q with
    | some dir => dir + 8
    | none => 7

/-- The routers that forward: their domain on, their own test passed (R20, R68). -/
def State.forwards (s : State) : List Bool :=
  tabulate 72 (fun p => decide ((s.die p).run ≠ .off) && (s.die p).routerOk)

/-- The die whose Punty seam traffic to die 127 from `p` takes: the nearest of P3, P4 and P5 whose
router forwards (R19). -/
def puntySeam (fwd : List Bool) (p : Nat) : Option Nat :=
  let order := if p % 9 ≤ 3 then [3, 4, 5] else if p % 9 = 4 then [4, 3, 5] else [5, 4, 3]
  order.find? (fun q => fwd.getD q false)

/-- The lane-1 direction of an entry (R216): along the spanning tree, whatever the entry's own route. -/
def treeEntry (t : List (Nat × Nat × Nat)) (p last : Nat) : Option Nat → Nat
  | some q => if p = q then last else (treeStep t p q).getD 7
  | none => 7

/-- What each entry of a route table leads to, and the output at that die itself (R216): logical dies, die
127, the egress towards each port. -/
def routeGoals (s : State) (fwd : List Bool) (p : Nat) : List (Option Nat × Nat) :=
  tabulate 64 (fun l => (s.physOf l, 0)) ++ [(puntySeam fwd p, 5)] ++
    tabulate 8 (fun n => (s.carrier n, 6))

/-- The route table of router `p` (R216). -/
def routeTable (s : State) (fwd : List Bool) (t : List (Nat × Nat × Nat)) (p : Nat) : List Nat :=
  (routeGoals s fwd p).map (fun e => match e.1 with
    | some q => routeEntry fwd t p q e.2
    | none => 7)

/-- The lane-1 directions that stand beside it. A frame on lane 1 keeps to the tree at every router, while
the table's own entry for its destination may be a lane-0 route from there (DEDUCED, log 63). -/
def treeTable (s : State) (fwd : List Bool) (t : List (Nat × Nat × Nat)) (p : Nat) : List Nat :=
  (routeGoals s fwd p).map (fun e => treeEntry t p e.2 e.1)

/-- The Punty die writes every router's table (R216). -/
def writeRoutes (s : State) : State :=
  let fwd := s.forwards
  let t := spanTree fwd
  ((List.range 72).filter (fun p => decide ((s.die p).run ≠ .off))).foldl (fun s' p =>
    s'.modDie p (fun d =>
      let d := (routeTable s fwd t p).zipIdx.foldl (fun d e => d.setReg (0x50100 + 4 * e.2) e.1) d
      { d with tree := tabPut (fun _ => 7) [] 0 (treeTable s fwd t p) })) s

/-! ## Segments at a router (R214, R215)

The inputs of a router: 0 its rod unit and senders, 1 to 4 the seams from north, east, south and west, 5 the
Punty seam, 6 to 9 the four virtual channels of its port block. Its outputs: 0 the die, 1 to 4 the seams,
5 the Punty seam, 6 the port block, and 7 for what it refuses or discards. A frame takes its lane at input 0
or 5 to 9, where it enters the fabric, and keeps it. -/

/-- The frame enters the fabric at this input. -/
def origin (i : Nat) : Bool := decide (i = 0) || decide (5 ≤ i)

/-- The flits that a queue holds. -/
def queueFlits (l : List Seg) : Nat := (l.map segFlits).sum

/-- A queue of 4 flits has room for a segment (R214). A segment of more than 4 flits streams through an empty
one (DEDUCED, log 63). -/
def hasRoom (l : List Seg) (g : Seg) : Bool := l.isEmpty || decide (queueFlits l + segFlits g ≤ 4)

/-- A frame of the Punty die enters the mesh over the seam of P3, P4 or P5 nearest to its destination, as
traffic to die 127 takes it from there (R19; DEDUCED, log 63); with none of them forwarding it is lost. -/
def puntySend (f : Frame) (s : State) : State :=
  let (pkg, l) := match f with
    | .bead h _ => ((beadOf h).dstPkg, (beadOf h).dstDie)
    | .rap h _ => (bitsOf (rapOf h).target 63 52, bitsOf (rapOf h).target 51 45)
  let near := if pkg = s.package then (s.physOf l).getD 4 else 4
  match puntySeam s.forwards near with
  | some p => s.modDie p (rtPush 10 (frameCut f))
  | none => s

/-- Package and die that a frame is for. -/
def frameDst : Frame → Nat × Nat
  | .bead h _ => ((beadOf h).dstPkg, (beadOf h).dstDie)
  | .rap h _ => (bitsOf (rapOf h).target 63 52, bitsOf (rapOf h).target 51 45)

/-- The frame is an answer or CONTROL bead, which no one answers. -/
def frameSilent : Frame → Bool
  | .bead h _ => decide ((beadOf h).kind = 2) || decide ((beadOf h).kind = 5)
  | .rap _ _ => false

/-- A router refuses a frame (R205, R308). -/
def refuse (p : Nat) (f : Frame) (st : Status) (s : State) : State :=
  s.modDie p (fun d =>
    let d := if st = .worldViolation then worldRefused d else d
    match refusal d.world d.logical.toNat f st with
    | some n => emit (.bead n []) d
    | none => if st = .unreachable ∧ frameSilent f then d.count 0xD004C 1 else d)

/-- The Punty die takes a frame addressed to die 127 (R205): a NAK or CONTROL bead for the management
complex, which reads nothing in it; anything else is answered with NAK `MALFORMED`. -/
def puntyTake (f : Frame) (s : State) : State :=
  match refusal true 127 f .malformed with
  | some n => puntySend (.bead n []) s
  | none => s

/-- The die receives a segment (R214): a frame of one segment lies in its inbox at once, a longer one with
its last segment. A segment whose frame has lost its beginning is dropped. -/
def takeSeg (g : Seg) (d : Die) : Die :=
  let head := frameHead g.frame
  if !g.cont then
    if g.last then { d with inbox := d.inbox ++ [g.frame] }
    else { d with parts := d.parts.filter (fun f => decide (frameKey f ≠ frameKey head)) ++ [g.frame] }
  else match d.parts.find? (fun f => decide (frameHead f = head)) with
    | none => d
    | some f =>
      let f' := match f with
        | .bead h p => .bead h (p ++ framePayload g.frame)
        | .rap h p => .rap h (p ++ framePayload g.frame)
      if g.last then { d with parts := d.parts.erase f, inbox := d.inbox ++ [f'] }
      else { d with parts := d.parts.map (fun x => if x = f then f' else x) }

/-- Where a segment at an input goes. -/
inductive Way where
  /-- to an output on a lane, with the egress port of its framing -/
  | go (out lane : Nat) (egress : Option (BitVec 3))
  /-- refused with a status (R205, check 2; R308; R391) -/
  | refused (st : Status)
  /-- discarded: a wrong `HCHK` (R205, check 1) -/
  | discard
  /-- discarded: the rest of a frame that this router has refused or discarded -/
  | rest
  deriving DecidableEq, Repr

/-- The output of a way. -/
def Way.out : Way → Nat
  | .go o _ _ => o
  | _ => 7

/-- The lane of a way. -/
def Way.lane : Way → Nat
  | .go _ l _ => l
  | _ => 0

/-- `HCHK` of a frame is right (R195, R249). -/
def frameOk : Frame → Bool
  | .bead h _ => hdrOk h
  | .rap h _ => rapHdrOk h

/-- The byte of a route table for a package (R335). -/
def routeByte (d : Die) (base pkg : Nat) : Nat :=
  bitsOf (d.reg (base + 4 * (pkg / 4))) (8 * (pkg % 4) + 7) (8 * (pkg % 4))

/-- The one lookup of a frame for another package (R307, R308, R391): the port, or the refusal. -/
def lookup (p : Nat) (port : Bool) (f : Frame) (s : State) : Except Status Nat :=
  let e := routeByte (s.die p) (if port then 0xD1000 else 0xD2000) (frameDst f).1
  let k := e % 8
  if !bitOf e 7 ∨ !s.portUp k then .error .unreachable
  else if !worldOk (frameWorld f) (s.engineWorld k) then .error .worldViolation
  else .ok k

/-- What stands beyond an output can take a frame at all (R205, check 2; R20): an active die, a powered
neighbour, a port in state UP. -/
def beyond (s : State) (p out : Nat) : Bool :=
  if out = 0 then decide ((s.die p).run = .active)
  else if out = 5 then true
  else if out = 6 then wlkUp (s.die p)
  else match neighbour p out with
    | some q => decide ((s.die q).run ≠ .off)
    | none => false

/-- The way that route table entry `e` of router `p` gives a segment at input `i`, which came on lane `l`
(R216): the entry's own lane where the frame enters the fabric, and the tree on lane 1. -/
def entryWay (s : State) (p i l e : Nat) (egress : Option (BitVec 3)) : Way :=
  let d := s.die p
  let v := d.reg (0x50100 + 4 * e)
  let lane := if origin i then bitsOf v 3 3 else l
  let out := if lane = 0 then bitsOf v 2 0 else tabGet (fun _ => 7) d.tree e
  if out = 7 ∨ !beyond s p out then .refused .unreachable else .go out lane egress

/-- Where router `p` sends a segment (R205, checks 1 and 2; R216, R307). -/
def segWay (s : State) (p i l : Nat) (g : Seg) : Way :=
  let d := s.die p
  if g.cont ∧ d.cut.contains (frameHead g.frame) then .rest
  else if !g.cont ∧ !frameOk g.frame then .discard
  else
    let dst := frameDst g.frame
    if dst.1 = d.pkg.toNat then
      if dst.2 = 127 then entryWay s p i l 64 none
      else if dst.2 < 64 then entryWay s p i l dst.2 none
      else .refused .unreachable
    else match g.egress with
      | some k => entryWay s p i l (65 + k.toNat) g.egress
      | none =>
        match lookup p (decide (6 ≤ i)) g.frame s with
        | .error st => .refused st
        | .ok k => entryWay s p i l (65 + k) (some (BitVec.ofNat 3 k))

/-- The key of an input's queue for a lane: one queue where frames enter the fabric. -/
def inputKey (i l : Nat) : Nat := if origin i then 2 * i else 2 * i + l

/-- The segment that an input offers on a lane: the oldest of that lane. -/
def offered (s : State) (p i l : Nat) : Option (Nat × Seg × Way) :=
  if origin i then
    ((rtQueue (s.die p) (2 * i)).zipIdx.map (fun e => (e.2, e.1, segWay s p i 0 e.1))).find?
      (fun e => decide (e.2.2.lane = l))
  else ((rtQueue (s.die p) (2 * i + l)).head?).map (fun g => (0, g, segWay s p i l g))

/-- The output can take a segment now: the buffer beyond a seam has room (R214), and the die has taken what
it was given before (R218). -/
def outputFree (s : State) (p out lane : Nat) (g : Seg) : Bool :=
  if out = 0 then (s.die p).inbox.isEmpty
  else if 1 ≤ out ∧ out ≤ 4 then
    match neighbour p out with
    | some q => hasRoom (rtQueue (s.die q) (2 * backDir out + lane)) g
    | none => true
  else true

/-- The bead is a tally (R263), which an output holds before it forwards it (R264). -/
def isTally : Frame → Bool
  | .bead h _ => decide ((beadOf h).kind = 5) && decide ((beadOf h).csub = 2)
  | .rap _ _ => false

/-- What the inputs offer an output on a lane: input, place in its queue, segment, way. -/
def contenders (s : State) (p out lane : Nat) : List (Nat × Nat × Seg × Way) :=
  (List.range 10).filterMap (fun i =>
    match offered s p i lane with
    | some (k, g, w) =>
      if w.out = out ∧ (outputFree s p out lane g ∨ isTally g.frame) then some (i, k, g, w) else none
    | none => none)

/-- Whose turn it is at an output (R215): lanes alternate when both have work, and a lane serves its inputs
by round-robin. -/
def turnOf (s : State) (p out : Nat) : Option (Nat × Nat × Nat × Seg × Way) :=
  let d := s.die p
  let c0 := contenders s p out 0
  let c1 := contenders s p out 1
  let lane := if c1.isEmpty then 0 else if c0.isEmpty then 1 else 1 - tabGet (fun _ => 1) d.rtLane out
  let cs := if lane = 0 then c0 else c1
  let last := tabGet (fun _ => 9) d.rtLast (2 * out + lane)
  ((cs.find? (fun c => decide (last < c.1))).or cs.head?).map (fun c => (lane, c))

/-- A TALLY_ADD of the die whose bead has left it ends (R265). -/
def tallyLeft (ops : List Nat) (d : Die) : Die := ops.foldl (fun d id => finishOp id .ok d) d

/-- A segment leaves router `p` by an output (R214, R215, R223). -/
def leave (p out lane : Nat) (g : Seg) (s : State) : State :=
  if out = 0 then s.modDie p (takeSeg g)
  else if out = 5 then (if g.cont then s else puntyTake g.frame s)
  else if out = 6 then
    match frameVc (s.role (wlkPort (s.die p))) g.frame with
    | some vc => s.modDie p (wlkOffer vc g)
    | none => s
  else match neighbour p out with
    | some q =>
      (s.modDie p (fun d => { d with seamFlits := d.seamFlits + segFlits g })).modDie q
        (rtPush (2 * backDir out + lane) [{ g with op := none }])
    | none => s

/-! ## Combining (R264) -/

/-- The key of R264 under which tallies combine. -/
def tallyKey (h : BitVec 256) : Nat × Nat × Nat × Nat × Nat × Nat :=
  let b := beadOf h
  (b.dstPkg, b.dstDie, b.job, b.seq, b.version, b.handle)

/-- A held tally as it leaves. -/
def heldSeg (e : HeldTally) : Seg := { frame := .bead e.h [], egress := e.egress }

/-- A held tally leaves its output, or, while the output cannot take it, leaves as soon as it can. -/
def releaseTally (p : Nat) (e : HeldTally) (s : State) : State :=
  let drop (d : Die) : Die := { d with held := d.held.erase e }
  if !beyond s p e.dir.toNat then refuse p (.bead e.h []) .unreachable (s.modDie p (tallyLeft e.ops ∘ drop))
  else if outputFree s p e.dir.toNat e.lane (heldSeg e) then
    (leave p e.dir.toNat e.lane (heldSeg e) (s.modDie p drop)).modDie p (tallyLeft e.ops)
  else s.modDie p (fun d => { d with held := d.held.map (fun x => if x = e then { e with due := true } else x) })

/-- A tally bead at an output (R264): held, or added to the held bead of its key; `EPOCH` carries the
count (R263). A sum that does not fit lets the held bead go and holds the new one. -/
def combine (p out lane : Nat) (egress : Option (BitVec 3)) (h : BitVec 256) (op : Option Nat) (s : State) :
    State :=
  let d := s.die p
  let new : HeldTally := ⟨BitVec.ofNat 3 out, lane, egress, h, d.rrc, op.toList, false⟩
  let hold (s : State) : State := s.modDie p (fun d => { d with held := d.held ++ [new] })
  match d.held.find? (fun e => !e.due && decide (e.dir = new.dir) && decide (tallyKey e.h = tallyKey h)) with
  | none => hold s
  | some e =>
    let b := beadOf e.h
    let sum := b.epoch + (beadOf h).epoch
    if sum ≤ 65535 then
      s.modDie p (fun d => { d with held := d.held.map (fun x =>
        if x = e then { e with h := packBead { b with epoch := sum }, ops := e.ops ++ op.toList } else x) })
    else hold (releaseTally p e s)

/-! ## The turn of an output (R205, R215) -/

/-- The rest of a frame that stops here is to be dropped. -/
def cutRest (g : Seg) (d : Die) : Die :=
  if g.last then { d with cut := d.cut.erase (frameHead g.frame) }
  else if d.cut.contains (frameHead g.frame) then d
  else { d with cut := d.cut ++ [frameHead g.frame] }

/-- A segment goes its way. -/
def forward (p : Nat) (g : Seg) (w : Way) (s : State) : State :=
  match w with
  | .go out lane egress =>
    match g.frame with
    | .bead h [] =>
      if isTally g.frame then combine p out lane egress h g.op s
      else leave p out lane { g with egress := egress } s
    | _ => leave p out lane { g with egress := egress } s
  | .refused st => refuse p g.frame st (s.modDie p (tallyLeft g.op.toList ∘ cutRest g))
  | .discard => s.modDie p (fun d => match g.frame with
    | .bead _ _ => hdrError (cutRest g d)
    | .rap _ _ => (cutRest g d).count 0x9000C 1)
  | .rest => s.modDie p (cutRest g)

/-- The segment whose turn it is leaves its input's queue, and the turn is recorded. -/
def takeTurn (p out lane i k : Nat) (s : State) : State :=
  s.modDie p (fun d =>
    let key := inputKey i lane
    setRtQueue key ((rtQueue d key).eraseIdx k)
      { d with rtLane := tabSet (fun _ => 1) d.rtLane out lane
               rtLast := tabSet (fun _ => 9) d.rtLast (2 * out + lane) i })

/-- The die's router forwards (R20, R68). -/
def routerOn (s : State) (p : Nat) : Bool := decide ((s.die p).run ≠ .off) && (s.die p).routerOk

/-- The held tally of an output whose interval has ended and which the output can now take. -/
def dueTally (s : State) (p out : Nat) : Option HeldTally :=
  (s.die p).held.find? (fun e => e.due && decide (e.dir.toNat = out) && outputFree s p out e.lane (heldSeg e))

/-- An output of a router takes its next turn (R205, R215, R307), one segment or one inline bead; output 7 refuses or
discards. A held tally whose interval has ended goes first. -/
def routerTurn (p out : Nat) (s : State) : State :=
  if !routerOn s p then s
  else match dueTally s p out with
    | some e => releaseTally p e s
    | none =>
      match turnOf s p out with
      | none => s
      | some (lane, i, k, g, w) => forward p g w (takeTurn p out lane i k s)

/-- The frame that has the next turn of an output. -/
def turnFrame (s : State) (p out : Nat) : Option Frame :=
  match dueTally s p out with
  | some e => some (.bead e.h [])
  | none => (turnOf s p out).map (fun x => x.2.2.2.1.frame)

/-- ROUTER_FORWARD (R215): output `out` forwards frame `f`, whose turn it is. Of a frame whose turn it is not the
router forwards nothing (log 10). -/
def routerForward (p out : Nat) (f : Frame) (s : State) : State :=
  if turnFrame s p out = some f then routerTurn p out s else s

/-- TALLY_COMBINE (R264): the turn of an output is that of tally bead `h` for `egress`. -/
def tallyCombine (p out : Nat) (egress : Option (BitVec 3)) (h : BitVec 256) (s : State) : State :=
  match dueTally s p out, turnOf s p out with
  | none, some (_, _, _, g, .go _ _ e) =>
    if isTally g.frame && decide (g.frame = .bead h []) && decide (e = egress) then routerTurn p out s else s
  | _, _ => s

/-- TALLY_COMBINE_RELEASE (R264): the interval of a held tally bead ends. -/
def tallyRelease (p : Nat) (dir : BitVec 3) (h : BitVec 256) (s : State) : State :=
  match (s.die p).held.find? (fun e => decide (e.dir = dir) && decide (e.h = h)) with
  | some e => releaseTally p e s
  | none => s

/-- A partition reset lets every held tally bead of a router go at once (R264). -/
def releaseTallies (p : Nat) (s : State) : State :=
  (s.die p).held.foldl (fun s e => releaseTally p e s) s

end Sys2Proof.Machine
end

