-- ==== Sys2Proof/Machine/Keccak.lean ====
section
/-! DEFINITION. SHAKE256 of FIPS 202 and KMAC256 of SP 800-185, which R62, R394, R395, R397, R403 and R404
name. PRESUMED: both standards stand outside the spec (log 22). -/

namespace Sys2Proof.Machine

/-- A lane of the Keccak state. -/
abbrev Lane := BitVec 64

/-- The shift register that gives the round constants: one step. -/
def rcStep (r : Nat) : Nat := (2 * r ^^^ r / 128 * 0x71) % 256

/-- The bits 2^j - 1 of a round constant, j from `j` to 6, from the register; and the register after them. -/
def rcBits : (fuel j r : Nat) → Nat × Nat
  | 0, _, r => (0, r)
  | n + 1, j, r =>
    let r := rcStep r
    let (v, r') := rcBits n (j + 1) r
    ((if r / 2 % 2 = 1 then 2 ^ (2 ^ j - 1) else 0) + v, r')

/-- The round constants of `n` rounds. -/
def rcList : (n r : Nat) → List Lane
  | 0, _ => []
  | n + 1, r =>
    let (v, r) := rcBits 7 0 r
    BitVec.ofNat 64 v :: rcList n r

/-- The lane that ρ and π bring to each place, and its rotation: row by row, lane (x, y) at x + 5y. -/
def rhoPi : List (List (Nat × Nat)) :=
  [[(0, 0), (6, 44), (12, 43), (18, 21), (24, 14)],
    [(3, 28), (9, 20), (10, 3), (16, 45), (22, 61)],
    [(1, 1), (7, 6), (13, 25), (19, 8), (20, 18)],
    [(4, 27), (5, 36), (11, 10), (17, 15), (23, 56)],
    [(2, 62), (8, 55), (14, 39), (15, 41), (21, 2)]]

/-- χ on one row. -/
def chiRow : List Lane → List Lane
  | [p, q, r, s, t] => [p ^^^ (r &&& ~~~q), q ^^^ (s &&& ~~~r), r ^^^ (t &&& ~~~s), s ^^^ (p &&& ~~~t),
      t ^^^ (q &&& ~~~p)]
  | row => row

/-- The parity of column `x`. -/
def column (st : List Lane) (x : Nat) : Lane := (List.range 5).foldl (fun v y => v ^^^ st.getD (x + 5 * y) 0) 0

/-- θ: what each column is changed by. -/
def thetaMask (st : List Lane) : List Lane :=
  match tabulate 5 (column st) with
  | [p, q, r, s, t] => [t ^^^ q.rotateLeft 1, p ^^^ r.rotateLeft 1, q ^^^ s.rotateLeft 1, r ^^^ t.rotateLeft 1,
      s ^^^ p.rotateLeft 1]
  | m => m

/-- One round: θ, ρ and π, χ, ι. -/
def keccakRound (st : List Lane) (rc : Lane) : List Lane :=
  let mask := thetaMask st
  let moved (e : Nat × Nat) : Lane := (st.getD e.1 0 ^^^ mask.getD (e.1 % 5) 0).rotateLeft e.2
  match rhoPi.flatMap (fun row => chiRow (row.map moved)) with
  | first :: others => (first ^^^ rc) :: others
  | [] => []

/-- The permutation Keccak-f[1600]. -/
def keccakF (st : List Lane) : List Lane := (rcList 24 1).foldl keccakRound st

/-- Bytes absorbed at rate 136, block by block. -/
def absorb : (fuel : Nat) → List Lane → Bytes → List Lane
  | 0, a, _ => a
  | n + 1, a, bs =>
    if bs.isEmpty then a
    else
      let a := a.mapIdx (fun i l => if i < 17 then l ^^^ BitVec.ofNat 64 (natAt bs (8 * i) 8) else l)
      absorb n (keccakF a) (bs.drop 136)

/-- `n` blocks squeezed. -/
def squeeze : (n : Nat) → List Lane → Bytes
  | 0, _ => []
  | n + 1, a => (a.take 17).flatMap (fun l => leBytes 8 l.toNat) ++ squeeze n (keccakF a)

/-- The sponge at rate 136 with a domain suffix byte: `n` bytes of output. -/
def sponge (suffix : Byte) (msg : Bytes) (n : Nat) : Bytes :=
  let len := (msg.length / 136 + 1) * 136
  let padded := msg ++ [suffix] ++ List.replicate (len - msg.length - 1) 0
  let padded := padded.set (len - 1) (padded.getD (len - 1) 0 ||| 0x80)
  (squeeze (ceilDiv n 136) (absorb (len / 136) (List.replicate 25 0) padded)).take n

/-- SHAKE256 with 256-bit output, as R62 and R404 use it. -/
def shake256 (msg : Bytes) : Bytes := sponge 0x1F msg 32

/-- The bytes of a number, most significant first, at least one. -/
def beBytes (x : Nat) : Bytes := (leBytes (Nat.log2 x / 8 + 1) x).reverse

/-- left_encode of SP 800-185. -/
def leftEncode (x : Nat) : Bytes := BitVec.ofNat 8 (beBytes x).length :: beBytes x

/-- right_encode of SP 800-185. -/
def rightEncode (x : Nat) : Bytes := beBytes x ++ [BitVec.ofNat 8 (beBytes x).length]

/-- encode_string of SP 800-185. -/
def encodeString (bs : Bytes) : Bytes := leftEncode (8 * bs.length) ++ bs

/-- bytepad of SP 800-185 to the rate 136. -/
def bytepad (bs : Bytes) : Bytes :=
  let x := leftEncode 136 ++ bs
  x ++ List.replicate (roundUp x.length 136 - x.length) 0

/-- The bytes of an ASCII string. -/
def ascii (str : String) : Bytes := str.toList.map (fun c => BitVec.ofNat 8 c.toNat)

/-- KMAC256(K, X, L, S) of R394, with L in bytes. -/
def kmac256 (key x : Bytes) (n : Nat) (custom : Bytes) : Bytes :=
  sponge 0x04 (bytepad (encodeString (ascii "KMAC") ++ encodeString custom) ++
    (bytepad (encodeString key) ++ x ++ rightEncode (8 * n))) n

end Sys2Proof.Machine
end

