-- ==== Sys2Proof/Machine/Xmss.lean ====
section
/-! DEFINITION. The signatures of R403 and R405: verification by the XMSS procedure of RFC 8391, and keys and
signatures of XMSS^MT, both in the SHAKE256 instantiation with n = 32 of SP 800-208. PRESUMED: the rules name
these standards, and their text stands outside the spec (log 6). -/

namespace Sys2Proof.Machine

/-! ## Parameters and hashes -/

/-- The OIDs that SP 800-208 assigns to the parameter sets of R403 and R405: XMSS-SHAKE256_10_256 and
XMSS-SHAKE256_20_256, XMSS^MT-SHAKE256_40/4_256. -/
def oidXmss10 : Nat := 0x10
/-- See `oidXmss10`. -/
def oidXmss20 : Nat := 0x12
/-- See `oidXmss10`. -/
def oidXmssmt : Nat := 0x2C

/-- Chains of a one-time signature, and levels of a tree of XMSS^MT-SHAKE256_40/4_256. -/
def otsChains : Nat := 67
/-- See `otsChains`. -/
def mtLevels : Nat := 10

/-- `n` bytes of a number, most significant first. -/
def be (n v : Nat) : Bytes := (leBytes n v).reverse

/-- A keyed hash: prefix 0 F, 1 H, 2 H_msg, 3 PRF, 4 PRF_keygen. -/
def xmssHash (kind : Nat) (key msg : Bytes) : Bytes := shake256 (be 32 kind ++ key ++ msg)

/-- The exclusive or of two strings of bytes. -/
def xorB (x y : Bytes) : Bytes := List.zipWith (· ^^^ ·) x y

/-- A hash address: layer and tree, kind (0 one-time, 1 its leaf tree, 2 hash tree), and the three words that the
kind gives a meaning. -/
structure HashAdr where
  layer : Nat := 0
  tree : Nat := 0
  kind : Nat
  w1 : Nat := 0
  w2 : Nat := 0
  w3 : Nat := 0
  deriving DecidableEq, Repr

/-- The 32 bytes of an address; `mask`: 0 for the key, 1 and 2 for the bit masks. -/
def HashAdr.bytes (a : HashAdr) (mask : Nat) : Bytes :=
  be 4 a.layer ++ be 8 a.tree ++ be 4 a.kind ++ be 4 a.w1 ++ be 4 a.w2 ++ be 4 a.w3 ++ be 4 mask

/-- F with its key and mask drawn from the public seed. -/
def chainHash (seed : Bytes) (a : HashAdr) (x : Bytes) : Bytes :=
  xmssHash 0 (xmssHash 3 seed (a.bytes 0)) (xorB x (xmssHash 3 seed (a.bytes 1)))

/-- H of two nodes with its key and masks drawn from the public seed. -/
def nodeHash (seed : Bytes) (a : HashAdr) (l r : Bytes) : Bytes :=
  xmssHash 1 (xmssHash 3 seed (a.bytes 0))
    (xorB l (xmssHash 3 seed (a.bytes 1)) ++ xorB r (xmssHash 3 seed (a.bytes 2)))

/-! ## One-time signatures -/

/-- The 67 digits to base 16 that a 32-byte message is signed as: its own 64, and their checksum. -/
def otsDigits (msg : Bytes) : List Nat :=
  let ds := msg.flatMap (fun b => [b.toNat / 16, b.toNat % 16])
  let c := (ds.map (fun d => 15 - d)).sum
  ds ++ [c / 256 % 16, c / 16 % 16, c % 16]

/-- `n` steps of a chain from place `i`. -/
def chain (seed : Bytes) (a : HashAdr) : (n i : Nat) → Bytes → Bytes
  | 0, _, x => x
  | n + 1, i, x => chain seed a n (i + 1) (chainHash seed { a with w3 := i } x)

/-- The 32-byte element `i` of a string. -/
def elem (bs : Bytes) (i : Nat) : Bytes := sliceB bs (32 * i) 32

/-- The ends of the chains that a one-time signature of a message leads to. -/
def otsEnds (seed : Bytes) (a : HashAdr) (msg sig : Bytes) : List Bytes :=
  (otsDigits msg).mapIdx (fun i d => chain seed { a with w2 := i } (15 - d) d (elem sig i))

/-- A level of a leaf tree: neighbours are hashed, and the last of an odd number is carried up. -/
def leafLevel (seed : Bytes) (a : HashAdr) (h : Nat) : (i : Nat) → List Bytes → List Bytes
  | i, l :: r :: rest => nodeHash seed { a with w2 := h, w3 := i } l r :: leafLevel seed a h (i + 1) rest
  | _, rest => rest

/-- The leaf that the ends of 67 chains hash to: 7 levels leave one node. -/
def leafOf (seed : Bytes) (a : HashAdr) (ends : List Bytes) : Bytes :=
  ((List.range 7).foldl (fun l h => leafLevel seed a h 0 l) ends).headD []

/-! ## Trees -/

/-- The root that a leaf and its authentication path lead to, from level `h` on. -/
def climb (seed : Bytes) (layer tree idx : Nat) : (h : Nat) → List Bytes → Bytes → Bytes
  | _, [], x => x
  | h, y :: path, x =>
    let a : HashAdr := { layer := layer, tree := tree, kind := 2, w2 := h, w3 := idx / 2 ^ (h + 1) }
    climb seed layer tree idx (h + 1) path
      (if idx / 2 ^ h % 2 = 0 then nodeHash seed a x y else nodeHash seed a y x)

/-- The root that a signature's one-time part and authentication path give for a message. -/
def rootFrom (seed : Bytes) (layer tree idx h : Nat) (msg sig : Bytes) : Bytes :=
  let leaf := leafOf seed { layer := layer, tree := tree, kind := 1, w1 := idx }
    (otsEnds seed { layer := layer, tree := tree, kind := 0, w1 := idx } msg sig)
  climb seed layer tree idx 0 (tabulate h (fun i => elem sig (otsChains + i))) leaf

/-- The digest that is signed, from the signature's randomness, the root, the index and the message. -/
def msgDigest (rand root : Bytes) (idx : Nat) (msg : Bytes) : Bytes := xmssHash 2 (rand ++ root ++ be 32 idx) msg

/-- Tree height of the parameter set of an OID. -/
def xmssHeight (oid : Nat) : Option Nat :=
  if oid = oidXmss10 then some 10 else if oid = oidXmss20 then some 20 else none

/-- XMSS verification (R403): OID, root and public seed of the key, signed bytes, signature: index, randomness,
67 chain elements, authentication path. -/
def xmssVerify (oid : Nat) (root seed msg sig : Bytes) : Bool :=
  match xmssHeight oid with
  | none => false
  | some h =>
    let idx := leNat (sliceB sig 0 4).reverse
    decide (sig.length = 36 + 32 * (otsChains + h)) &&
      decide (rootFrom seed 0 0 idx h (msgDigest (sliceB sig 4 32) root idx msg) (sig.drop 36) = root)

/-! ## The attestation key (R405): XMSS^MT-SHAKE256_40/4_256 -/

/-- The secret start of a chain. -/
def otsSecret (sk seed : Bytes) (a : HashAdr) : Bytes := xmssHash 4 sk (seed ++ a.bytes 0)

/-- A one-time signature of a message under leaf `idx` of a tree. -/
def otsSign (sk seed : Bytes) (a : HashAdr) (msg : Bytes) : Bytes :=
  ((otsDigits msg).mapIdx (fun i d => chain seed { a with w2 := i } d 0 (otsSecret sk seed { a with w2 := i }))).flatten

/-- Leaf `idx` of a tree. -/
def leafAt (sk seed : Bytes) (layer tree idx : Nat) : Bytes :=
  let a : HashAdr := { layer := layer, tree := tree, kind := 0, w1 := idx }
  leafOf seed { a with kind := 1 }
    (tabulate otsChains (fun i => chain seed { a with w2 := i } 15 0 (otsSecret sk seed { a with w2 := i })))

/-- Node `idx` of level `h` of a tree. -/
def nodeAt (sk seed : Bytes) (layer tree : Nat) : (h idx : Nat) → Bytes
  | 0, idx => leafAt sk seed layer tree idx
  | h + 1, idx => nodeHash seed { layer := layer, tree := tree, kind := 2, w2 := h, w3 := idx }
      (nodeAt sk seed layer tree h (2 * idx)) (nodeAt sk seed layer tree h (2 * idx + 1))

/-- The sibling beside the path of leaf `idx` on level `h`. -/
def sibling (idx h : Nat) : Nat := idx / 2 ^ h + 1 - 2 * (idx / 2 ^ h % 2)

/-- One tree's part of a signature: the one-time signature and the authentication path. -/
def treeSign (sk seed : Bytes) (layer tree idx : Nat) (msg : Bytes) : Bytes :=
  otsSign sk seed { layer := layer, tree := tree, kind := 0, w1 := idx } msg ++
    (tabulate mtLevels (fun h => nodeAt sk seed layer tree h (sibling idx h))).flatten

/-- The trees of the layers from `layer` up, each signing what the layer below leads to. -/
def mtSignFrom (sk seed : Bytes) : (n layer idx : Nat) → Bytes → Bytes
  | 0, _, _, _ => []
  | n + 1, layer, idx, msg =>
    let tree := idx / 2 ^ mtLevels
    treeSign sk seed layer tree (idx % 2 ^ mtLevels) msg ++
      mtSignFrom sk seed n (layer + 1) tree (nodeAt sk seed layer tree mtLevels 0)

/-- The root of the attestation key. -/
def xmssmtRoot (sk seed : Bytes) : Bytes := nodeAt sk seed 3 0 mtLevels 0

/-- The signature of a message with an index: the index in 5 bytes, the randomness, and four trees. -/
def xmssmtSign (sk prf seed : Bytes) (idx : Nat) (msg : Bytes) : Bytes :=
  let rand := xmssHash 3 prf (be 32 idx)
  be 5 idx ++ rand ++ mtSignFrom sk seed 4 0 idx (msgDigest rand (xmssmtRoot sk seed) idx msg)

end Sys2Proof.Machine
end

