-- ==== Sys2Proof/Machine/Laser.lean ====
section
/-! DEFINITION. The laser bays and the light of the engines: what the power manager does with a module
(R336 to R352) and with an engine that loses light (R340). -/

namespace Sys2Proof.Machine

/-! ## Bays (R336, R337, R352) -/

/-- Offset of `ELS_BAY`k`_STATUS` in the Punty register space. -/
def bayReg (k : Nat) : Nat := 0x20000 + 0x10 * k
/-- `STATE`: 0 EMPTY, 1 CHECKING, 2 REFUSED, 3 WARMING, 4 ACTIVE, 5 RELEASED, 6 FAULT. -/
def State.bayState (s : State) (k : Nat) : Nat := s.get ⟨bayReg k, 2, 0⟩
/-- A bay beside its registers. -/
def State.bay (s : State) (k : Nat) : Bay := tabGet (fun _ => {}) s.bays k
/-- The block with a bay stored. -/
def State.setBay (s : State) (k : Nat) (b : Bay) : State :=
  { s with bays := tabSet (fun _ => {}) s.bays k b }
/-- A bit of `ELS_BAY`k`_STATUS` stored. -/
def setBayBit (k i : Nat) (v : Bool) (s : State) : State := s.put ⟨bayReg k, i, i⟩ (bit v)
/-- `ELS_EVENT` bit k. -/
def bayEvent (k : Nat) (s : State) : State := s.put ⟨0x20104, k, k⟩ 1
/-- `STATE` changes, with its event (R352). -/
def setBayState (k v : Nat) (s : State) : State :=
  if s.bayState k = v then s else bayEvent k (s.put ⟨bayReg k, 2, 0⟩ v)
/-- `CAUSE` of a refusal. -/
def setBayCause (k : Nat) (st : Status) (s : State) : State := s.put ⟨bayReg k, 23, 16⟩ st.code
/-- The module of a bay may emit: `EN`. -/
def State.bayLit (s : State) (k : Nat) : Bool := s.flag (bayReg k) 4
/-- The interlock (R339): `EN` is the AND of the enable, PRSNT# low and FAULT# high. A module that may not emit
is not locked. -/
def gateBay (k : Nat) (s : State) : State :=
  let en := (s.bay k).enable && s.flag (bayReg k) 3 && !(s.bay k).fault
  setBayBit k 5 (en && s.flag (bayReg k) 5) (setBayBit k 4 en s)
/-- The power manager's enable of a bay. -/
def enableBay (k : Nat) (on : Bool) (s : State) : State := gateBay k (s.setBay k { s.bay k with enable := on })
/-- The bays on either side: those that share an engine with bay `k` (R336). -/
def bayNeighbours (k : Nat) : List Nat := [(k + 7) % 8, (k + 1) % 8]
/-- 80 mW and 160 mW in 0.1 mW (R337, R341). -/
def nominalMw : Nat := 800
/-- FULL of R337. -/
def fullMw : Nat := 1600

/-- The setpoint that the device asks for (R337), and `FULL`. -/
def wantPower (k mw : Nat) (s : State) : State :=
  setBayBit k 6 (decide (mw = fullMw)) (s.setBay k { s.bay k with setpoint := mw })

/-- The device writes a module's `SETPOINT` (R341). -/
def setpoint (k mw : Nat) (s : State) : State :=
  if (s.bay k).setpoint = mw then s else (wantPower k mw s).output (.elsSetpoint k mw)

/-- A lit bay is raised to FULL (R349, R350, R351). -/
def raiseBay (s : State) (k : Nat) : State := if s.bayLit k then setpoint k fullMw s else s

/-- Both neighbours to FULL. -/
def raiseNeighbours (k : Nat) (s : State) : State := (bayNeighbours k).foldl raiseBay s

/-- A lit neighbour goes back to NOMINAL, once both bays beside it are ACTIVE (R349, step 7). -/
def lowerBay (s : State) (k : Nat) : State :=
  if s.bayLit k && (bayNeighbours k).all (fun n => decide (s.bayState n = 4)) then
    setpoint k nominalMw s
  else s

/-- A bay that gives its engines no light and is not about to. -/
def State.bayDark (s : State) (k : Nat) : Bool := decide (s.bayState k ≠ 3) && decide (s.bayState k ≠ 4)

/-! ## Identity and usage records (R342 to R345) -/

/-- The offset in ELS_VENDORS and key of a valid vendor entry (R343). -/
def vendorEntry (img : Bytes) (vendor : Nat) : Option (Nat × Bytes × Bytes) :=
  let sec := sectionBytes img 9
  ((List.range 16).find? (fun i =>
    bitOf (natAt sec (80 * i + 2) 2) 0 && decide (natAt sec (80 * i) 2 = vendor))).map
    (fun i => (natAt sec (80 * i + 4) 4, sliceB sec (80 * i + 8) 32, sliceB sec (80 * i + 40) 32))

/-- A usage record of 32 bytes passes its CRC (R344). -/
def usageOk (r : Bytes) : Bool := decide ((crc32 (sliceB r 0 28)).toNat = natAt r 28 4)

/-- The offset of the current usage record; none: the module is new (R344). -/
def usageCurrent (ee : Bytes) : Option Nat :=
  let a := sliceB ee 0x1000 32
  let b := sliceB ee 0x1020 32
  if usageOk a && usageOk b then some (if natAt b 0 4 ≤ natAt a 0 4 then 0x1000 else 0x1020)
  else if usageOk a then some 0x1000
  else if usageOk b then some 0x1020 else none

/-- The module is new: both slots all 0xFF (R344). -/
def usageNew (ee : Bytes) : Bool := (sliceB ee 0x1000 64).all (fun b => decide (b = 0xFF))

/-- `used` of the current record, in thousandths (R344). -/
def usageUsed (ee : Bytes) : Nat :=
  match usageCurrent ee with
  | some o => natAt ee (o + 4) 4
  | none => 0

/-- `rated_life` in thousandths (R342). -/
def ratedLife (ee : Bytes) : Nat := natAt ee 0x2C 4 * 1000

/-- Vendor and serial of a module (R342). -/
def moduleName (ee : Bytes) : Nat × Bytes := (natAt ee 6 2, sliceB ee 0x18 16)

/-- Checks 3 and 4 of R345. -/
def vendorChk (img ee : Bytes) : Option Status :=
  match vendorEntry img (natAt ee 6 2) with
  | none => some .unverified
  | some (oid, root, seed) =>
    if decide (oid = oidXmss10) &&
        xmssVerify oid root seed (sliceB ee 0 0x40) (sliceB ee 0x40 2500) then none
    else some .unverified

/-- The checks of R345, with the use that is held against the rated life; none: the module passes. -/
def moduleChk (img : Bytes) (accepted : Option (Nat × Bytes)) (used : Nat) (v : ModuleView) : Option Status :=
  let ee := v.eeprom
  if !v.answers then some .unreachable
  else if decide (natAt ee 0 4 ≠ 0x534C5A54) || decide (natAt ee 4 2 ≠ 1) ||
      decide (natAt ee 0x2A 2 < 1600) || decide (1900 < natAt ee 0x2A 2) ||
      (sliceB ee 0x34 12).any (fun b => decide (b ≠ 0)) ||
      (sliceB ee 0xA04 1532).any (fun b => decide (b ≠ 0)) then some .malformed
  else
    match if accepted = some (moduleName ee) then none else vendorChk img ee with
    | some st => some st
    | none =>
      if (usageCurrent ee).isNone && !usageNew ee then some .malformed
      else if ratedLife ee ≤ used then some .resourceExhausted
      else none

/-- `LIFE_WARN` and `LIFE_END` follow the use, with the event of a change (R348). -/
def lifeFlags (k : Nat) (s : State) : State :=
  let used := s.reg (bayReg k + 4)
  let life := ratedLife (s.bay k).view.eeprom
  let warn := decide (life * 9 ≤ used * 10)
  let done := decide (life ≤ used)
  let s' := setBayBit k 8 done (setBayBit k 7 warn s)
  if s.flag (bayReg k) 7 = warn ∧ s.flag (bayReg k) 8 = done then s else bayEvent k s'

/-- The use of the seated module: the running total, kept in always-on SRAM while the module stays (R347), or what
its record says. -/
def State.bayUsed (s : State) (k : Nat) : Nat :=
  let b := s.bay k
  if b.owner = some (moduleName b.view.eeprom) then s.reg (bayReg k + 4) else usageUsed b.view.eeprom

/-- The modules may be lit: from LINKS on, and in a warm start (R345, R351). -/
def State.bayChecks (s : State) : Bool :=
  decide (s.boot = 7) || decide (s.boot = 8) || decide (s.boot = 0xA) ||
    (decide (s.boot = 6) && s.flag 0 4)

/-- A bay that waits for a replacement: RELEASED or FAULT (R349, R350). -/
def State.bayWaits (s : State) (k : Nat) : Bool := decide (s.bayState k = 5) || decide (s.bayState k = 6)

/-- The bay has checked the seated module (R345): it lights it or refuses it (R349, steps 5 and 6). A refusal
leaves a bay that waits for a replacement as it is. Before LINKS a module that passes stays dark, and LINKS checks
it again (R351; log 58). -/
def judgeBay (k : Nat) (s : State) : State :=
  let b := s.bay k
  match moduleChk s.image b.accepted (s.bayUsed k) b.view with
  | some st => if s.bayWaits k then setBayCause k st s else setBayState k 2 (setBayCause k st s)
  | none =>
    if !s.bayChecks then s
    else
      let new := decide (b.owner ≠ some (moduleName b.view.eeprom))
      let s := (s.setReg (bayReg k + 4) (s.bayUsed k)).setBay k
        (if new then { b with frac := 0, lit := 0, full := 0, writeFails := 0,
                              owner := some (moduleName b.view.eeprom) } else b)
      setpoint k nominalMw (setBayState k 3 (enableBay k true (lifeFlags k s)))

/-- The bay checks the seated module, CHECKING unless it waits for a replacement (R345). -/
def checkBay (k : Nat) (s : State) : State :=
  judgeBay k (if s.bayWaits k then s else setBayState k 1 s)

/-- MODULE_INSERT (R345): PRSNT# falls, and the bay checks the module 100 ms later. -/
def moduleInsert (k : Nat) (v : ModuleView) (s : State) : State :=
  if s.pins.vddAon && !s.flag (bayReg k) 3 then
    checkBay k (setBayBit k 3 true (s.setBay k { s.bay k with view := v, fault := v.fault }))
  else s

/-- A cold start finds every laser dark (R78, R351): the enables drop, the acceptances of R346 end, and a seated
module waits for the check of LINKS. -/
def baysCold (s : State) : State :=
  (List.range 8).foldl (fun s k =>
    let s := setBayBit k 10 false (s.setBay k { s.bay k with accepted := none })
    let s := wantPower k 0 (enableBay k false s)
    setBayState k (if s.flag (bayReg k) 3 then 1 else 0) s) s

/-- LINKS on a cold start checks every seated module, and raises the neighbours of each bay that stays dark
(R351). -/
def baysLinks (views : List ModuleView) (s : State) : State :=
  let check (s : State) (k : Nat) : State :=
    if s.flag (bayReg k) 3 then
      let v := views.getD k (s.bay k).view
      checkBay k (s.setBay k { s.bay k with view := v, fault := v.fault })
    else s
  let s := (List.range 8).foldl check s
  (List.range 8).foldl (fun s k => if s.bayDark k then raiseNeighbours k s else s) s

/-- MODULE_LOCK (R349, step 7): the bay becomes ACTIVE and its neighbours go back to NOMINAL. -/
def moduleLock (k : Nat) (s : State) : State :=
  if s.bayState k = 3 ∧ s.bayLit k then
    let s := setBayState k 4 (setBayBit k 5 true s)
    let s := (bayNeighbours k).foldl lowerBay s
    if (bayNeighbours k).any (fun n => s.bayDark n) then raiseBay s k else s
  else s

/-! ## Usage (R344, R347) -/

/-- The usage record of bay `k` is written to the slot that is not current. -/
def writeUsage (k : Nat) (s : State) : State :=
  let b := s.bay k
  let ee := b.view.eeprom
  let old := usageCurrent ee
  let base (o : Nat) : Nat := match old with
    | some c => natAt ee (c + o) 4
    | none => 0
  let slot := if old = some 0x1000 then 0x1020 else 0x1000
  let body := leBytes 4 (base 0 + 1) ++ leBytes 4 (s.reg (bayReg k + 4)) ++
    leBytes 4 (base 8 + b.lit / 3600) ++ leBytes 4 (base 12 + b.full / 3600) ++
    leBytes 2 s.package ++ leBytes 1 k ++ leBytes 9 0
  let rec_ := body ++ leBytes 4 (crc32 body).toNat
  let b := { b with
    view := { b.view with eeprom := overlayB ee slot rec_ },
    lit := b.lit % 3600, full := b.full % 3600, writeFails := 0 }
  (s.setBay k b).output (.elsEeprom k slot rec_)

/-- The usage record is written, or has failed three times: `USAGE_FAIL` (R347). -/
def endUsage (k : Nat) (ok : Bool) (s : State) : State :=
  if ok then writeUsage k s else setBayBit k 9 true (s.setBay k { s.bay k with writeFails := 0 })

/-- ELS_USAGE_WRITE (R347): one try of the hourly write; the third failure sets `USAGE_FAIL`. -/
def elsUsageWrite (k : Nat) (ok : Bool) (s : State) : State :=
  if s.bayLit k then
    if ok ∨ 2 ≤ (s.bay k).writeFails then endUsage k ok s
    else s.setBay k { s.bay k with writeFails := (s.bay k).writeFails + 1 }
  else s

/-- One reading of a lit module: `POWER` in 0.1 mW and `CASE_C` (R347). -/
def usageRead (k : Nat) (r : BitVec 16 × BitVec 8) (s : State) : State :=
  let b := s.bay k
  let n := b.frac + r.1.toNat * (if 55 < r.2.toInt then 2 else 1)
  let b := { b with
    frac := n % 5760, lit := b.lit + 1, full := b.full + bit (decide (b.setpoint = fullMw)) }
  let s := (s.setBay k b).count (bayReg k + 4) (n / 5760)
  lifeFlags k (s.setReg (bayReg k + 8) (r.1.toNat + r.2.toNat <<< 16))

/-- ELS_USAGE_POLL (R347): every lit module is read once. -/
def elsUsagePoll (readings : List (BitVec 16 × BitVec 8)) (s : State) : State :=
  (List.range 8).foldl (fun s k =>
    match readings[k]? with
    | some r => if s.bayLit k then usageRead k r s else s
    | none => s) s

/-! ## Release and loss (R349, R350) -/

/-- A release of bay `k` is refused (R349). -/
def releaseRefused (k : Nat) (s : State) : Bool :=
  decide (s.bayState k ≠ 4) || (bayNeighbours k).any (fun n => decide (s.bayState n ≠ 4)) ||
    (List.range 8).any (fun n => decide (s.bayState n = 5))

/-- Steps 1 and 2 of a planned replacement (R349), and its status. `ok`: the usage record could be written
(R347). -/
def releaseBay (k : Nat) (ok : Bool) (s : State) : Status × State :=
  if releaseRefused k s then (.invalidState, s)
  else
    let s := setpoint k 0 (endUsage k ok (raiseNeighbours k s))
    (.ok, setBayState k 5 (enableBay k false s))

/-- A release asked for by the management complex: `RELEASE_BAY` and `RELEASE` of `ELS_CTL` (R349). -/
def askRelease (k : Nat) (ok : Bool) (s : State) : Status × State := releaseBay k ok (s.put ⟨0x20100, 2, 0⟩ k)

/-- Whether the record of a release can be written where no command says so: as the last hourly write went
(R347; log 58). -/
def State.usageOk (s : State) (k : Nat) : Bool := decide ((s.bay k).writeFails = 0)

/-- A write of `ELS_CTL` (R352); only the management complex writes it. -/
def elsCtlWrite (mgmt : Bool) (ok : Bool) (v : Nat) (s : State) : State :=
  if !mgmt then s.invalidWrite
  else
    let s := if v / 16 ≠ 0 then s.invalidWrite else s
    if bitOf v 3 then (askRelease (v % 8) ok s).2 else s.put ⟨0x20100, 2, 0⟩ v

/-- A feed of an engine is lit (R336). -/
def State.engineFed (s : State) (n : Nat) : Bool := s.bayLit n || s.bayLit ((n + 7) % 8)

/-- A light engine. -/
def State.engine (s : State) (n : Nat) : Engine := tabGet (fun _ => {}) s.engines n
/-- The block with an engine stored. -/
def State.setEngine (s : State) (n : Nat) (e : Engine) : State :=
  { s with engines := tabSet (fun _ => {}) s.engines n e }

/-- An engine without light on either feed goes dark, and its port fails (R326, R350). -/
def engineFeeds (n : Nat) (s : State) : State :=
  if s.engineFed n || !(s.engine n).on then s
  else
    let s := s.setEngine n { s.engine n with dark := true }
    match s.carrier n with
    | some p => s.modDie p (fun d => if wlkUp d then enterRetrain d else d)
    | none => s

/-- The module has left the bay: the acceptance that named it ends (R346), and its use with it. -/
def moduleLeaves (k : Nat) (s : State) : State :=
  let b := s.bay k
  let gone := decide (b.accepted = some (moduleName b.view.eeprom))
  let s := setBayBit k 10 (s.flag (bayReg k) 10 && !gone) (setBayBit k 3 false s)
  gateBay k (s.setBay k { b with
    view := ⟨false, [], false⟩, accepted := if gone then none else b.accepted, owner := none, fault := false })

/-- MODULE_LOSS (R350). The spec names no status for the `CAUSE` of a fault: a free value. -/
def moduleLoss (k : Nat) (cause : LossCause) (s : State) : State :=
  if !s.flag (bayReg k) 3 then s
  else
    let s' := match cause with
      | .prsntRise => moduleLeaves k s
      | .faultFall => gateBay k (s.setBay k { s.bay k with fault := true })
      | _ => s
    match s.bayState k with
    | 3 | 4 =>
      let s := wantPower k 0 (enableBay k false s')
      let (v, s) := s.draw
      let s := setBayState k 6 (s.put ⟨bayReg k, 23, 16⟩ (v.toNat % 16))
      engineFeeds ((k + 1) % 8) (engineFeeds k (raiseNeighbours k s))
    | 5 | 6 => s'
    | _ => if cause = .prsntRise then setBayState k 0 s' else s'

/-- ELS_ACCEPT (R346): the bay skips checks 3 and 4 for the named module. A module that the bay has
refused is checked again. -/
def elsAcceptModule (k vendor : Nat) (serial : Bytes) (s : State) : State :=
  let s := setBayBit k 10 true (s.setBay k { s.bay k with accepted := some (vendor, serial) })
  if s.bayState k = 2 && s.flag (bayReg k) 3 then checkBay k s else s

/-! ## Engines (R340) -/

/-- ENGINE_LIGHT_LOSS: the transmit lanes of an engine that is on darken. -/
def engineLightLoss (n : Nat) (s : State) : State :=
  if (s.engine n).on then s.setEngine n { s.engine n with dark := true } else s

/-- ENGINE_PROBE: a dark engine with light to modulate emits its probe. -/
def engineProbe (n : Nat) (s : State) : State :=
  if (s.engine n).on && (s.engine n).dark && s.engineFed n then s.output (.probe n) else s

/-- RECEIVED_LIGHT_RETURN: the engine stops probing and lights its lanes, if it has light to modulate. -/
def receivedLightReturn (n : Nat) (s : State) : State :=
  if s.engineFed n then s.setEngine n { s.engine n with dark := false } else s

/-- The transmit lanes of the engine of the port that die `p` carries are dark: nothing leaves but the probe. -/
def State.darkDie (s : State) (p : Nat) : Bool :=
  match portOfDie p with
  | some n => (s.engine n).dark
  | none => false

end Sys2Proof.Machine
end

