-- ==== Sys2Proof/Machine/Host.lean ====
section
/-! DEFINITION. The host interface: rings and completions, commands of the host chapter, the device-memory
window, result slots, diagnostics, telemetry and invalidation (R353 to R375, R382). -/

namespace Sys2Proof.Machine

/-! ## Rings (R363, R364, R385) -/

/-- Offset of the four registers of ring `r`: `HOST_IDX`, `DEV_IDX`, `STATUS`, `RELEASED`. -/
def ringOff (r : Nat) : Nat := 0x40 * r
/-- `HOST_IDX`. -/
def Fn.hostIdx (x : Fn) (r : Nat) : Nat := x.reg (ringOff r)
/-- `DEV_IDX`. -/
def Fn.devIdx (x : Fn) (r : Nat) : Nat := x.reg (ringOff r + 4)
/-- `RELEASED`. -/
def Fn.released (x : Fn) (r : Nat) : Nat := x.reg (ringOff r + 0xC)
/-- `STATE`: 0 UNREGISTERED, 1 ACTIVE, 2 ERROR. -/
def Fn.ringState (x : Fn) (r : Nat) : Nat := bitsOf (x.reg (ringOff r + 8)) 1 0
/-- What registration gave a ring. -/
def Fn.ring (x : Fn) (r : Nat) : Ring := tabGet (fun _ => {}) x.rings r
/-- Entries of a ring, S. -/
def Fn.ringSize (x : Fn) (r : Nat) : Nat := 2 ^ (x.ring r).logS
/-- The difference of two indices, modulo 2^32. -/
def idxDiff (a b : Nat) : Nat := (a + 2 ^ 32 - b) % 2 ^ 32

/-- A ring enters ERROR (R364). -/
def Fn.ringError (r : Nat) (st : Status) (x : Fn) : Fn :=
  ((x.put ⟨ringOff r + 8, 1, 0⟩ 2).put ⟨ringOff r + 8, 15, 8⟩ st.code).event 1

/-- The PCIe link can be up: the host domain out of reset, PERST# released, REFCLK present (R49, R56, R58). -/
def State.hostLink (s : State) : Bool := s.pins.rstReleased && s.pins.perstReleased && !s.refLost

/-- The registers of the functions decode: from FW_START onward (R57, R356). -/
def State.hostOpen (s : State) : Bool := s.reckoner && s.hostLink

/-- What configuration space shows of a function (R353, R356): bytes of its BARs, MSI-X vectors, and of the PF
its SR-IOV capability. -/
structure ConfigSpace where
  classCode : Nat := 0x120000
  deviceId : Nat := 0x7264
  totalVfs : Nat
  firstVfOffset : Nat := 1
  vfStride : Nat := 1
  bar0 : Nat
  bar2 : Nat
  msix : Nat
  deriving DecidableEq, Repr

/-- The configuration space of a function: of the PF, before step 7 of R56 ends, Request Retry Status (none); in
RECOVERY the PF alone, with BAR0, no BAR2 and one vector (R78); else as R353 gives it. -/
def State.configSpace (s : State) (f : FnId) : Option ConfigSpace :=
  if !s.hostLink || decide (s.boot < 2) then none
  else if s.boot = 2 then
    if f = 0 then some { totalVfs := 0, bar0 := 2 ^ 26, bar2 := 0, msix := 1 } else none
  else if f = 0 then some { totalVfs := 8, bar0 := 2 ^ 26, bar2 := 2 ^ 36, msix := 256 }
  else some { totalVfs := 8, bar0 := 2 ^ 22, bar2 := 2 ^ 33, msix := 32 }

/-- A write of `HOST_IDX` breaks the ring's index rules (R364). -/
def doorbellBad (x : Fn) (r idx : Nat) : Bool :=
  decide (2 ^ 31 ≤ idxDiff idx (x.hostIdx r)) ||
    (if 4 ≤ r ∧ r < 8 then decide (x.ringSize r < idxDiff (x.devIdx r) idx)
     else decide (x.ringSize r < idxDiff idx (x.released r)))

/-- DOORBELL (R364). A ring that is not ACTIVE keeps the value written. -/
def doorbell (f r idx : Nat) (s : State) : State :=
  if !s.hostOpen then s
  else s.modFn f (fun x =>
    if decide (x.ringState r = 1) && doorbellBad x r idx then x.ringError r .malformed
    else x.setReg (ringOff r) idx)

/-! ## Output -/

/-- A posted write into host memory (R371). -/
def hostWrite (f : FnId) (addr : Nat) (bs : Bytes) (bulk : Bool) (s : State) : State :=
  if bs.length = 0 then s else s.output (.hostWrite f addr bs bulk)

/-! ## The device-memory window (R358 to R360) -/

/-- A refused access through the window is counted (R359). -/
def winRefused (f : Nat) (s : State) : State :=
  s.modFn f (fun x => (x.setReg 0x1014 (satAdd 32 (x.reg 0x1014) 1)).event 3)

/-- The entries of a function's BAR2 (R356). -/
def winEntries (f : Nat) : Nat := if f = 0 then 64 else 8

/-- The BAR2 entry of an offset, with the logical die and LPDDR offset it leads to. -/
def State.window (s : State) (f off : Nat) : Option (Window × Nat) :=
  if off / 2 ^ 30 < winEntries f then
    (tabGet (fun _ => none) (s.fn f).windows (off / 2 ^ 30)).map
      (fun w => (w, w.gib * 2 ^ 30 + off % 2 ^ 30))
  else none

/-- An extent of a logical die's LPDDR meets a result slot that is FILLING or HELD (R374). -/
def State.inSlot (s : State) (l a len : Nat) : Bool :=
  s.fns.any (fun e => e.2.slots.any (fun t =>
    decide (t.die = l) && decide (a < t.off + t.len) && decide (t.off < a + len)))

/-- The check of one access through the window (R359): the physical die and LPDDR offset, or the status
of the refusal, with what the refusal leaves behind. `slot`: the access belongs to a command that fills
its result slot. -/
def winChk (f off len : Nat) (secure write slot : Bool) (s : State) : Except Status (Nat × Nat) × State :=
  match s.window f off with
  | none => (.error .malformed, s)
  | some (w, a) =>
    if write && w.readOnly then (.error .invalidState, s)
    else
      match s.physOf w.die with
      | none => (.error .unreachable, s)
      | some p =>
        if write && !slot && s.inSlot w.die a len then (.error .invalidState, s)
        else
          let r : Req := ⟨.host, write, secure, 0⟩
          match regionChk (s.die p) r a len with
          | some st => (.error st, s.modDie p (regionRefused r a st))
          | none => if lpStored a && lpStored (a + len - 1) then (.ok (p, a), s) else (.error .malformed, s)

/-- Every channel that an access through the window reaches serves it now (R292): until then the access waits. -/
def State.winServes (s : State) (f off len : Nat) : Bool :=
  (List.range (if len = 0 then 0 else (off + len - 1) / 2 ^ 30 - off / 2 ^ 30 + 1)).all (fun i =>
    let g := off / 2 ^ 30 + i
    let lo := max off (g * 2 ^ 30)
    match s.window f lo with
    | none => true
    | some (w, a) => match s.physOf w.die with
      | none => true
      | some p => lpServes false a (min (off + len) ((g + 1) * 2 ^ 30) - lo) (s.die p))

/-- Bytes that a free value takes the place of: those of the 32-byte halves in `bad`. -/
def freeHalves (a : Nat) (bad : List Nat) : (k : Nat) → Bytes → State → Bytes × State
  | _, [], s => ([], s)
  | k, b :: bs, s =>
    let (x, s) := if bad.contains ((a + k) / 32) then
        let (v, s) := s.draw
        (v.truncate 8, s)
      else (b, s)
    let (r, s) := freeHalves a bad (k + 1) bs s
    (x :: r, s)

/-- A read of a die's LPDDR towards the host: data, whether a half could not be read, whose bytes are
free values (R283 names no data for it). -/
def hostRead (p a len : Nat) (s : State) : Bytes × Bool × State :=
  let (bs, bad, d) := lpRead a len (s.die p)
  let (bs, s) := if bad.isEmpty then (bs, s.setDie p d) else freeHalves a bad 0 bs (s.setDie p d)
  (bs, !bad.isEmpty, s)

/-- BAR2_READ (R359). -/
def bar2Read (f : FnId) (off len : Nat) (s : State) : State :=
  if !s.hostOpen then s.output (.hostRead f (List.replicate len 0))
  else if !s.winServes f off len then s
  else
    match winChk f off len (s.fnWorld f) false false s with
    | (.ok (p, a), s) =>
      let (bs, _, s) := hostRead p a len s
      s.output (.hostRead f bs)
    | (.error _, s) => (winRefused f s).output (.hostRead f (List.replicate len 0xFF))

/-- BAR2_WRITE (R359, R360). -/
def bar2Write (f : FnId) (off : Nat) (bs : Bytes) (s : State) : State :=
  if !s.hostOpen || !s.winServes f off bs.length then s
  else
    match winChk f off bs.length (s.fnWorld f) true false s with
    | (.ok (p, a), s) => s.modDie p (lpWritePart a bs)
    | (.error _, s) => winRefused f s

/-! ## The end of a command (R368, R369, R374, R383) -/

/-- A command in progress. -/
def State.cmd? (s : State) (c : CmdId) : Option Cmd := s.cmds.find? (fun x => decide (x.id = c))

/-- A command in progress changed. -/
def State.modCmd (s : State) (c : CmdId) (f : Cmd → Cmd) : State :=
  { s with cmds := s.cmds.map (fun x => if x.id = c then f x else x) }

/-- The function has not been invalidated since the command was fetched (R382). -/
def State.current (s : State) (c : Cmd) : Bool := decide ((s.fn c.fn).attach = c.attach)

/-- The answer of a boot command appears in `MGT_BOOT_CMD_STATUS` (R75, R77). -/
def bootAnswer (st : Status) (s : State) : State := s.setReg 0x2C st.code

/-- A completion joins those of its queue (R368). -/
def complete (f q : Nat) (x : Finished) (s : State) : State :=
  s.modFn f (fun y =>
    { y with finished := tabSet (fun _ => []) y.finished q (tabGet (fun _ => []) y.finished q ++ [x]) })

/-- The slot's header is written and the slot becomes HELD (R374). -/
def fillSlot (c : Cmd) (st : Status) (bs : Bytes) (s : State) : State :=
  match c.slot with
  | none => s
  | some (l, off) =>
    let s := s.modFn c.fn (fun x => { x with
      slots := x.slots.map (fun t => if t.die = l ∧ t.off = off then { t with held := true } else t) })
    match s.physOf l with
    | none => s
    | some p =>
      let r : Req := ⟨.host, true, c.world, 0⟩
      s.modDie p (fun d =>
        let gen := leNat (tabSlice zeroByte d.lpddr off 4)
        let hdr := leBytes 4 (gen + 1) ++ leBytes 4 st.code ++ leBytes 8 c.cookie.toNat ++
          leBytes 4 bs.length ++ leBytes 44 0
        lpStore r off hdr (lpStore r (off + 64) bs d))

/-- The slot of a rejected command is FREE again (R367, R374). -/
def emptySlot (c : Cmd) (s : State) : State :=
  match c.slot with
  | none => s
  | some (l, off) => s.modFn c.fn (fun x => { x with
      slots := x.slots.filter (fun t => decide (t.die ≠ l) || decide (t.off ≠ off)) })

/-- The memory of a command's result slot serves its writes now. -/
def State.slotServes (s : State) (c : Cmd) (n : Nat) : Bool :=
  match c.slot with
  | none => true
  | some (l, off) => match s.physOf l with
    | none => true
    | some p => lpServes false off (64 + n) (s.die p)

/-- The command has passed all its checks (R367, R368): its work has begun, or its opcode has no state check. One
that ends other than `OK` before that has been rejected (DEDUCED, log 59). -/
def Cmd.passed (c : Cmd) : Bool := c.begun || decide (c.opcode ≤ 4)

/-- The completion of a command that has ended: its result goes into the slot, into host memory (R371), or into
an undelivered record (R383). -/
def conclude (c : Cmd) (st : Status) (bs : Bytes) (extra : BitVec 64) (s : State) : State :=
    let s := if st = .ok ∨ c.passed then fillSlot c st bs s else emptySlot c s
    let toHost := decide (c.slot = none) && decide (bs.length ≠ 0)
    let s := if toHost && s.current c then hostWrite c.fn c.result bs true s else s
    let data : ResultData := if toHost && !s.current c then .bytes bs else .none
    complete c.fn c.queue.toNat ⟨c.cookie, c.opcode, st, c.irq, bs.length, extra, data, c.attach, false, none⟩ s

/-- A command ends with its status, a result of bytes and bytes 24 to 31 of its completion. One whose slot's
memory does not serve waits for it (R292). -/
def finish (c : Cmd) (st : Status) (bs : Bytes) (extra : BitVec 64) (s : State) : State :=
  let s := { s with cmds := s.cmds.filter (fun x => decide (x.id ≠ c.id)) }
  if c.boot then bootAnswer st s
  else if s.slotServes c bs.length then conclude c st bs extra s
  else { s with fills := s.fills ++ [(c, st, bs, extra)] }

/-- The oldest ended command whose slot can now be written concludes. -/
def fillsGo (s : State) : State :=
  match s.fills.find? (fun e => s.slotServes e.1 e.2.2.1.length) with
  | some e => conclude e.1 e.2.1 e.2.2.1 e.2.2.2 { s with fills := s.fills.erase e }
  | none => s

/-- A command ends with a status alone. -/
def answer (c : Cmd) (st : Status) (s : State) : State := finish c st [] 0 s

/-- A command in progress of one of the opcodes acts; any other identifier changes nothing. -/
def State.onCmd (s : State) (c : CmdId) (opcode : Nat) (k : Cmd → State → State) : State :=
  match s.cmd? c with
  | some x => if x.opcode = opcode then k x s else s
  | none => s

/-- The data of an undelivered result: its bytes now (R383). -/
def resultBytes : ResultData → State → Bytes × State
  | .none, s => ([], s)
  | .bytes bs, s => (bs, s)
  | .lpddr l off len, s =>
    match s.physOf l with
    | none => (List.replicate len 0, s)
    | some p =>
      let (bs, _, s) := hostRead p off len s
      (bs, s)

/-- The memory that holds the data of an undelivered result serves reads now. -/
def resultServes : ResultData → State → Bool
  | .lpddr l off len, s => match s.physOf l with
    | none => true
    | some p => lpServes false off len (s.die p)
  | _, _ => true

/-- A finished command of an invalidated function becomes an undelivered record (R383). -/
def toRecord (f q : Nat) (x : Finished) (s : State) : State :=
  s.modFn f (fun y =>
    let y := { y with records := y.records ++ [(⟨y.nextRecord, q, x⟩ : Undelivered)], nextRecord := (y.nextRecord + 1) % 2 ^ 32 }
    (y.setReg 0x1010 y.records.length).event 2)

/-- A record is freed. -/
def freeRecord (f id : Nat) (s : State) : State :=
  s.modFn f (fun x =>
    let rs := x.records.filter (fun r => decide (r.id ≠ id))
    ({ x with records := rs }).setReg 0x1010 rs.length)

/-- The completion entry is written in two posted writes, then the interrupt is sent (R369). A redelivered
record is freed (R383). -/
def writeCpl (f : FnId) (q : Nat) (x : Finished) (s : State) : State :=
  let y := s.fn f
  let r := 4 + q
  let at_ := (y.ring r).base + y.devIdx r % y.ringSize r * 32
  let seq := (y.devIdx r + 1) % 2 ^ 32
  let tail := leBytes 2 x.opcode ++ leBytes 1 x.status.code ++ leBytes 1 q ++ leBytes 8 x.cookie.toNat ++
    leBytes 4 x.bytes ++ leBytes 4 (bit x.redelivered) ++ leBytes 8 x.extra.toNat
  let s := hostWrite f at_ (leBytes 4 seq) false (hostWrite f (at_ + 4) tail false s)
  let s := s.modFn f (fun y => y.setReg (ringOff r + 4) seq)
  let s := match x.record with
    | some id => freeRecord f id s
    | none => s
  match (y.ring r).vector with
  | some v => if x.irq then s.output (.msix f v) else s
  | none => s

/-- COMPLETION_POST (R369): the oldest finished command of a queue gets its completion entry when the
ring has space; that of an invalidated function gets its record, unless it redelivers one, which stands (R383). -/
def completionPost (f : FnId) (q : Nat) (s : State) : State :=
  let y := s.fn f
  match tabGet (fun _ => []) y.finished q with
  | [] => s
  | x :: rest =>
    let pop (s : State) : State :=
      s.modFn f (fun y => { y with finished := tabSet (fun _ => []) y.finished q rest })
    if x.attach ≠ y.attach then
      if x.record.isSome then pop s
      else if y.records.length < 1024 then toRecord f q x (pop s) else s
    else if s.hostOpen && decide (y.ringState (4 + q) = 1) &&
        decide (idxDiff (y.devIdx (4 + q)) (y.hostIdx (4 + q)) < y.ringSize (4 + q)) then
      writeCpl f q x (pop s)
    else s

/-- The command reads host memory after its fetch: COPY_IN, FIRMWARE_LOAD, IMAGE_WRITE. The read of a payload at
the fetch fails as COMMAND_FETCH and BOOT_DOORBELL say. -/
def Cmd.readsHost (c : Cmd) : Bool := decide (c.opcode = 3) || decide (c.opcode = 0x0201) || decide (c.opcode = 0x0202)

/-- HOST_READ_TIMEOUT (R354): the command that issued the read ends. -/
def hostReadTimeout (c : CmdId) (s : State) : State :=
  match s.cmd? c with
  | some x => if x.readsHost then answer { x with begun := true } .timeout s else s
  | none => s

/-! ## Commands of this chapter (R370, R372) -/

/-- NOP. -/
def nopCommand (c : CmdId) (s : State) : State := s.onCmd c 0x0001 (fun x s => answer x .ok s)

/-- An earlier command of the queue is in progress. -/
def earlier (c : Cmd) (s : State) : Bool :=
  (s.cmds ++ s.fills.map (·.1)).any (fun x =>
    decide (x.id < c.id) && decide (x.fn = c.fn) && decide (x.queue = c.queue) && !x.boot)

/-- FENCE (R372): completes once every earlier command of its queue has completed. The writes of a
completed command are in place, so its fence scopes are met. -/
def fenceCommand (c : CmdId) (s : State) : State :=
  s.onCmd c 0x0002 (fun x s => if earlier x s then s else answer x .ok s)

/-- Units of COPY_IN, one after the other, up to the first that is refused: bytes moved and status. -/
def copyInUnits (f : Nat) (secure : Bool) : (n off : Nat) → Bytes → State → Nat × Option Status × State
  | 0, _, _, s => (0, none, s)
  | n + 1, off, bs, s =>
    match winChk f off 64 secure true false s with
    | (.ok (p, a), s) =>
      let (m, st, s) := copyInUnits f secure n (off + 64) (bs.drop 64)
        (s.modDie p (lpStore ⟨.host, true, secure, 0⟩ a (sliceB bs 0 64)))
      (m + 64, st, s)
    | (.error st, s) => (0, some st, winRefused f s)

/-- COPY_IN (R370): `data` is what the host memory named by the command held. A read that an invalidation has
abandoned brings none (R382): HOST_READ_TIMEOUT ends the command (R354). -/
def copyIn (c : CmdId) (data : Bytes) (s : State) : State :=
  s.onCmd c 0x0003 (fun x s =>
    let off := bitsOf x.imm.toNat 63 0
    if decide (data.length ≠ x.srcLen) || !s.current x || !s.winServes x.fn off x.srcLen then s
    else
      let (_, st, s) := copyInUnits x.fn x.world (x.srcLen / 64) off data s
      answer x (st.getD .ok) s)

/-- Units of COPY_OUT: the bytes moved, whether one could not be read, and the first refusal. -/
def copyOutUnits (f : Nat) (secure : Bool) : (n off : Nat) → State → Bytes × Bool × Option Status × State
  | 0, _, s => ([], false, none, s)
  | n + 1, off, s =>
    match winChk f off 64 secure false false s with
    | (.ok (p, a), s) =>
      let (u, bad, s) := hostRead p a 64 s
      let (bs, bad', st, s) := copyOutUnits f secure n (off + 64) s
      (u ++ bs, bad || bad', st, s)
    | (.error st, s) => ([], false, some st, winRefused f s)

/-- COPY_OUT (R370). A half that cannot be read gives `POISONED` (R99); the record of an undelivered
COPY_OUT names the source in LPDDR, which no copy is kept of. -/
def copyOut (c : CmdId) (s : State) : State :=
  s.onCmd c 0x0004 (fun x s =>
    let off := bitsOf x.imm.toNat 63 0
    if !s.winServes x.fn off x.resultLen then s else
    let src := s.window x.fn off
    let (bs, bad, st, s) := copyOutUnits x.fn x.world (x.resultLen / 64) off s
    let st := st.getD (if bad then .poisoned else .ok)
    match src, decide (x.slot = none) && !s.current x with
    | some (w, a), true =>
      complete x.fn x.queue.toNat
        ⟨x.cookie, x.opcode, st, x.irq, bs.length, 0,
          if bs.length = 0 then .none else .lpddr w.die a bs.length, x.attach, false, none⟩
        { s with cmds := s.cmds.filter (fun y => decide (y.id ≠ x.id)) }
    | _, _ => finish x st bs 0 s)

/-- A return that names no HELD slot is counted (R374). -/
def returnRefused (f : Nat) (s : State) : State :=
  s.modFn f (fun x => x.setReg 0x1014 (satAdd 32 (x.reg 0x1014) 1))

/-- RESULT_RETURN (R374): a write of `HST_RESULT_RETURN_HI`. -/
def resultReturn (f hi : Nat) (s : State) : State :=
  if !s.hostOpen then s
  else
    let off := (s.fn f).reg 0x1008 + hi <<< 32
    match s.window f off with
    | none => returnRefused f s
    | some (w, a) =>
      if (s.fn f).slots.any (fun t => decide (t.die = w.die) && decide (t.off = a) && t.held) then
        s.modFn f (fun x => { x with
          slots := x.slots.filter (fun t => decide (t.die ≠ w.die) || decide (t.off ≠ a)) })
      else returnRefused f s

/-! ## Diagnostics and telemetry (R361, R362, R391) -/

/-- A die register as a function of the host sees it (R361, R391): 0 where the die is off, and from
every block of a secure die but `DIE_` for a non-secure function. -/
def State.peek (s : State) (f p off : Nat) : Nat :=
  let d := s.die p
  if d.run = .off then 0
  else if d.world && !s.fnWorld f && decide (0x10000 ≤ off) then 0
  else dieRead d off

/-- DIAG_APERTURE_READ (R361): a read of the PF, of 32 bits or, `wide`, of 64 at one instant (R190). -/
def diagApertureRead (p off : Nat) (wide : Bool) (s : State) : State :=
  let word (o : Nat) : Bytes :=
    leBytes 4 (if s.hostOpen then s.peek 0 p ((o >>> 15) <<< 16 + o % 2 ^ 15) else 0)
  s.output (.hostRead 0 (word off ++ (if wide then word (off + 4) else [])))

/-- The 16 words of a die's telemetry record as function `f` sees them (R362, R391). -/
def telemetryRecord (s : State) (f p : Nat) : List Nat :=
  let d := s.die p
  let part := match s.rowPart (p / 9) with
    | some q => q
    | none => 0xFF
  let shown := decide (f = 0) || decide (part + 1 = f)
  if !shown then List.replicate 16 0
  else if d.world && !s.fnWorld f then s.dieState p :: List.replicate 15 0
  else
    let o (x : Nat) : Nat := if d.run = .off then 0 else x
    [s.dieState p + d.junction.toNat <<< 8 + o (diePace d - 1) <<< 16 + part <<< 24, 0,
      o (d.reg 0x10020), o (d.reg 0x10024), o (d.reg 0x30030), o (d.reg 0x30034),
      o (d.reg 0x20000), o (satAdd 32 (d.reg 0x70010) (d.reg 0x80010)),
      o (d.get ⟨0x70000, 15, 8⟩ + d.get ⟨0x80000, 15, 8⟩ <<< 8), 0, 0, 0, 0, 0, 0, 0]

/-- The words of a function's snapshot, at the offsets of R362. -/
def telemetryWords (s : State) (f seq : Nat) : List (Nat × Nat) :=
  [(0, seq), (8, s.mgtclk.toNat % 2 ^ 32), (12, s.mgtclk.toNat / 2 ^ 32), (16, s.package)] ++
    (List.range 72).flatMap (fun p =>
      (telemetryRecord s f p).mapIdx (fun i w => (0x1000 + 64 * p + 4 * i, w)))

/-- TELEMETRY_SNAPSHOT (R362): `SNAP_SEQ` goes up by 1 before and after. -/
def telemetrySnapshot (s : State) : State :=
  if !s.reckoner then s
  else
    (List.range 9).foldl (fun s f =>
      s.modFn f (fun x =>
        let seq := (tabGet (fun _ => (0 : Word32)) x.snap 0).toNat + 2
        { x with snap := (telemetryWords s f (seq % 2 ^ 32)).foldl (fun t e =>
            tabSet (fun _ => (0 : Word32)) t e.1 (BitVec.ofNat 32 e.2)) x.snap })) s

/-! ## Invalidation (R382) -/

/-- A function is invalidated. -/
def invalidate (f : Nat) (s : State) : State :=
  let s := s.modFn f (fun x =>
    let x := (List.range 4).foldl (fun x q => x.setReg (0x1020 + 4 * q) (x.devIdx q)) x
    let x := { x with regs := tabDrop x.regs 0 0x400, rings := [], windows := [] }
    (x.put ⟨0x1000, 15, 0⟩ (x.attach + 1)).event 0)
  { s with binding := s.binding.map (fun b =>
      if b.ring.any (fun r => decide (r.1 = f)) then { b with ring := none } else b) }

/-- Every function is invalidated. -/
def invalidateAll (s : State) : State := (List.range 9).foldl (fun s f => invalidate f s) s

/-- HOST_LINK_DOWN (R382): Data Link Layer down, hot reset or PERST# asserted. -/
def hostLinkDown (s : State) : State := if s.pins.rstReleased then invalidateAll s else s

/-- FUNCTION_LEVEL_RESET (R382): an FLR of the PF invalidates every function. -/
def functionLevelReset (f : Nat) (s : State) : State :=
  if !s.pins.rstReleased then s else if f = 0 then invalidateAll s else invalidate f s

/-- BUS_MASTER_DISABLE (R382). -/
def busMasterDisable (f : Nat) (s : State) : State := if s.pins.rstReleased then invalidate f s else s

/-- PERST (R58): only the endpoint is affected. -/
def perst (asserted : Bool) (s : State) : State :=
  let s := { s with pins := { s.pins with perstReleased := !asserted } }
  if asserted then hostLinkDown s else s

end Sys2Proof.Machine
end

