-- ==== Sys2Proof/Machine/Input.lean ====
section
/-! DEFINITION. Input rings and their bindings (R376 to R379, R384, R386). -/

namespace Sys2Proof.Machine

/-- `DIE_INPUT`b`_CTL`, in a die's register space (R386). -/
def inputReg (b : Nat) : Nat := 0x200 + 16 * b
/-- `COUNT` of a binding. -/
def inputCount (d : Die) (b : Nat) : Nat := d.reg (inputReg b + 4)
/-- `CONSUMED` of a binding. -/
def inputUsed (d : Die) (b : Nat) : Nat := d.reg (inputReg b + 8)

/-- A binding of logical die `l`. -/
def State.binding? (s : State) (l b : Nat) : Option Binding :=
  s.binding.find? (fun x => decide (x.die = l) && decide (x.b = b))

/-- A binding stored. -/
def State.setBinding (s : State) (x : Binding) : State :=
  if (s.binding? x.die x.b).isSome then
    { s with binding := s.binding.map (fun y => if y.die = x.die ∧ y.b = x.b then x else y) }
  else { s with binding := s.binding ++ [x] }

/-- Bytes of a staging slot. -/
def Binding.slotBytes (x : Binding) : Nat := 64 * x.units

/-- A descriptor breaks a field rule or the order of windows (R376). -/
def descBad (x : Binding) (e : Bytes) : Bool :=
  let len := natAt e 8 4
  decide (natAt e 0 8 % 64 ≠ 0) || decide (len = 0) || decide (x.slotBytes < len + 64) ||
    decide (natAt e 12 4 ≠ 0) || decide (natAt e 22 2 ≠ 0) || decide (natAt e 27 1 ≠ 0) ||
    decide (natAt e 28 4 ≠ 0) || decide (natAt e 16 6 < x.lastWindow)

/-- The descriptor that must come next after a registration (R384). -/
def Binding.expect (x : Binding) : Option (Nat × Nat) :=
  match x.skip with
  | e :: _ => some e
  | [] => x.first

/-- A fire of the bound token, as SIGNAL with `FIRE` 1 (R377). -/
def fireToken (t : ThreadId) (tok : Nat) (d : Die) : Die :=
  let th := d.thread t
  if th.st = .free ∨ th.st = .ending ∨ th.cnt tok = 0 then d
  else settle (d.setThread t (th.setCnt tok (th.cnt tok - 1)))

/-- `NOTIFY` of a binding (R377). -/
def notifyInput (b : Nat) (d : Die) : Die :=
  let v := d.reg (inputReg b)
  if bitOf v 15 then fireToken (BitVec.ofNat 11 v) (bitsOf v 14 11) d else d

/-- The ring's `DEV_IDX` advances. -/
def fetched (f r : Nat) (s : State) : State :=
  s.modFn f (fun x => x.setReg (ringOff r + 4) ((x.devIdx r + 1) % 2 ^ 32))

/-- A descriptor that was delivered before a registration is skipped; the entry of a window that it opens
is re-based (R384). -/
def skipInput (f r : Nat) (x : Binding) (e : Nat × Nat) (s : State) : State :=
  let opens := decide ((x.seen.find? (fun y => decide (y.1 = e.1))) = some e)
  let idx := (s.fn f).devIdx r
  fetched f r (s.setBinding { x with
    skip := x.skip.drop 1, lastWindow := e.1,
    wins := if opens then x.wins.map (fun w => if w.1 = e.1 then (w.1, idx, w.2.2) else w) else x.wins })

/-- A descriptor's data is staged: data, record, `COUNT`, the notification (R377), and the window's entry
(R379). -/
def stageInput (f r p : Nat) (x : Binding) (e data : Bytes) (s : State) : State :=
  let win := natAt e 16 6
  let mb := natAt e 24 3
  let d := s.die p
  let count := inputCount d x.b
  let at_ := x.base + count % x.slots * x.slotBytes
  let req : Req := ⟨.host, true, s.fnWorld f, 0⟩
  match regionChk d req at_ x.slotBytes with
  | some st => (s.modDie p (regionRefused req at_ st)).modFn f (·.ringError r st)
  | none =>
    let idx := (s.fn f).devIdx r
    let opens := !x.seen.any (fun y => decide (y.1 = win))
    let wins := if !x.wins.any (fun w => decide (w.1 = win)) then x.wins ++ [(win, idx, count, inputUsed d x.b)]
      else if opens then x.wins.map (fun w => if w.1 = win then (w.1, idx, w.2.2) else w) else x.wins
    let count' := (count + 1) % 2 ^ 32
    let head := leBytes 8 win ++ leBytes 4 mb ++ leBytes 4 data.length ++ leBytes 4 count' ++ leBytes 44 0
    let s := s.modDie p (fun d => notifyInput x.b
      ((lpStore req at_ head (lpStore req (at_ + 64) data d)).setReg (inputReg x.b + 4) count'))
    fetched f r (s.setBinding { x with
      wins := wins, seen := x.seen ++ [(win, mb)], first := none, lastWindow := win })

/-- INPUT_DESCRIPTOR (R377, R378, R379, R384): the next descriptor of an IN ring has been read, and its data. -/
def inputDescriptor (f i : Nat) (e data : Bytes) (s : State) : State :=
  let r := 8 + i
  let y := s.fn f
  if !s.hostOpen || decide (y.ringState r ≠ 1) || decide (y.hostIdx r = y.devIdx r) then s
  else
    match s.binding.find? (fun x => decide (x.ring = some (f, i))) with
    | none => s
    | some x =>
      let key := (natAt e 16 6, natAt e 24 3)
      match s.physOf x.die with
      | none => s
      | some p =>
        if x.slots ≤ idxDiff (inputCount (s.die p) x.b) (inputUsed (s.die p) x.b) then s
        else if descBad x e || x.expect.any (fun k => decide (k ≠ key)) then s.modFn f (·.ringError r .malformed)
        else if x.skip ≠ [] then skipInput f r x key s
        else if !x.wins.any (fun w => decide (w.1 = key.1)) && decide (16 ≤ x.wins.length) then s
        else if data.length ≠ natAt e 8 4 then s
        else if !lpServes false (x.base + inputCount (s.die p) x.b % x.slots * x.slotBytes) x.slotBytes (s.die p)
        then s
        else stageInput f r p x e data s

/-- The ring index of a window's entry holds for the present registration: the ring has passed the window's first
descriptor since (R384). -/
def Binding.based (x : Binding) (w : Nat) : Bool :=
  match x.seen.find? (fun y => decide (y.1 = w)) with
  | some e => !x.skip.contains e
  | none => false

/-- The ring's `RELEASED` follows the oldest entry (R379); one not yet passed again lies at `DEV_IDX` or after. -/
def releaseInput (x : Binding) (s : State) : State :=
  match x.ring with
  | none => s
  | some (f, i) => s.modFn f (fun y => y.setReg (ringOff (8 + i) + 0xC)
      (match x.wins with
      | w :: _ => if x.based w.1 then w.2.1 else y.devIdx (8 + i)
      | [] => y.devIdx (8 + i)))

/-- A COMMIT of window `w` reaches a binding (R379). -/
def inputCommit (w : Nat) (x : Binding) (s : State) : State :=
  let x := { x with
    wins := x.wins.filter (fun y => decide (w < y.1)),
    seen := x.seen.filter (fun y => decide (w < y.1)) }
  releaseInput x (s.setBinding x)

/-- `COUNT` and `CONSUMED` of window `w`'s entry are written and the later entries dropped; `keep`: the ring
stays registered (a REPEAT, R379), else it is to be registered again (R451). -/
def inputRewind (p w : Nat) (keep : Bool) (x : Binding) (s : State) : State :=
  match x.wins.find? (fun y => decide (y.1 = w)) with
  | none => s
  | some (_, idx, count, used) =>
    let s := s.modDie p (fun d =>
      (d.setReg (inputReg x.b + 4) count).setReg (inputReg x.b + 8) used)
    let back := keep && x.ring.isSome && x.based w
    let s := match x.ring, back with
      | some (f, i), true => s.modFn f (fun y => y.setReg (ringOff (8 + i) + 4) idx)
      | _, _ => s
    s.setBinding { x with
      wins := x.wins.filter (fun y => decide (y.1 ≤ w)),
      seen := x.seen.filter (fun y => decide (y.1 < w)),
      first := if back then none else x.seen.find? (fun y => decide (y.1 = w)),
      skip := if back then [] else x.skip.filter (fun y => decide (y.1 < w)),
      lastWindow := if keep && !back then x.lastWindow else w }

/-- The bindings of a job on a logical die. -/
def State.jobBindings (s : State) (l j : Nat) : List Binding :=
  s.binding.filter (fun x => decide (x.die = l) && decide (x.job = j))

/-- INPUT_CONSUMED (R378): a write of `DIE_INPUT`b`_CONSUMED`. -/
def dieInputConsumed (mgmt hostIf formed : Bool) (b v : Nat) (d : Die) : Die :=
  dieWrite mgmt hostIf formed (inputReg b + 8) v d

end Sys2Proof.Machine
end

