-- ==== Sys2Proof/Machine/Power.lean ====
section
/-! DEFINITION. Rails, pacing and the power budget: setpoints and AVSBus (R40 to R43), the comparators
(R44, R45), the issue ramp (R94), power tokens (R430 to R433) and the buckets of SHARES mode (R424). -/

namespace Sys2Proof.Machine

/-! ## Pacing (R43 to R45) -/

/-- A row's power state. -/
def State.row (s : State) (n : Nat) : Row := tabGet (fun _ => {}) s.rows n
/-- The block with a row stored. -/
def State.setRow (s : State) (n : Nat) (r : Row) : State :=
  { s with rows := tabSet (fun _ => {}) s.rows n r }

/-- Issue slots of 16 that the sources outside a die leave its row: the lowest (R43, R44). -/
def State.paceOf (s : State) (n : Nat) : Nat :=
  min (min (if (s.row n).ov then 8 else 16) (s.row n).oc) (min s.excPace (if s.avsPaced then 11 else 16))

/-- The pacing wires and `PWM_ROW_PACE` follow the sources (R44, R45). -/
def repace (s : State) : State :=
  (List.range 8).foldl (fun s n =>
    let p := s.paceOf n
    (s.put ⟨0x10104, 4 * n + 3, 4 * n⟩ (p - 1)).modDies (rowPhys n) (fun d => { d with rowPace := p })) s

/-- A bit of `PWM_HWLIMIT_STATUS` is set (R45). -/
def hwLimit (i : Nat) (s : State) : State := s.put ⟨0x10100, i, i⟩ 1

/-- A comparator acts on a row whose setpoint is being raised: the previous one is to be written back (R42). -/
def tripRaise (n : Nat) (s : State) : State :=
  let r := s.row n
  s.setRow n { r with slew := r.slew.map (fun x => if x.old < r.rail then { x with tripped := true } else x) }

/-- ROW_OVER_VOLTAGE (R44): the 1 µs mean of a row rail, in µV, is above 0.865 V. -/
def rowOverVoltage (n uv : Nat) (s : State) : State :=
  if 865000 < uv then
    let s := tripRaise n s
    repace (hwLimit n (s.setRow n { s.row n with ov := true }))
  else s

/-- OVER_VOLTAGE_RELEASE (R44): for 100 µs the mean has been at most `uv`, below 0.855 V. -/
def overVoltageRelease (n uv : Nat) (s : State) : State :=
  if uv < 855000 then repace (s.setRow n { s.row n with ov := false }) else s

/-- ROW_OVER_CURRENT (R44): the 1 µs mean of IMON_ROWn, in mA, is above 520 A; the row's pace starts to fall. -/
def rowOverCurrent (n ma : Nat) (s : State) : State :=
  if 520000 < ma then
    let s := tripRaise n s
    hwLimit (8 + n) (s.setRow n { s.row n with ocOn := true })
  else s

/-- The package power P of R44 in µW: IMON in mA times the setpoints in mV, and 550 W. VSRAM keeps its boot
setpoint (R41). -/
def State.packagePower (s : State) (imon : List Nat) (sram : Nat) : Nat :=
  ((List.range 8).map (fun n => imon.getD n 0 * s.get ⟨0x10010 + 4 * n, 25, 16⟩)).sum + sram * 800 + 550000000

/-- PACKAGE_EXCURSION (R28, R44): above 3,300 W every row is cut to 8 of 16 at once; `long`: above 3,000 W for
longer than 9.9 ms. -/
def packageExcursion (imon : List Nat) (sram : Nat) (long : Bool) (s : State) : State :=
  let p := s.packagePower imon sram
  let cut := decide (3300000000 < p)
  if cut || (long && decide (3000000000 < p)) then
    let s := (List.range 8).foldl (fun s n => tripRaise n s) s
    repace (hwLimit 16 { s with excOn := true, excPace := if cut then min s.excPace 8 else s.excPace })
  else s

/-- PACE_LOWER_TICK (R44): every 2 µs a tripped comparator lowers its pace by 1 slot, until what it measures is
below 500 A or 3,000 W. -/
def paceLowerTick (src : PaceSource) (s : State) : State :=
  match src with
  | .overCurrent row ma =>
    let r := s.row row.toNat
    if !r.ocOn then s
    else if ma < 500000 then s.setRow row.toNat { r with ocOn := false }
    else repace (s.setRow row.toNat { r with oc := max 1 (r.oc - 1) })
  | .excursion imon sram =>
    if !s.excOn then s
    else if s.packagePower imon sram < 3000000000 then { s with excOn := false }
    else repace { s with excPace := max 1 (s.excPace - 1) }

/-- PACE_RAISE_TICK (R44): 100 µs below 480 A or 2,900 W raise the pace by 1 slot; the trip is over. -/
def paceRaiseTick (src : PaceSource) (s : State) : State :=
  match src with
  | .overCurrent row ma =>
    let r := s.row row.toNat
    if ma < 480000 then repace (s.setRow row.toNat { r with oc := min 16 (r.oc + 1), ocOn := false }) else s
  | .excursion imon sram =>
    if s.packagePower imon sram < 2900000000 then
      repace { s with excPace := min 16 (s.excPace + 1), excOn := false }
    else s

/-- ISSUE_RAMP_STEP (R94). -/
def dieRampStep (d : Die) : Die := { d with ramp := min 16 (d.ramp + 1) }

/-! ## AVSBus (R40, R41, R43) -/

/-- A frame goes out over AVSBus. -/
def avsFrame (x : Output) (s : State) : State := { s.output x with avsSent := some x, avsFails := 0 }

/-- AVS_FRAME_FAIL: the frame last sent is repeated; the third failure in all sets `AVS_FAULT` and paces every row at
11 of 16 (R43; log 60). -/
def avsFrameFail (s : State) : State :=
  match s.avsSent with
  | none => s
  | some x =>
    if 2 ≤ s.avsFails then repace (hwLimit 17 { s with avsFails := 0, avsSent := none, avsPaced := true })
    else { s.output x with avsFails := s.avsFails + 1 }

/-- AVS_RETRY: a rail is read, and a read that succeeds ends the pacing. -/
def avsRetry (rail : Nat) (what : AvsRead) (ok : Bool) (s : State) : State :=
  if !s.avsPaced then s
  else
    let s := avsFrame (.avsRead rail what) s
    if ok then repace { s with avsSent := none, avsPaced := false } else s

/-! ## Setpoints (R41, R42, R433) -/

/-- `REQUESTED` of a row. -/
def State.requestedMv (s : State) (n : Nat) : Nat := s.get ⟨0x10010 + 4 * n, 9, 0⟩
/-- `CURRENT` of a row. -/
def State.currentMv (s : State) (n : Nat) : Nat := s.get ⟨0x10010 + 4 * n, 25, 16⟩
/-- B in W (R437). -/
def State.budgetW (s : State) : Nat := s.get ⟨0x10000, 15, 4⟩
/-- CENTRAL mode. -/
def State.central (s : State) : Bool := s.flag 0x10000 0

/-- A setpoint that the device may send: 550 to 850 mV in steps of 5 (R41). -/
def mvOk (mv : Nat) : Bool := decide (550 ≤ mv) && decide (mv ≤ 850) && decide (mv % 5 = 0)

/-- A raise from `v` to `v'` fits the budget (R433). `pRow` and `total` are in mW, as measured. -/
def raiseFits (v v' pRow total b : Nat) : Bool :=
  let (n, d) := stepRate v
  let (n', d') := stepRate v'
  -- total − p + p·(v'/v)²·(n'/d')/(n/d) ≤ 1000·B
  decide (((total : Int) - pRow - 1000 * b) * (v * v * n * d') + pRow * (v' * v' * n' * d) ≤ 0)

/-- The voltage of a row's rail in mV: the regulator slews at 5 mV/µs from where it stood (R41, step 4). -/
def State.railMv (s : State) (n : Nat) : Nat :=
  let r := s.row n
  match r.slew with
  | none => r.rail
  | some x =>
    let moved := (s.mgtclk.toNat - x.since) / 5
    if x.volts ≤ r.rail then min r.rail (x.volts + moved) else max r.rail (x.volts - moved)

/-- `CURRENT` of a row, and the setpoint that the estimators of its dies use (R437). -/
def showCurrent (n mv : Nat) (s : State) : State :=
  let s := s.put ⟨0x10010 + 4 * n, 25, 16⟩ mv
  s.modDies ((rowPhys n).filter (fun p => decide ((s.die p).run ≠ .off))) (fun d => d.put ⟨0xB000C, 9, 0⟩ mv)

/-- The rail takes a target voltage (R41, step 2). The change runs until a read finds the rail within 8 mV. -/
def sendSetpoint (n mv : Nat) (s : State) : State :=
  let r := s.row n
  let x : Slew := { old := r.rail, volts := s.railMv n, since := s.mgtclk.toNat }
  showCurrent n mv (avsFrame (.avsTarget n mv) (s.setRow n { r with rail := mv, slew := some x }))

/-- Step 5 of a setpoint change (R41): every frame slot the rail is read until it is within 8 mV of the target. A
raise on which a comparator acted is then taken back (R42). -/
def pollRail (s : State) (n : Nat) : State :=
  let r := s.row n
  match r.slew with
  | none => s
  | some x =>
    if (s.mgtclk.toNat - x.since) % 40 ≠ 0 then s
    else
      let v := s.railMv n
      let s := avsFrame (.avsRead n .voltage) s
      if 8 < max v r.rail - min v r.rail then s
      else
        let s := s.setRow n { r with slew := none }
        if x.tripped then sendSetpoint n x.old s else s

/-- A row's requested setpoint is sent if it is no raise, or if the raise is granted (R41, step 1; R433); else it is
held. -/
def trySetpoint (n pRow total : Nat) (s : State) : State :=
  let v := (s.row n).rail
  let v' := s.requestedMv n
  if v' = v then s
  else if v' < v || raiseFits v v' pRow total s.budgetW then sendSetpoint n v' s
  else s

/-- SETPOINT_CHANGE (R41). -/
def setpointChange (n mv pRow total : Nat) (s : State) : State :=
  if s.reckoner && mvOk mv then trySetpoint n pRow total (s.put ⟨0x10010 + 4 * n, 9, 0⟩ mv) else s

/-- SETPOINT_RAISE_RETRY (R433): every 100 ms. -/
def setpointRaiseRetry (n pRow total : Nat) (s : State) : State :=
  if s.reckoner then trySetpoint n pRow total s else s

/-! ## Tokens (R430 to R432) -/

/-- `PWR_HOLD`. -/
def holding (d : Die) : Nat := d.get ⟨0xB0000, 19, 0⟩
/-- The holding stored. -/
def setHolding (v : Nat) (d : Die) : Die := d.put ⟨0xB0000, 19, 0⟩ (min v (2 ^ 20 - 1))
/-- `PWR_ESTIMATE`. -/
def estimate (d : Die) : Nat := d.get ⟨0xB0004, 19, 0⟩
/-- Budget pace, 1 to 16. -/
def budgetPace (d : Die) : Nat := d.get ⟨0xB0008, 3, 0⟩ + 1
/-- `FREEZE`. -/
def frozen (d : Die) : Bool := d.flag 0xB0008 5
/-- A die holds a throttle request (R434). -/
def throttled (d : Die) : Bool := d.flag 0xB0008 4

/-- The dies of the package in a run state, ascending. -/
def State.running (s : State) (r : DieRun) : List Nat :=
  (List.range 72).filter (fun p => decide ((s.die p).run = r))

/-- The dies that hold tokens: those that are not off (R431). -/
def State.tokenDies (s : State) : List Nat := s.running .active ++ s.running .routeOnly

/-- The tokens are dealt (R431): 128 to each route-only die, none to a die that is off, the rest in equal
parts to the active dies, the remainder to the pool. In CENTRAL mode division does it (R432). -/
def dealTokens (s : State) : State :=
  if s.central then s.modDies (s.running .routeOnly) (setHolding 128)
  else
    let active := s.running .active
    let rest := 32 * s.budgetW - 128 * (s.running .routeOnly).length
    let share := if active.length = 0 then 0 else rest / active.length
    ((s.modDies (s.running .routeOnly) (setHolding 128)).modDies active (setHolding share)).put
      ⟨0x10004, 21, 0⟩ (rest - share * active.length)

/-- A POWER bead to a neighbour (R431): request (`SEQ` 0) or grant (1) with its tokens. -/
def powerBead (d q : Die) (grant : Bool) (n : Nat) : Frame :=
  .bead (packBead { dstPkg := d.pkg.toNat, dstDie := q.logical.toNat, srcPkg := d.pkg.toNat, srcDie := d.logical.toNat,
                    world := d.world, kind := 5, csub := 6, seq := bit grant, epoch := n }) []

/-- A POWER bead crosses one seam: it lies at the neighbour, if that die runs. -/
def sendPower (p q : Nat) (grant : Bool) (n : Nat) (s : State) : State :=
  if (s.die q).run = .active then
    s.modDie q (fun d => { d with inbox := d.inbox ++ [powerBead (s.die p) d grant n] })
  else s

/-- The neighbours of a die over its seams. -/
def neighbours (p : Nat) : List Nat := [1, 2, 3, 4].filterMap (neighbour p)

/-- A die asks its neighbours for its shortfall, each at most once per 1,000 ticks (R431). -/
def askTokens (p : Nat) (s : State) : State :=
  let d := s.die p
  let short := min (2 ^ 16 - 1) (estimate d - holding d)
  if s.central || frozen d || decide (budgetPace d = 16) || decide (short = 0) then s
  else (neighbours p).foldl (fun s q =>
    let ready := match d.asked.lookup q with
      | none => true
      | some t => decide (1000 ≤ (d.rrc - t).toNat)
    if ready then
      sendPower p q false short (s.modDie p (fun d =>
        { d with asked := (d.asked.filter (fun e => decide (e.1 ≠ q))) ++ [(q, d.rrc)] }))
    else s) s

/-- The budget pace follows an estimate (R430). -/
def estimatePace (e : Nat) (d : Die) : Die :=
  let d := d.setReg 0xB0004 e
  if holding d < e then
    ({ d with lowEstimates := 0 }).put ⟨0xB0008, 3, 0⟩ (max 1 (budgetPace d - 1) - 1)
  else if e * 16 < holding d * 15 then
    if 9 ≤ d.lowEstimates then
      ({ d with lowEstimates := 0 }).put ⟨0xB0008, 3, 0⟩ (min 16 (budgetPace d + 1) - 1)
    else { d with lowEstimates := d.lowEstimates + 1 }
  else { d with lowEstimates := 0 }

/-- Vector handshakes that a die counts, over its jobs (R423). -/
def vecCount (d : Die) : Nat := ((List.range 16).map (fun j => d.reg48 (talJob j + 8))).sum
/-- Port accesses that a die counts, over its clients (R193). -/
def portCount (d : Die) : Nat := ((List.range 5).map (fun n => d.reg (0x20010 + 4 * n))).sum

/-- The die's estimate of its power, from what it did since the last one (R430). -/
def dieEstimate (d : Die) : Die :=
  let now := (d.reg48 0x10020, vecCount d, portCount d, d.seamFlits)
  let at_ := d.estAt
  let e := Config.powerEstimate (now.1 - at_.1) (now.2.1 - at_.2.1) (now.2.2.1 - at_.2.2.1)
    (now.2.2.2 - at_.2.2.2) (d.get ⟨0xB000C, 9, 0⟩) d.junction.toNat
  estimatePace e.toNat { d with estAt := now }

/-- POWER_ESTIMATE (R430, R431). -/
def powerEstimate (p : Nat) (s : State) : State :=
  if (s.die p).run = .active then askTokens p (s.modDie p dieEstimate) else s

/-- A bead at the front of die `p`'s inbox is taken, where the command acts on one of its kind (R217). -/
def State.fromInbox (s : State) (p : Nat) (ok : Bool) (f : Frame) (k : State → State) : State :=
  match (s.die p).inbox with
  | g :: rest => if ok && decide (g = f) then k (s.modDie p (fun d => { d with inbox := rest })) else s
  | [] => s

/-- A POWER request; any value of `SEQ` but that of a grant is taken for one (R431). -/
def isPowerRequest (h : BitVec 256) : Bool := isControl h 6 && decide ((beadOf h).seq ≠ 1)
/-- A POWER grant. -/
def isPowerGrant (h : BitVec 256) : Bool := isControl h 6 && decide ((beadOf h).seq = 1)

/-- A POWER bead that is whole (R5, R205, R431). -/
def powerOk (h : BitVec 256) : Bool := !beadBad h && decide ((beadOf h).srcRod = 0) && decide ((beadOf h).seq ≤ 1)

/-- POWER_REQUEST (R431): the neighbour grants what it can spare, and its holding falls as it sends. A
header error loses the bead. -/
def powerRequest (p src : Nat) (h : BitVec 256) (s : State) : State :=
  if (s.die p).run ≠ .active then s
  else s.fromInbox p (isPowerRequest h) (.bead h []) (fun s =>
    let d := s.die p
    if !hdrOk h then s.modDie p hdrError
    else if !powerOk h then s.modDie p (nakBead (beadOf h) .malformed)
    else if frozen d || s.central || !(neighbours p).contains src then s
    else
      let give := min (beadOf h).epoch (holding d - ceilDiv (estimate d * 17) 16)
      if give = 0 then s
      else sendPower p src true give (s.modDie p (setHolding (holding d - give))))

/-- POWER_GRANT (R431). -/
def powerGrant (p : Nat) (h : BitVec 256) (s : State) : State :=
  if (s.die p).run ≠ .active then s
  else s.fromInbox p (isPowerGrant h) (.bead h []) (fun s =>
    let d := s.die p
    if !hdrOk h then s.modDie p hdrError
    else if !powerOk h then s.modDie p (nakBead (beadOf h) .malformed)
    else s.modDie p (setHolding (holding d + (beadOf h).epoch)))

/-- TOKEN_AUDIT (R431): `FREEZE` in every die. -/
def tokenAudit (s : State) : State :=
  if s.reckoner && !s.central then s.modDies s.tokenDies (fun d => d.put ⟨0xB0008, 5, 5⟩ 1) else s

/-- TOKEN_AUDIT_READ (R431): what the holdings lack of 32 × B goes from the pool to the dies whose pace is
lowest, in equal parts; the remainder stays in the pool. -/
def tokenAuditRead (s : State) : State :=
  if s.reckoner && !s.central then
    let sum := (s.tokenDies.map (fun p => holding (s.die p))).sum
    let lack := 32 * s.budgetW - sum
    let active := s.running .active
    let low := active.foldl (fun m p => min m (budgetPace (s.die p))) 16
    let poor := active.filter (fun p => decide (budgetPace (s.die p) = low))
    let share := if poor.length = 0 then 0 else lack / poor.length
    let t := s.modDies poor (fun d => setHolding (holding d + share) d)
    (t.modDies s.tokenDies (fun d => d.put ⟨0xB0008, 5, 5⟩ 0)).put ⟨0x10004, 21, 0⟩ (lack - share * poor.length)
  else s

/-- A die's demand (R432): its estimate, and 1/16 more while its budget pace is below 16. -/
def demand (d : Die) : Nat := if budgetPace d < 16 then estimate d + estimate d / 16 else estimate d

/-- Max-min fair division: those whose demand lies within an equal part get it, and the rest share what is
left. -/
def fairShares : (fuel total : Nat) → List (Nat × Nat) → List (Nat × Nat)
  | 0, _, _ => []
  | _ + 1, _, [] => []
  | n + 1, total, ds =>
    let part := total / ds.length
    let met := ds.filter (fun e => decide (e.2 ≤ part))
    if met.isEmpty then ds.map (fun e => (e.1, part))
    else met ++ fairShares n (total - (met.map (·.2)).sum) (ds.filter (fun e => decide (part < e.2)))

/-- CENTRAL_DIVISION (R432). The holding of a die with a throttle request does not rise (R434, DEDUCED: log 68). -/
def centralDivision (s : State) : State :=
  if s.reckoner && s.central then
    let active := s.running .active
    let total := 32 * s.budgetW - 128 * (s.running .routeOnly).length
    let shares := fairShares (active.length + 1) total (active.map (fun p => (p, demand (s.die p))))
    shares.foldl (fun s e => s.modDie e.1 (fun d => setHolding (if throttled d then min (holding d) e.2 else e.2) d)) (s.modDies (s.running .routeOnly) (setHolding 128))
  else s

/-! ## Buckets (R424) -/

/-- `UNITS` of a job's bucket. -/
def bucket (d : Die) (j : Nat) : Int := signedOf 32 (d.reg (talJob j + 0x1C))
/-- The bucket stored. -/
def setBucket (j : Nat) (v : Int) (d : Die) : Die := d.setReg (talJob j + 0x1C) (wrapInt 32 v)

/-- A job contends: it has a share, and a thread that waits on its bucket. -/
def contends (d : Die) (j : Nat) : Bool :=
  decide (bucket d j < 0) && decide (d.get ⟨talJob j + 0x18, 7, 0⟩ ≠ 0) &&
    d.threads.any (fun e => decide (e.2.st = .waitQueue) && decide ((d.threadJob (BitVec.ofNat 11 e.1)).toNat = j))

/-- BUCKET_REFILL: every 100 ticks. -/
def dieBucketRefill (d : Die) : Die :=
  if d.classes || decide (d.run ≠ .active) then d
  else
    let jobs := List.range 16
    let who := jobs.filter (contends d)
    let units := (jobs.map (fun j => tabGet (fun _ => 0) d.used j)).sum
    let shares := (who.map (fun j => d.get ⟨talJob j + 0x18, 7, 0⟩)).sum
    let refill (d' : Die) (j : Nat) : Die :=
      if who.isEmpty then (if bucket d' j < 0 then setBucket j 0 d' else d')
      else if who.contains j then
        setBucket j (min 65536 (bucket d' j + (units * d.get ⟨talJob j + 0x18, 7, 0⟩ / shares : Nat))) d'
      else d'
    settle { jobs.foldl refill d with used := [] }

end Sys2Proof.Machine
end

