-- ==== Sys2Proof/Machine/DieReset.lean ====
section
/-! DEFINITION. What switching a die on or off and a partition reset do to it, chapter by chapter, and the
lives of logical dies (R46, R47, R199, R442). -/

namespace Sys2Proof.Machine

/-! ## The parts of a partition reset at a die (R442, steps 2 and 3) -/

/-- The accumulator file is cleared, with the flags and integer marks of its tiles (R119). -/
def accClear (d : Die) : Die := { d.resetRegs 0x10008 0x1001C with acc := [] }

/-- The array and the accumulator file (R119); the drain generator resets with them (R151). -/
def arrReset (d : Die) : Die :=
  let d := ((accClear d).resetRegs 0x10028 0x10034).resetRegs 0x10040 0x10050
  { d.put ⟨0x10000, 0, 0⟩ 0 with
    ramp := 16, admitted := [], stallFrom := d.reg48 0x10020, swapsHeld := 0, genWrites := [] }

/-- The scratchpad is cleared (R175), the vector registers with it, and the `SPD_`, `DMA_`, `SEQ_` and
`VEC_` registers return to After reset (R151, R193): the clearing pass begins. -/
def blockReset (d : Die) : Die :=
  { d.resetRegs 0x20000 0x50000 with spd := [], spdMarks := [], spdWb := none, vregs := [] }

/-- Every thread is FREE, and every outstanding op is abandoned without signalling (R166). -/
def seqReset (d : Die) : Die :=
  { d with threads := [], ops := [], lastIssued := 0x7FF, progLoad := none, accOut := [], used := [] }

/-- What a partition reset leaves of a word of the rod table (R196, R222): `WORLD` and `JOB` of word 0, the RW
words, and nothing of the places in use. -/
def rodKeep (off v : Nat) : Nat :=
  let k := off % 32 / 4
  if k = 0 then v &&& 0xF4 else if k < 4 then v else 0

/-- Rods CLOSED and empty, credit cache and sends cleared (R222, R224). -/
def rodReset (d : Die) : Die :=
  let d := ((d.resetRegs 0x50000 0x50010).resetRegs 0x50020 0x50100).resetRegs 0x50224 0x60000
  let d := (d.regs.filter (fun e => decide (0x100000 ≤ e.1))).foldl
    (fun d e => d.setReg e.1 (rodKeep e.1 e.2.toNat)) d
  { d with rods := [], handles := [], ccWorld := [] }

/-- Stage tallies return to 0 (R246); buckets are cleared (R436). -/
def talReset (d : Die) : Die :=
  let d := (List.range 4).foldl (fun d t => d.resetRegs (0xA8004 + 0x40 * t) (0xA8040 + 0x40 * t)) d
  (List.range 16).foldl (fun d j => d.setReg (talJob j + 0x1C) 0) d

/-- `STOP_REQ`, `PAUSE` and `EVAL_VALID` of every job, and `NOTIFY` of every binding (R386, R436). -/
def ctlReset (d : Die) : Die :=
  let d := (List.range 16).foldl (fun d j =>
    let o := 0x300 + 4 * j
    if d.reg o = 0 then d else (d.put ⟨o, 1, 0⟩ 0).put ⟨o, 16, 16⟩ 0) d
  (List.range 4).foldl (fun d b => d.put ⟨inputReg b, 15, 15⟩ 0) d

/-- The Lehr stops (R459). -/
def lehrStop (d : Die) : Die :=
  { d.put ⟨0xE0010, 0, 0⟩ 0 with lehrWant := [], lhrGo := false, lehrSent := [], lehrOut := [] }

/-- A partition reset at an active die. The ledger decides last, as its first action after the reset
(R272). A halt is over (R52). -/
def resetDie (d : Die) : Die :=
  let d := ctlReset (talReset (verReset (rodReset (arrReset (blockReset (seqReset d))))))
  redReset { lehrStop d with thermHalt := false }

/-! ## Lives (R199) -/

/-- The life of a logical die. -/
def State.life (s : State) (l : Nat) : Nat := (tabGet (fun _ => (0 : BitVec 4)) s.lives l).toNat

/-- Every rod of a die takes the epoch (life, 0). -/
def takeLife (life : Nat) (d : Die) : Die :=
  (d.regs.filter (fun e => decide (0x100000 ≤ e.1) && decide (e.1 % 32 = 0))).foldl
    (fun d e => d.put ⟨e.1, 27, 16⟩ 0) (d.put ⟨0x5001C, 3, 0⟩ life)

/-- A logical die's life advances, and the die that holds the number takes it. -/
def advanceLife (l : Nat) (s : State) : State :=
  let v := (s.life l + 1) % 16
  let s := { s with lives := tabSet (fun _ => 0) s.lives l (BitVec.ofNat 4 v) }
  match s.physOf l with
  | some p => s.modDie p (takeLife v)
  | none => s

/-! ## Switching (R46, R47) -/

/-- A die whose domain is off: its LPDDR, its last test and temperature, the wires to it and its health
history are all that is left. -/
def offDie (d : Die) : Die :=
  { die0 d.phys with
    routerOk := d.routerOk, lpddr := d.lpddr, lpMarks := d.lpMarks, junction := d.junction,
    clamp := d.clamp, wdogAt := d.wdogAt, haltAt := d.haltAt, rowPace := d.rowPace,
    clkLost := d.clkLost, object := d.object,
    unsent := d.unsent || !d.lehrSent.isEmpty || d.lehrOut.any (·.journal) }

/-- A die whose domain is switched on: After reset registers, its setpoint, and the clearing pass of R175. -/
def onDie (r : DieRun) (mv : Nat) (d : Die) : Die := { offDie d with run := r }.put ⟨0xB000C, 9, 0⟩ mv

/-- Words of a route table of ROUTES (R65) as register words from `base`; 0 words are left out. -/
def routeWords (img : Bytes) (w base : Nat) : List (Nat × Nat) :=
  match imageSection img 4 with
  | none => []
  | some (o, _) => (List.range 1024).filterMap (fun i =>
      let v := natAt img (o + 4096 * w + 4 * i) 4
      if v = 0 then none else some (base + 4 * i, v))

/-- What the Punty die writes into a die at every switch-on: the package number, the origin table, and on the
dies that R18 names the route table and the number of the port (R307, R334). -/
def furnish (s : State) (d : Die) : Die :=
  let d := { d with pkg := BitVec.ofNat 12 s.package }
  let d := (routeWords s.image 0 0xD2000).foldl (fun d e => d.setReg e.1 e.2) d
  match portOfDie d.phys with
  | none => d
  | some n => (routeWords s.image n 0xD1000).foldl (fun d e => d.setReg e.1 e.2)
      (d.put ⟨0xD0000, 19, 16⟩ (n + 8))

/-- Die `p` is switched on in a run state. -/
def powerOn (r : DieRun) (mv p : Nat) (s : State) : State :=
  s.modDie p (fun d => furnish s (onDie r mv d))

/-- A controller has initialised and trained its channels; `refresh`: its memory is in self-refresh (R20,
R71). -/
def mcReady (refresh : Bool) (d : Die) : Die :=
  let st (b : Nat) (d : Die) : Die := (d.put ⟨b, 0, 0⟩ 1).put ⟨b, 1, 1⟩ (bit refresh)
  st 0x80000 (st 0x70000 d)

/-- The region table that the always-on domain keeps for a logical die (R286). -/
def giveRegions (s : State) (l : Nat) (d : Die) : Die :=
  (List.range 128).foldl (fun d i => d.setReg (0xC1000 + 4 * i)
    (tabGet (fun _ => (0 : Word32)) s.regions (128 * l + i)).toNat) d

/-- A physical die takes a logical number: its number, package and world, its region table, the mode of its
partition, and the life (R8, R286, R388). The life has advanced already. -/
def bindDie (l p : Nat) (s : State) : State :=
  let s := { s with binds := tabSet (fun _ => none) s.binds l (some p) }
  let classes := match s.rowPart (p / 9) with
    | some q => s.flag (0x100 + 4 * q) 16
    | none => false
  s.modDie p (fun d =>
    let d := { d with pkg := BitVec.ofNat 12 s.package, logical := BitVec.ofNat 7 l, classes := classes }
    takeLife (s.life l) (giveRegions s l (d.put ⟨0xC0000, 0, 0⟩ (bit (s.dieWorld l)))))

/-- A logical number loses its die. -/
def unbind (l : Nat) (s : State) : State :=
  let s := match s.physOf l with
    | some p => s.modDie p (fun d => { d with logical := 0x7F })
    | none => s
  { s with binds := tabSet (fun _ => none) s.binds l none }

/-- The logical number that a physical die holds. -/
def State.logicalOf (s : State) (p : Nat) : Option Nat :=
  (List.range 64).find? (fun l => decide (s.physOf l = some p))

/-- Row `n` is degraded: its logical dies are unbound (R70). -/
def degradeRow (n : Nat) (s : State) : State :=
  (rowLogical n).foldl (fun s l => unbind l s) (s.put ⟨0x44, n, n⟩ 1)

end Sys2Proof.Machine
end

