-- ==== Sys2Proof/Machine/Crucible.lean ====
section
/-! DEFINITION. The Crucible: worlds (R388 to R391), keys (R392 to R396), the check of a critical command
(R397 to R402), attestation (R405 to R407) and debug levels (R408). -/

namespace Sys2Proof.Machine

/-! ## Keys (R392 to R395) -/

/-- 4 little-endian bytes. -/
def le32 (v : Nat) : Bytes := leBytes 4 v

/-- Wrapping key KW from the recovery key (R394). -/
def wrapKey (kRec : Bytes) : Bytes := kmac256 kRec [] 32 (ascii "TUZESHA-WRAP")

/-- Command master key KM that a KEYS section carries (R394, R395). -/
def masterKey (kRec sec : Bytes) : Bytes :=
  xorB (sliceB sec 96 32) (kmac256 (wrapKey kRec) (sliceB sec 80 16) 32 (ascii "TUZESHA-WRAP-ENC"))

/-- The wrap tag of a KEYS section verifies (R395). -/
def wrapOk (kRec sec : Bytes) : Bool :=
  decide (kmac256 (wrapKey kRec) (sliceB sec 80 48) 16 (ascii "TUZESHA-WRAP-TAG") = sliceB sec 128 16)

/-- `CRU_KEYVER`k. -/
def State.keyVer (s : State) (k : Nat) : Nat := s.reg (0x30020 + 4 * k)

/-- A command key: K_p for k = p, K_dev for k = 8 (R394). -/
def State.commandKey (s : State) (km : Bytes) (k : Nat) : Bytes :=
  kmac256 km (leBytes 1 (if k = 8 then 0xFF else k) ++ le32 (s.keyVer k)) 32 (ascii "TUZESHA-CMDKEY")

/-- `PROVISIONED`. -/
def State.provisioned (s : State) : Bool := s.crucible.otp.isSome

/-- `KEYS_VALID`. -/
def State.keysValid (s : State) : Bool := s.flag 0x30000 1

/-- `DEBUG_LEVEL`. -/
def State.debugLevel (s : State) : Nat := s.get ⟨0x30000, 3, 2⟩

/-- The three seeds of the attestation key (R394). -/
def attSeeds : Bytes × Bytes × Bytes :=
  (kmac256 Config.deviceRootKey [] 32 (ascii "TUZESHA-ATT-SK"),
    kmac256 Config.deviceRootKey [] 32 (ascii "TUZESHA-ATT-PRF"),
    kmac256 Config.deviceRootKey [] 32 (ascii "TUZESHA-ATT-PUB"))

/-- A start of the Crucible domain (R409): every field but the key versions returns to After reset, the
keys are not held, no index is held (R407), and a new session begins with a fresh nonce (R54). -/
def cruStart (s : State) : State :=
  let nonce := (Config.entropy s.free).toNat
  let s := { s with
    free := s.free + 1,
    crucible := { s.crucible with km := none, streams := [], attNext := 0, attEnd := 0 } }
  let s := s.resetRegs 0x30000 0x30020
  (List.range 4).foldl (fun s k => s.setReg (0x10 + 4 * k) (bitsOf nonce (32 * k + 31) (32 * k))) s

/-- The Crucible takes KM from the KEYS section of an image, and on a cold start its versions (R395, R396);
none: the wrap tag differs. -/
def takeKeys (img : Bytes) (cold : Bool) (s : State) : Option State :=
  let sec := sectionBytes img 8
  match s.crucible.otp with
  | none => none
  | some (_, kRec) =>
    if wrapOk kRec sec then
      let s := { s with crucible := { s.crucible with km := some (masterKey kRec sec) } }
      let s := s.put ⟨0x30000, 1, 1⟩ 1
      some (if cold then
        (List.range 9).foldl (fun s k => s.setReg (0x30020 + 4 * k) (natAt sec (144 + 4 * k) 4)) s
      else s)
    else none

/-! ## The check of a critical command (R397, R398, R401) -/

/-- The bytes from `o` to `o + n` are zero. -/
def zeroAt (bs : Bytes) (o n : Nat) : Bool := (sliceB bs o n).all (fun b => decide (b = 0))

/-- The length and the reserved fields of a payload (R393, R401, R402, R418, R455). -/
def payloadOk (opcode : Nat) (p : Bytes) : Bool :=
  let n := p.length
  match opcode with
  | 0x0101 | 0x0103 | 0x0104 => decide (n = 8) && decide (1 ≤ natAt p 0 1) && decide (natAt p 0 1 < 16) && zeroAt p 1 7
  | 0x0102 => decide (n = 8) && decide (1 ≤ natAt p 0 1) && decide (natAt p 0 1 < 16) && decide (natAt p 1 1 ≤ 1) && zeroAt p 2 2 &&
      (decide (natAt p 1 1 = 0) || zeroAt p 4 4)
  | 0x0105 =>
    let e := natAt p 2 2
    decide (1 ≤ e) && decide (e ≤ 4090) && decide (n = 32 + 16 * e) && decide (1 ≤ natAt p 0 1) &&
      decide (natAt p 0 1 < 16) && decide (natAt p 1 1 ≤ 1) && zeroAt p 6 2 && zeroAt p 14 2 &&
      decide (natAt p 20 4 < 2 ^ 18) && zeroAt p 24 8 &&
      (List.range e).all (fun i =>
        let o := 32 + 16 * i
        decide (natAt p o 1 < 64) && decide (natAt p (o + 1) 2 < 2 ^ 12) &&
          decide (bitsOf (natAt p (o + 1) 2) 10 0 < 1536) && zeroAt p (o + 3) 1 &&
          !bitOf (natAt p (o + 4) 4) 0 && decide (natAt p (o + 4) 4 < 2 ^ 11) && decide (natAt p (o + 8) 4 < 2 ^ 29))
  | 0x0201 | 0x0202 => decide (n = 16) && decide (natAt p 0 8 % 64 = 0) && zeroAt p 12 4 &&
      decide (natAt p 8 4 ≤ (if opcode = 0x0201 then 2 ^ 23 else 2 ^ 24))
  | 0x0203 => decide (n = 32) && zeroAt p 2 2 && zeroAt p 13 1 && decide (natAt p 14 2 < 2 ^ 9) &&
      decide (natAt p 16 8 < 2 ^ 36) && decide (natAt p 24 1 < 4) && zeroAt p 25 7
  | 0x0204 => decide (n = 520) && decide (natAt p 0 1 < 64) && zeroAt p 1 7 &&
      (List.range 64).all (fun k =>
        !bitOf (natAt p (8 + 8 * k) 4) 15 && decide (natAt p (12 + 8 * k) 4 < 2 ^ 14))
  | 0x0205 => decide (n = 20) && decide (natAt p 0 1 < 8) && zeroAt p 1 1
  | 0x0206 => decide (n = 8) && (decide (natAt p 0 1 < 8) || decide (natAt p 0 1 = 0xFF)) && zeroAt p 1 3
  | 0x0207 => decide (n = 24) && decide (natAt p 0 1 < 3) && zeroAt p 1 7
  | 0x0210 => decide (n = 100)
  | 0x0301 => decide (n = 32) && decide (1 ≤ natAt p 0 1) && decide (natAt p 0 1 < 16) &&
      decide (1 ≤ natAt p 1 1) && decide (natAt p 1 1 ≤ 2) && zeroAt p 2 2 && decide (natAt p 4 2 < 2 ^ 12) &&
      zeroAt p 6 2 && zeroAt p 14 2 && zeroAt p 24 8 && (decide (natAt p 1 1 = 1) || zeroAt p 8 6)
  | _ => false

/-- The critical opcodes (R400). -/
def criticalOps : List Nat :=
  [0x0101, 0x0102, 0x0103, 0x0104, 0x0105, 0x0301, 0x0201, 0x0202, 0x0203, 0x0204, 0x0205, 0x0206, 0x0207]

/-- Where a packet was fetched: by a queue, with its entry's opcode, partition and cookie, or through the
boot page. -/
inductive FetchPoint where
  | queue (f q opcode partition : Nat) (cookie : BitVec 64)
  | bootPage
  deriving DecidableEq, Repr

/-- The number of a fetch point among the streams (R398). -/
def FetchPoint.index : FetchPoint → Nat
  | .queue f q _ _ _ => 4 * f + q
  | .bootPage => 36

/-- Check 1: the layout of a packet (R397). -/
def packetOk (fp : FetchPoint) (pkt : Bytes) : Bool :=
  let op := natAt pkt 0 2
  decide (64 ≤ pkt.length) && zeroAt pkt 2 1 && decide (natAt pkt 4 4 + 64 = pkt.length) &&
    decide (natAt pkt 4 4 ≤ 65472) && zeroAt pkt 40 8 &&
    (decide (natAt pkt 8 8 ≠ 0) || decide (op = 0x0210)) &&
    (match fp with
      | .queue _ _ opcode part cookie => decide (op = opcode) && decide (natAt pkt 3 1 = part) &&
          decide (natAt pkt 32 8 = cookie.toNat)
      | .bootPage => decide (natAt pkt 3 1 = 0xFF)) &&
    payloadOk op (pkt.drop 64)

/-- The key of a packet and its number among the streams; none: it is not held (check 2). -/
def State.keyFor (s : State) (op part : Nat) : Option (Nat × Bytes) :=
  if op = 0x0202 then s.crucible.otp.map (fun o => (9, o.2))
  else
    let k := if part = 0xFF then 8 else part
    match s.crucible.km with
    | some km => if s.provisioned && s.keysValid then some (k, s.commandKey km k) else none
    | none => none

/-- A failed check of the Crucible is counted (R409). -/
def cruRefused (st : Status) (s : State) : State :=
  match st with
  | .badTag => (s.count 0x30008 1).put ⟨0x30004, 0, 0⟩ 1
  | .counterReplay => (s.count 0x3000C 1).put ⟨0x30004, 1, 1⟩ 1
  | _ => s

/-- The session nonce. -/
def State.nonce (s : State) : Nat :=
  s.reg 0x10 + s.reg 0x14 <<< 32 + s.reg 0x18 <<< 64 + s.reg 0x1C <<< 96

/-- The five checks of R398: the status of the first that fails, and the stream's counter when all pass. -/
def critChk (fp : FetchPoint) (pkt : Bytes) (s : State) : Option Status × State :=
  let op := natAt pkt 0 2
  if !packetOk fp pkt then (some .malformed, s)
  else
    match s.keyFor op (natAt pkt 3 1) with
    | none => (some .invalidState, s)
    | some (k, key) =>
      let stream := 16 * fp.index + k
      let last := tabGet (fun _ => 0) s.crucible.streams stream
      let counter := natAt pkt 8 8
      if kmac256 key (sliceB pkt 0 48 ++ pkt.drop 64) 16 (ascii "TUZESHA-CMD") ≠ sliceB pkt 48 16 then
        (some .badTag, cruRefused .badTag s)
      else if natAt pkt 16 16 ≠ s.nonce ∨ counter ≤ last then
        (some .counterReplay, cruRefused .counterReplay s)
      else (none, { s with crucible :=
        { s.crucible with streams := tabSet (fun _ => 0) s.crucible.streams stream counter } })

/-! ## Worlds (R388 to R391) -/

/-- The assignment that a WORLDS section carries (R389). -/
def worldsOf (sec : Bytes) : Worlds :=
  { dies := BitVec.ofNat 64 (natAt sec 4 8), engines := BitVec.ofNat 8 (natAt sec 12 1),
    functions := BitVec.ofNat 9 (natAt sec 14 2), queues := BitVec.ofNat 36 (natAt sec 16 8),
    dbg := BitVec.ofNat 2 (natAt sec 24 1) }

/-- A WORLDS section keeps R389. -/
def worldsOk (sec : Bytes) : Bool :=
  let w := worldsOf sec
  decide (sec.length = 32) && decide (natAt sec 0 2 = 1) && payloadOk 0x0203 sec &&
    (List.range 36).all (fun i => !bitOf w.queues.toNat i || bitOf w.functions.toNat (i / 4)) &&
    (!bitOf w.dbg.toNat 1 || bitOf w.dbg.toNat 0)

/-- Bits that differ. -/
def changedBits (n x y : Nat) : List Nat := (List.range n).filter (fun i => bitOf x i != bitOf y i)

/-- The port state keeps a world from changing: UP or RETRAIN (R390). -/
def portBusy (s : State) (n : Nat) : Bool :=
  match s.carrier n with
  | some p => wlkCarries (s.die p) && (decide (wlkState (s.die p) = 2) || decide (wlkState (s.die p) = 3))
  | none => false

/-- A function has a ring that is not UNREGISTERED. -/
def ringsInUse (s : State) (f : Nat) : Bool :=
  (List.range 16).any (fun r => decide ((s.fn f).ringState r ≠ 0))

/-- A change of assignment is refused with `INVALID_STATE` (R390). -/
def worldsBusy (w : Worlds) (s : State) : Bool :=
  let v := s.worlds
  (changedBits 64 v.dies.toNat w.dies.toNat).any (fun l => (s.rowPart (l / 8)).isSome) ||
    (changedBits 8 v.engines.toNat w.engines.toNat).any (portBusy s) ||
    (changedBits 9 v.functions.toNat w.functions.toNat).any (ringsInUse s) ||
    (changedBits 36 v.queues.toNat w.queues.toNat).any (fun i => ringsInUse s (i / 4)) ||
    decide (v.dbg ≠ w.dbg)

/-- The on-die storage that a partition reset clears: scratchpad, accumulator file, vector registers. -/
def clearStorage (d : Die) : Die := { d with spd := [], spdMarks := [], spdWb := none, acc := [], vregs := [] }

/-- A die that ceases to be secure is cleared (R390), the accumulator file with its flags and marks (R119). -/
def leaveSecure (d : Die) : Die :=
  let d := { clearStorage (accClear d) with prog := [] }
  let d := (d.regs.filter (fun e => decide (0x100000 ≤ e.1) && decide (e.1 % 32 = 0))).foldl
    (fun d e => d.put ⟨e.1, 2, 2⟩ 0) d
  (d.regs.filter (fun e => inArray e.1 0x74000 32 1536 || inArray e.1 0x84000 32 1536)).foldl
    (fun d e => d.put ⟨e.1, 1, 0⟩ 0) d

/-- An accepted assignment takes effect (R390). -/
def applyWorlds (w : Worlds) (s : State) : State :=
  let change (s' : State) (l : Nat) : State :=
    match s'.physOf l with
    | none => s'
    | some p => s'.modDie p (fun d =>
        let d := if d.world then leaveSecure d else d
        d.put ⟨0xC0000, 0, 0⟩ (bit (bitOf w.dies.toNat l)))
  { (changedBits 64 s.worlds.dies.toNat w.dies.toNat).foldl change s with worlds := w }

/-- WORLD_ASSIGN (R390). -/
def worldAssign (c : CmdId) (s : State) : State :=
  s.onCmd c 0x0203 (fun x s =>
    let w := worldsOf x.payload
    if !worldsOk x.payload then answer x .malformed s
    else if worldsBusy w s then answer x .invalidState s
    else answer x .ok (applyWorlds w s))

/-! ## Keys and debug levels (R396, R408) -/

/-- KEY_ROTATE (R396). -/
def keyRotate (c : CmdId) (s : State) : State :=
  s.onCmd c 0x0206 (fun x s =>
    let t := natAt x.payload 0 1
    let k := if t = 0xFF then 8 else t
    let v := natAt x.payload 4 4
    if v ≤ s.keyVer k then answer x .invalidState s
    else
      let s := s.setReg (0x30020 + 4 * k) v
      answer x .ok { s with crucible := { s.crucible with
        streams := s.crucible.streams.filter (fun e => decide (e.1 % 16 ≠ k)) } })

/-- The secure regions of a die are written with zeros (R408). -/
def zeroSecure (d : Die) : Die :=
  (List.range 64).foldl (fun d k =>
    let lo := regionLo d k
    if bitOf lo 31 && bitOf (regionHi d k) 0 then
      let base := bitsOf lo 14 0 * 2 ^ 20
      let top := base + (bitsOf lo 30 16 + 1) * 2 ^ 20
      { d with lpddr := tabDrop d.lpddr base top, lpMarks := tabDrop d.lpMarks (base / 32) (top / 32) }
    else d) d

/-- The on-die storage of a secure die written with zeros (R408): scratchpad, accumulator file, vector registers
and program store. -/
def zeroStorage (d : Die) : Die :=
  { clearStorage (accClear d) with prog := tabPut noOp [] 0 (List.replicate 131072 0) }

/-- What debug level 2 does before it takes effect (R408). -/
def debugZero (s : State) : State :=
  s.modDies (List.range 72) (fun d =>
    let d := zeroSecure d
    if d.world then zeroStorage d else d)

/-- DEBUG_UNLOCK (R408). -/
def debugUnlock (c : CmdId) (s : State) : State :=
  s.onCmd c 0x0207 (fun x s =>
    let level := natAt x.payload 0 1
    let allowed := decide (level = 0) || (decide (level = 1) && s.worlds.dbg.getLsbD 0) ||
      (decide (level = 2) && s.worlds.dbg.getLsbD 1)
    let running := (List.range 16).any (fun j => decide (s.jobState j = 2))
    if natAt x.payload 8 16 ≠ Config.deviceId.toNat then answer x .malformed s
    else if !allowed || decide (level < s.debugLevel) || (decide (level = 2) && running) then
      answer x .invalidState s
    else
      let s := if level = 2 ∧ s.debugLevel ≠ 2 then debugZero s else s
      answer x .ok (s.put ⟨0x30000, 3, 2⟩ level))

/-! ## Attestation (R405 to R407) -/

/-- Start of the reservation area in the SPI NOR (R60). -/
def attArea : Nat := 0x1F00000
/-- What a byte of the SPI NOR reads before anything is programmed (log 5). -/
def norFree : Nat → Byte := fun _ => 0xFF

/-- A reservation record as the NOR holds it, if it is valid: `seq` and `limit` (R407). -/
def attRecord (nor : List Host.Cell) (i : Nat) : Option (Nat × Nat) :=
  let r := tabSlice norFree nor (attArea + 32 * i) 32
  if natAt r 0 4 = 0x58415A54 ∧ zeroAt r 16 12 ∧ (crc32 (sliceB r 0 28)).toNat = natAt r 28 4 then
    some (natAt r 4 4, natAt r 8 8)
  else none

/-- The current record: `seq` and `limit`; with none −1, here 2^32 − 1, and 0 (R407). -/
def attCurrent (nor : List Host.Cell) : Nat × Nat :=
  (((List.range 32768).filterMap (attRecord nor)).foldl
    (fun m r => match m with
      | some x => if x.1 < r.1 then some r else some x
      | none => some r) none).getD (2 ^ 32 - 1, 0)

/-- A block of 1,024 indices is reserved (R407); `ok`: the record reads back valid within three tries. -/
def attReserve (ok : Bool) (s : State) : Option State :=
  let (seq, limit) := attCurrent s.nor
  if 2 ^ 40 < limit + 1024 || !ok then none
  else
    let seq := (seq + 1) % 2 ^ 32
    let body := le32 0x58415A54 ++ le32 seq ++ leBytes 8 (limit + 1024) ++ leBytes 12 0
    let at_ := attArea + 32 * (seq % 32768)
    let nor := if seq % 128 = 0 then tabDrop s.nor at_ (at_ + 4096) else s.nor
    some { s with
      nor := tabPut norFree nor at_ (body ++ le32 (crc32 body).toNat),
      crucible := { s.crucible with attNext := limit, attEnd := limit + 1024 } }

/-- The report of R406. -/
def attReport (s : State) (challenge : Bytes) (index : Nat) : Bytes :=
  let unlisted := (List.range 8).any (fun k => s.flag (bayReg k) 10)
  le32 0x52415A54 ++ leBytes 2 1 ++
    leBytes 2 (s.debugLevel + bit unlisted <<< 2 + bit (s.flag 0 4) <<< 3) ++ leBytes 2 s.package ++
    leBytes 6 0 ++ leBytes 16 Config.deviceId.toNat ++ leBytes 16 s.nonce ++ sliceB challenge 0 32 ++
    sliceB s.imageDigest 0 32 ++ sliceB s.fwDigest 0 32 ++ le32 (s.reg 8) ++ le32 (natAt s.firmware 8 4) ++
    le32 (s.reg 4) ++ (List.range 9).flatMap (fun k => le32 (s.keyVer k)) ++
    leBytes 8 s.worlds.dies.toNat ++ leBytes 1 s.worlds.engines.toNat ++ leBytes 1 0 ++
    leBytes 2 s.worlds.functions.toNat ++ leBytes 4 0 ++ leBytes 8 index ++ leBytes 40 0

/-- `CRU_ATT_NEXT` and `ATT_READY` follow the indices in hand (R409). -/
def attShow (s : State) : State :=
  ((s.setReg 0x30018 (s.crucible.attNext % 2 ^ 32)).setReg 0x3001C (s.crucible.attNext / 2 ^ 32)).put
    ⟨0x30000, 4, 4⟩ (bit (decide (s.crucible.attNext < s.crucible.attEnd)))

/-- ATTEST (R405 to R407). -/
def attest (c : CmdId) (writeOk : Bool) (s : State) : State :=
  s.onCmd c 0x0220 (fun x s =>
    match if s.crucible.attNext < s.crucible.attEnd then some s else attReserve writeOk s with
    | none => answer x .resourceExhausted (s.put ⟨0x30004, 2, 2⟩ 1)
    | some s =>
      let i := s.crucible.attNext
      let report := attReport s x.payload i
      let (sk, prf, pub) := attSeeds
      let sig := xmssmtSign sk prf pub i report
      finish x .ok (report ++ sig) 0
        (attShow { s with crucible := { s.crucible with attNext := i + 1 } }))

/-- ATTEST_PUBKEY (R405). -/
def attestPubkey (c : CmdId) (s : State) : State :=
  s.onCmd c 0x0221 (fun x s =>
    let (sk, _, pub) := attSeeds
    let root := xmssmtRoot sk pub
    let owner := match s.crucible.otp with
      | some o => sliceB o.1 0 68
      | none => leBytes 68 0
    finish x .ok (le32 oidXmssmt ++ root ++ pub ++ owner) 0 s)

/-- ATTEST_CERT (R405). -/
def attestCert (c : CmdId) (s : State) : State :=
  s.onCmd c 0x0222 (fun x s => finish x .ok (sliceB Config.factoryCertificate 0 2820) 0 s)

/-! ## Regions and modules (R291, R346) -/

/-- REGION_SET (R291): the die's whole table, kept for its logical number (R286). -/
def regionSet (c : CmdId) (s : State) : State :=
  s.onCmd c 0x0204 (fun x s =>
    let l := natAt x.payload 0 1
    let t := tableOf (x.payload.drop 8)
    let used := match s.rowPart (l / 8) with
      | some p => (s.partJobs p).any (fun j => decide (s.jobState j = 2))
      | none => false
    if !tableOk t then answer x .malformed s
    else if used then answer x .invalidState s
    else
      let kept := t.zipIdx.foldl (fun r e =>
        tabSet (fun _ => (0 : Word32)) (tabSet (fun _ => (0 : Word32)) r (128 * l + 2 * e.2)
          (BitVec.ofNat 32 e.1.1)) (128 * l + 2 * e.2 + 1) (BitVec.ofNat 32 e.1.2)) s.regions
      let s := { s with regions := kept }
      answer x .ok (match s.physOf l with
        | some p => s.modDie p (setTable t)
        | none => s))

/-- ELS_ACCEPT (R346). -/
def elsAccept (c : CmdId) (s : State) : State :=
  s.onCmd c 0x0205 (fun x s =>
    answer x .ok (elsAcceptModule (natAt x.payload 0 1) (natAt x.payload 2 2) (sliceB x.payload 4 16) s))

end Sys2Proof.Machine
end

