-- ==== Sys2Proof/Machine/Reset.lean ====
section
/-! DEFINITION. Triggers, the partition reset, retirement and the start of a device reset (R80, R419, R438 to
R445), with the events that trigger them (R49, R52). -/

namespace Sys2Proof.Machine

/-! ## Jobs under a reset (R419) -/

/-- The job that a command's critical payload names (R418, R455). -/
def Cmd.payloadJob (c : Cmd) : Nat := natAt c.payload 0 1
/-- The job that a command's `IMM` names (R416, R418). -/
def Cmd.immJob (c : Cmd) : Nat := bitsOf c.imm.toNat 3 0

/-- Commands in progress that satisfy a test end with a status. -/
def endCmds (who : Cmd → Bool) (st : Status) (s : State) : State :=
  (s.cmds.filter who).foldl (fun s c => answer c st s) s

/-- The JOB_STOP DRAIN of a job. -/
def isDrain (j : Nat) (c : Cmd) : Bool :=
  decide (c.opcode = 0x0102) && decide (natAt c.payload 1 1 = 0) && c.begun && decide (c.payloadJob = j)

/-- A running evaluation ends (R427, R428): a host command is answered, an automatic run leaves a status that is
not `OK` in `CAUSE`. -/
def endEval (j : Nat) (st : Status) (s : State) : State :=
  match (s.job j).eval with
  | none => s
  | some e =>
    let s := s.modJob j (fun i => { i with eval := none })
    match e.cmd with
    | some c =>
      (match s.cmd? c with
        | some x => answer x st s
        | none => s)
    | none => if st = .ok then s else s.setJobCause j st

/-- KERNEL_SUBMITs that run when their threads are abandoned: R426 completes them and no rule gives their
status, a free value. -/
def endKernels (j : Nat) (s : State) : State :=
  (s.cmds.filter (fun c => decide (c.opcode = 0x010C) && c.begun && decide (c.die < 64) &&
    decide (c.immJob = j))).foldl
    (fun s c =>
      let (v, s) := s.draw
      answer c ((statusOf (v.toNat % 16)).getD .ok) s) s

/-- A RESTORE that runs ends with the reset; no rule gives its status, a free value. -/
def endRestores (j : Nat) (s : State) : State :=
  (s.cmds.filter (fun c => decide (c.opcode = 0x0301) && c.begun && decide (c.payloadJob = j))).foldl
    (fun s c =>
      let (v, s) := s.draw
      answer c ((statusOf (v.toNat % 16)).getD .ok) s) s

/-- What a partition reset does to a job (R419, R427): RUNNING and PAUSED become FAULTED, DRAINING becomes
LOADED, pins and a running evaluation end. -/
def resetJob (s : State) (j : Nat) : State :=
  let s := endRestores j (endKernels j (endEval j .poisoned s))
  let s := s.modJob j (fun i => { i with
    parisons := [], evalWait := none, evalPins := [], stopPause := false, restoring := 0 })
  let st := s.jobState j
  if st = 2 ∨ st = 3 then s.setJobState j 5
  else if st = 4 then endCmds (isDrain j) .ok (s.setJobState j 1)
  else s

/-! ## Triggers (R440, R441) -/

/-- `MGT_RECOVERY_LAST`. -/
def record (code part : Nat) (device : Bool) (p : Option Nat) (s : State) : State :=
  s.setReg 0x204 (code + part <<< 8 + bit device <<< 11 + (p.getD 0x7F) <<< 12)

/-- The digests that the device keeps still match (R80, step 3; R404). -/
def retainedOk (s : State) : Bool :=
  decide (shake256 (sliceB s.image 0 (natAt s.image 0x14 4)) = s.imageDigest) &&
    decide (shake256 (sliceB s.firmware 0 (64 + natAt s.firmware 12 4)) = s.fwDigest)

/-- The boot ends in HALTED (R55). -/
def halt (st : Status) (step : Nat) (s : State) : State :=
  (((s.setBoot 9).put ⟨0x0, 15, 8⟩ st.code).put ⟨0x0, 19, 16⟩ step)

/-- Steps 1 to 3 of a device reset (R80): dies and engines off, the management and Crucible domains reset, a
new session, the retained copies checked again. The jobs stand as after a partition reset (R419, R450). -/
def deviceReset (code part : Nat) (p : Option Nat) (s : State) : State :=
  let s := record code part true p s
  let recovering := if 7 ≤ code ∧ code ≤ 10 ∧ code ≠ 8 then s.partJobs part else []
  let s := recovering.foldl (fun s j =>
    s.modJob j (fun i => { i with resets := i.resets ++ [s.mgtclk.toNat] })) s
  -- the commands in progress end later, with `TIMEOUT` (R383)
  let s := { (List.range 16).foldl resetJob { s with cmds := [] } with cmds := s.cmds }
  let s := ((s.setBoot 0xA).put ⟨0x0, 4, 4⟩ 1).put ⟨0x4, 31, 16⟩ (min (s.get ⟨0x4, 31, 16⟩ + 1) 0xFFFF)
  let s := s.modDies (List.range 72) offDie
  let s := { s with
    engines := (s.engines.filter (fun e : Nat × Engine => decide (e.2.rate ≠ 0))).map (fun e : Nat × Engine => (e.1, ({ rate := e.2.rate } : Engine))),
    cmds := s.cmds.filter (fun c => !c.boot) }
  let s := (s.resetRegs 0x48 0x4C).put ⟨0x2C, 8, 8⟩ 0
  let s := cruStart (imagePower (s.resetRegs 0x10000 0x10100))
  if retainedOk s then
    match takeKeys s.image false s with
    | some s => s
    | none => halt .unverified 0xA s
  else halt .unverified 0xA s

/-- The dies of a partition that are active. -/
def State.partActive (s : State) (part : Nat) : List Nat :=
  (s.partPhys part).filter (fun p => decide ((s.die p).run = .active))

/-- Step 1 of a partition reset (R442): RESETTING, the lives of its logical dies advance, held tally beads go. At
once the dies stop issue, abandon every thread and op, and begin the clearing pass of step 3 (R175), which
SCRATCHPAD_CLEAR or the end of the reset finishes (log 57). -/
def beginReset (part : Nat) (s : State) : State :=
  let s := s.put ⟨0x100 + 4 * part, 1, 0⟩ 2
  let s := (s.partLogical part).foldl (fun s l => advanceLife l s) s
  let s := (s.partPhys part).foldl (fun s p => releaseTallies p s) s
  s.modDies (s.partActive part) (fun d => blockReset (seqReset d))

/-- Row n's clock is lost. -/
def State.rowLost (s : State) (n : Nat) : Bool := (s.row n).clkLost

/-- A trigger names a partition (R440, R441): a second one while it is being reset escalates. A reset that waits
for a row clock is exempt. -/
def triggerPart (code part : Nat) (p : Option Nat) (s : State) : State :=
  match s.partState part with
  | 1 => beginReset part (record code part false p s)
  | 2 => if (s.partRows part).any s.rowLost then record code part false p s else deviceReset 7 part p s
  | _ => record code 0 false p s

/-- A trigger of a die: its partition is reset; a die of no formed partition is only recorded (R440). -/
def triggerDie (code p : Nat) (s : State) : State :=
  match s.rowPart (p / 9) with
  | some part => triggerPart code part (some p) s
  | none => record code 0 false (some p) s

/-! ## Retirement (R444) -/

/-- The spare that may take a place in a row: the route-only die that has none. -/
def State.spareOf (s : State) (n : Nat) : Option Nat :=
  (rowPhys n).find? (fun p => decide (s.dieState p = 1) && decide ((s.die p).run = .routeOnly))

/-- The memory of a die that leaves the snake is in self-refresh, where its channels are trained (R20, R303). -/
def mcAside (old d : Die) : Die :=
  [0x70000, 0x80000].foldl (fun d b => if old.flag b 0 then d.put ⟨b, 1, 0⟩ 3 else d) d

/-- A die leaves the snake: route-only if its router passed its last test, else off (R20, R69). -/
def putDown (p : Nat) (s : State) : State :=
  if (s.die p).routerOk then
    (powerOn .routeOnly (s.currentMv (p / 9)) p (s.setDieState p 2)).modDie p (mcAside (s.die p))
  else (s.setDieState p 3).modDie p offDie

/-- The port block of an alternate die starts without history, its own lanes in service and its module active; it
runs a link reset, unless the port's role or `DISABLE` keeps it OFF (R326, R331). -/
def takeOver (role : Nat) (narrow : Bool) (d : Die) : Die :=
  let d := modWlk (fun _ => { narrow := narrow }) ((d.put ⟨0xD0000, 3, 3⟩ 1).put ⟨0xD0000, 7, 7⟩ 1)
  wlkEvent 5 (if role = 0 ∨ d.flag 0xD0004 1 then d else startReset (setTxLanes 0 d))

/-- Port `n` moves from the lost die `p`, its primary, to the alternate die, where the alternate module has
trained (R331). -/
def coldFailover (p n : Nat) (narrow : Bool) (s : State) : State :=
  let q := (portDies n).2
  if decide ((portDies n).1 = p) && decide ((s.die q).run = .active) && (s.engine n).on && (s.engine n).alternateOk then
    (s.modDie q (takeOver (s.role n) narrow)).put ⟨0x48, 4 * n + 3, 4 * n + 3⟩ 1
  else s

/-- A running die leaves the snake: the port that it carried moves (R331), and the routes are written again, since
its router may have gone and its number leads nowhere (R216, R217). -/
def putAside (p : Nat) (s : State) : State :=
  let old := s.die p
  let s := putDown p s
  let s := match if wlkCarries old then portOfDie p else none with
    | some n => coldFailover p n old.wlk.narrow s
    | none => s
  writeRoutes s

/-- The row cannot be repaired: it is degraded, and the jobs of its partition are FAULTED (R444). -/
def loseRow (n : Nat) (s : State) : State :=
  let s := degradeRow n s
  match s.rowPart n with
  | none => s
  | some part => (s.partJobs part).foldl (fun s j => (s.setJobState j 5).setJobCause j .resourceExhausted) s

/-- A die is retired (R444): it waits for sparing, or its row is degraded. One whose router does not forward
needs a device reset (R441, ROUTE). -/
def retire (p : Nat) (s : State) : State :=
  if s.retired.contains p then s
  else
    let s := { s with retired := s.retired ++ [p] }
    match s.logicalOf p with
    | none => putAside p s
    | some _ =>
      if (s.spareOf (p / 9)).isNone then putAside p (loseRow (p / 9) s)
      else
        let s := { s with sparing := s.sparing ++ [p] }
        if (s.die p).routerOk then s
        else deviceReset 9 ((s.rowPart (p / 9)).getD 0) (some p) s

/-- Times within an interval that ends now. -/
def recent (s : State) (ns : Nat) (ts : List Nat) : Nat :=
  (ts.filter (fun t => decide (s.mgtclk.toNat < t + ns))).length

/-- MGTCLK ticks of an hour (R48). -/
def hour : Nat := 3600 * 25000000

/-- Uncorrectable errors of a die's controllers (R444). -/
def ueCount (d : Die) : Nat := d.reg 0x70014 + d.reg 0x80014

/-- The patrol period of a die begins or goes on (R285, R444). -/
def patrolNow (d : Die) : Die :=
  let k := d.rrc.toNat / 2 ^ 43
  if d.patrol.1 = k then d else { d with patrol := (k, ueCount d) }

/-- A die meets a retirement condition of R444 other than its own lateness. -/
def worn (s : State) (p : Nat) : Bool :=
  let d := patrolNow (s.die p)
  decide (3 ≤ recent s hour d.wdogAt) || decide (2 ≤ recent s (24 * hour) d.haltAt) ||
    decide (d.patrol.2 + 16 ≤ ueCount d)

/-! ## Events at a die (R52, R438) -/

/-- WATCHDOG (R438): a thread of a RUNNING job that is not paused has made no progress. -/
def watchdog (p : Nat) (s : State) : State :=
  let d := s.die p
  let runs := d.threads.any (fun e =>
    let j := (d.threadJob (BitVec.ofNat 11 e.1)).toNat
    decide (e.2.st ≠ .free) && decide (j ≠ 0) && decide (s.jobState j = 2) && !paused d j)
  if decide (d.run = .active) && !d.clkLost && runs then
    let s := s.modDie p (fun d =>
      { (d.setFlag 0x404 0).event 0x400 with wdogAt := d.wdogAt ++ [s.mgtclk.toNat] })
    triggerDie 1 p s
  else s

/-- The die's junction reads a temperature (R52). -/
def sense (p : Nat) (c : BitVec 8) (s : State) : State := s.modDie p (fun d => { d with junction := c })

/-- The halt of R52: array and vector unit stop, `HALT` is raised, a partition reset is triggered. -/
def haltDie (p : Nat) (s : State) : State :=
  let s := s.modDie p (fun d =>
    { (d.setFlag 0x404 1).event 0x400 with thermHalt := true, haltAt := d.haltAt ++ [s.mgtclk.toNat] })
  triggerDie 3 p s

/-- THERMAL_HALT: the junction is at or above 110 °C. -/
def thermalHalt (p : Nat) (c : BitVec 8) (s : State) : State :=
  let s := sense p c s
  if decide ((s.die p).run = .active) && decide (110 ≤ c.toInt) && !(s.die p).thermHalt then haltDie p s else s

/-- THERMTRIP: 115 °C; THERMTRIP# stays asserted until VDD_AON is removed. -/
def thermtrip (p : Nat) (c : BitVec 8) (s : State) : State :=
  let s := thermalHalt p c s
  if 115 ≤ c.toInt then hwLimit 18 s else s

/-- THERMAL_CLAMP: 100 °C limits the die to 8 of 16 slots. -/
def thermalClamp (p : Nat) (c : BitVec 8) (s : State) : State :=
  (sense p c s).modDie p (fun d => if 100 ≤ c.toInt then { d with clamp := true } else d)

/-- THERMAL_CLAMP_RELEASE: the junction has fallen below 97 °C. -/
def thermalClampRelease (p : Nat) (c : BitVec 8) (s : State) : State :=
  (sense p c s).modDie p (fun d => if c.toInt < 97 then { d with clamp := false } else d)

/-- THERMAL_THROTTLE (R434): the die sends its throttle request at 95 °C; below 92 °C it is over. -/
def thermalThrottle (p : Nat) (c : BitVec 8) (s : State) : State :=
  (sense p c s).modDie p (fun d =>
    if 95 ≤ c.toInt then d.put ⟨0xB0008, 4, 4⟩ 1
    else if c.toInt < 92 then d.put ⟨0xB0008, 4, 4⟩ 0 else d)

/-- THROTTLE_REMOVAL (R434): one eighth of the holding goes to the pool, until the die reports below 92 °C. -/
def throttleRemoval (p : Nat) (s : State) : State :=
  let d := s.die p
  if throttled d then
    if d.junction.toInt < 92 then s.modDie p (fun d => d.put ⟨0xB0008, 4, 4⟩ 0)
    else
      let n := holding d / 8
      (s.modDie p (setHolding (holding d - n))).put ⟨0x10004, 21, 0⟩ (s.get ⟨0x10004, 21, 0⟩ + n)
  else s

/-- A die of the row holds a request. -/
def rowThrottled (s : State) (n : Nat) : Bool := (rowPhys n).any (fun p => throttled (s.die p))

/-- THROTTLE_SETPOINT_LOWER (R434): 25 mV, down to 0.55 V. -/
def throttleSetpointLower (n : Nat) (s : State) : State :=
  if s.reckoner && rowThrottled s n && decide (550 < s.currentMv n) then
    sendSetpoint n (max 550 (s.currentMv n - 25)) s
  else s

/-- THROTTLE_RECOVER (R434): the setpoint asked for is tried again under R433. -/
def throttleRecover (n pRow total : Nat) (s : State) : State :=
  if s.reckoner && !rowThrottled s n then trySetpoint n pRow total s else s

/-! ## The partition reset (R442) -/

/-- DIE_LOST for each active job of a die (R263), from the Punty die, which is secure (R388). -/
def sendLost (d : Die) (s : State) : State :=
  ((List.range 16).filter (redActive d)).foldl (fun s j =>
    puntySend (.bead (packBead { tallyBead (d.get ⟨redBase j, 27, 16⟩) (d.get ⟨redBase j + 4, 6, 0⟩) j 7 1
      (redAttempt d j) (redStep d j) with srcPkg := s.package, srcDie := 127, world := true }) []) s) s

/-- The requested setpoints of a new partition: a lowering is sent at once, a raise waits for its grant
(R413, R433). 0 keeps the POWER value. -/
def askSetpoints (c : Cmd) (s : State) : State :=
  (maskRows (bitsOf c.imm.toNat 7 0)).foldl (fun s n =>
    let b := bitsOf c.imm.toNat (23 + 8 * n) (16 + 8 * n)
    let mv := if b = 0 then s.powerMv n else 5 * b
    let s := s.put ⟨0x10010 + 4 * n, 9, 0⟩ mv
    if mv < s.currentMv n then sendSetpoint n mv s else s) s

/-- Commands that wait for the reset of a partition end with it (R413, R422, R441). -/
def resetWaiters (part : Nat) (s : State) : State :=
  (s.cmds.filter (fun c => c.begun && decide (c.partition = part))).foldl (fun s c =>
    if c.opcode = 0x0106 then answer c .ok (askSetpoints c s)
    else if c.opcode = 0x0102 ∧ natAt c.payload 1 1 = 1 then
      answer c .ok (s.setJobState c.payloadJob 1)
    else if c.opcode = 0x0303 then answer c .ok s
    else s) s

/-- Steps 2 to 5 of a partition reset, the clearing pass over. `late`: dies that have not finished step 2 within
1 ms. -/
def endReset (part : Nat) (late : List Nat) (s : State) : State :=
  let dies := s.partActive part
  let s := s.modDies dies (fun d => dieScratchpadClear (resetDie d))
  let s := dies.foldl (fun s p => sendLost (s.die p) s) s
  let s := (s.partJobs part).foldl resetJob s
  let s := (s.put ⟨0x100 + 4 * part, 1, 0⟩ 1).count 0x208 1
  let s := dealTokens (resetWaiters part s)
  let s := (dies.filter (fun p => late.contains p || worn s p)).foldl (fun s p => retire p s) s
  let hot := dies.filter (fun p => decide (110 ≤ (s.die p).junction.toInt))
  hot.foldl (fun s p => if (s.die p).run = .active then haltDie p s else s) s

/-- PARTITION_RESET (R442): the reset of a RESETTING partition ends. A row whose clock is lost waits. -/
def partitionReset (part : Nat) (late : List Nat) (s : State) : State :=
  if decide (s.partState part = 2) && s.reckoner && !(s.partRows part).any s.rowLost then endReset part late s
  else s

/-- A command resets a partition (R440, COMMAND): the whole reset, unless a row's clock is lost. -/
def commandReset (part : Nat) (s : State) : State :=
  partitionReset part [] (beginReset part (record 5 part false none s))

/-- ESCALATION (R441): the reset has not ended within 20 ms. One that waits for a row clock is exempt. -/
def escalation (part : Nat) (s : State) : State :=
  if decide (s.partState part = 2) && s.reckoner && !(s.partRows part).any s.rowLost then
    deviceReset 7 part none s
  else s

/-! ## Clocks (R49) -/

/-- REFCLK_LOSS: as host link-down, and the link stays down until the clock is back. -/
def refclkLoss (s : State) : State := { hostLinkDown s with refLost := true }

/-- ROWCLK_LOSS: the row's memory goes into self-refresh once its write queues are drained (R301), its dies halt,
`CLOCK_LOSS` is raised, and its partition is reset. During DIES and MEMORY the row is degraded (R58). -/
def rowclkLoss (n : Nat) (s : State) : State :=
  if s.rowLost n then s
  else
    let s := s.setRow n { s.row n with clkLost := true }
    let s := { s with clockEvents := s.clockEvents ++ [n] }
    let s := s.modDies (rowPhys n) (fun d =>
      let d := { drainWrites d with clkLost := true }
      if d.run = .off then d else (d.put ⟨0x70000, 1, 1⟩ 1).put ⟨0x80000, 1, 1⟩ 1)
    if s.boot = 3 ∨ s.boot = 4 then degradeRow n s
    else if s.reckoner then
      match s.rowPart n with
      | some part => triggerPart 4 part none s
      | none => record 4 0 false none s
    else s

/-- LECLK_LOSS: the port goes DOWN. -/
def leclkLoss (n : Nat) (s : State) : State :=
  match s.carrier n with
  | some p => if wlkCarries (s.die p) then s.modDie p enterDown else s
  | none => s

/-- MGTCLK_LOSS: the internal oscillator takes over, and `CLOCK_LOSS` is raised for MGTCLK. -/
def mgtclkLoss (s : State) : State :=
  if s.mgtLost then s else { s with mgtLost := true, clockEvents := s.clockEvents ++ [8] }

/-- CLOCK_RESTORED: present and in tolerance for 10 ms. The row's memory leaves self-refresh. -/
def clockRestored (c : Clock) (s : State) : State :=
  match c with
  | .row n =>
    let n := n.toNat
    if s.rowLost n then
      (s.setRow n { s.row n with clkLost := false }).modDies (rowPhys n) (fun d =>
        let d := { d with clkLost := false }
        if d.run = .active then (d.put ⟨0x70000, 1, 1⟩ 0).put ⟨0x80000, 1, 1⟩ 0 else d)
    else s
  | .mgt => { s with mgtLost := false }
  | .refclk => { s with refLost := false }
  | .le _ => s

/-! ## The Reckoner's watchdog (R439) -/

/-- RECKONER_KICK: a write of `KICK` by the Reckoner restarts the watchdog, which keeps no state here but the
command of its expiry. -/
def reckonerKick (s : State) : State := s

/-- RECKONER_WDOG: 500 ms without a kick, from FW_START onward. -/
def reckonerWdog (s : State) : State := if s.reckoner then deviceReset 8 0 none s else s

/-- RESET (R441) without `DEVICE`: a partition reset of a FORMED partition; held while one runs (R412). -/
def resetPartition (c : CmdId) (s : State) : State :=
  s.onCmd c 0x0303 (fun x s =>
    let part := bitsOf x.imm.toNat 2 0
    if x.begun || bitOf x.imm.toNat 8 || decide (s.partState part = 2) then s
    else if s.partState part ≠ 1 then answer x .invalidState s
    else commandReset part (s.modCmd c (fun y => { y with begun := true, partition := part })))

/-- RESET with `DEVICE`: a device reset. The command stays in progress, and is recorded (R383). -/
def resetDevice (c : CmdId) (s : State) : State :=
  s.onCmd c 0x0303 (fun x s =>
    if bitOf x.imm.toNat 8 then deviceReset 11 (bitsOf x.imm.toNat 2 0) none s else s)

end Sys2Proof.Machine
end

