-- ==== Sys2Proof/Machine/Lehr.lean ====
section
/-! DEFINITION. The Lehr: capture records, journal objects, parisons, the transfer of parts and exports
(R446 to R454). -/

namespace Sys2Proof.Machine

/-! ## Registers (R459) -/

/-- `STATUS` and `BUSY` of `LHR_STATUS`. -/
def lhrStatus (st : Status) (busy : Bool) (d : Die) : Die :=
  (d.put ⟨0xE0010, 15, 8⟩ st.code).put ⟨0xE0010, 0, 0⟩ (bit busy)

/-- The window of `LHR_OP`. -/
def lhrWindow (d : Die) : Nat := d.reg 0xE0008 + d.get ⟨0xE000C, 15, 0⟩ <<< 32

/-- `RECORDS` follows the capture records of the logical die. -/
def showRecords (l : Nat) (s : State) : State :=
  match s.physOf l with
  | some p => s.modDie p (fun d =>
      d.put ⟨0xE0010, 19, 16⟩ (s.captures.filter (fun c => decide (c.die = l))).length)
  | none => s

/-! ## Capture and restore (R447, R448) -/

/-- The queue condition: the vector queue is empty and no DRAIN is queued or running. -/
def lhrQuiet (d : Die) : Bool :=
  decide (d.depth .vector = 0) &&
    !d.ops.any (fun o => decide (o.kind = .op) && decide (o.opcode = 0x14) && o.counts)

/-- The registers of a capture record: offset in the record and register (R447). -/
def captureRegs : List (Nat × Nat) :=
  tabulate 4 (fun i => (16 + 4 * i, 0x10040 + 4 * i)) ++
    tabulate 32 (fun i => (32 + 4 * i, 0x40100 + 4 * i)) ++
    tabulate 256 (fun i => (256 + 4 * i, 0x41100 + 4 * i))

/-- The capture record of a die now (R447). -/
def captureBytes (win job : Nat) (d : Die) : Bytes :=
  captureRegs.foldl (fun bs e => overlayB bs e.1 (leBytes 4 (d.reg e.2)))
    (leBytes 8 win ++ leBytes 1 job ++ leBytes 1271 0)

/-- What a register of a capture record takes of a word (R4, R5, R151): the fields of a scale register's `CTL`,
and of its `AMAX` no reserved encoding, in place of which it keeps `old`. -/
def captureWord (off old v : Nat) : Nat :=
  if inArray off 0x40100 8 16 then bitsOf v 21 0
  else if inArray off 0x40104 8 16 then (if 0x7F800000 < v then old else v)
  else v

/-- A capture record written back into the registers (R448). -/
def restoreRegs (bs : Bytes) (d : Die) : Die :=
  captureRegs.foldl (fun d e => d.setReg e.2 (captureWord e.2 (d.reg e.2) (natAt bs e.1 4))) d

/-- The capture record of a window of a logical die. -/
def State.capture? (s : State) (l win : Nat) : Option Capture :=
  s.captures.find? (fun c => decide (c.die = l) && decide (c.window = win))

/-- A restore or an export of the die runs (R459). -/
def lehrBusy (d : Die) : Bool := !d.lehrWant.isEmpty || !d.lehrOut.isEmpty || !d.lehrSent.isEmpty

/-- The op of a die ends with a status. -/
def lhrEnd (p : Nat) (st : Status) (s : State) : State := s.modDie p (fun d => lhrStatus st (lehrBusy d) d)

/-- `OP` CAPTURE. -/
def lhrCapture (p l win job : Nat) (s : State) : State :=
  if !lhrQuiet (s.die p) then lhrEnd p .invalidState s
  else
    let rest := s.captures.filter (fun c => decide (c.die ≠ l) || decide (c.window ≠ win))
    if 8 ≤ (rest.filter (fun c => decide (c.die = l))).length then lhrEnd p .resourceExhausted s
    else
      let s := { s with captures := rest ++ [⟨l, win, job, captureBytes win job (s.die p)⟩] }
      showRecords l (lhrEnd p .ok s)

/-- `OP` RESTORE. -/
def lhrRestore (p l win : Nat) (s : State) : State :=
  if !lhrQuiet (s.die p) then lhrEnd p .invalidState s
  else match s.capture? l win with
    | none => lhrEnd p .invalidState s
    | some c =>
      let s := s.modDie p (restoreRegs c.bytes)
      let s := { s with captures := s.captures.filter (fun c => decide (c.die ≠ l) || decide (c.window ≤ win)) }
      showRecords l (lhrEnd p .ok s)

/-- A die applies the COMMIT of `win`: the records up to it are dropped (R447). -/
def dropCaptures (l win : Nat) (s : State) : State :=
  showRecords l { s with captures := s.captures.filter (fun c => decide (c.die ≠ l) || decide (win < c.window)) }

/-! ## LPDDR and sending (R289, R452) -/

/-- The part of an extent that lies before half `k` of it. -/
def halfPrefix (k a len : Nat) : Nat := min len (32 * (a / 32 + k) - a)

/-- A read of the Lehr, half by half up to the first that the region table refuses (R290): the status of the
refusal, or the data and whether a half could not be read. -/
def lehrRead (cls : AccClass) (job a len : Nat) (d : Die) : Except Status (Bytes × Bool) × Die :=
  let r : Req := ⟨cls, false, d.world, job⟩
  match halvesOk d r (halfCount a len) (32 * (a / 32)) with
  | (k, some st) =>
    let (_, _, d) := lpRead a (halfPrefix k a len) d
    (.error st, regionRefused r (32 * (a / 32 + k)) st d)
  | (_, none) =>
    let (bs, bad, d) := lpRead a len d
    (.ok (bs, !bad.isEmpty), d)

/-- A write of the Lehr, half by half up to the first that the region table refuses (R290). -/
def lehrWrite (cls : AccClass) (job a : Nat) (bs : Bytes) (d : Die) : Option Status × Die :=
  let r : Req := ⟨cls, true, d.world, job⟩
  match halvesOk d r (halfCount a bs.length) (32 * (a / 32)) with
  | (k, some st) =>
    let d := lpStore r a (bs.take (halfPrefix k a bs.length)) d
    (some st, regionRefused r (32 * (a / 32 + k)) st d)
  | (_, none) => (none, lpStore r a bs d)

/-- The memory of every extent serves the Lehr now (R292, R299, R302). -/
def lehrServes (es : List (Nat × Nat)) (d : Die) : Bool := es.all (fun e => lpServes false e.1 e.2 d)

/-- The payloads of at most 64 MiB that a part is cut into (R452). -/
def lehrChunks : (fuel : Nat) → Bytes → List Bytes
  | 0, _ => []
  | n + 1, bs => if bs.length ≤ 2 ^ 26 then [bs] else bs.take (2 ^ 26) :: lehrChunks n (bs.drop (2 ^ 26))

/-- The Lehr sends the beads that wait while the credit cache lets it: units and sequence number are taken as a
SEND takes them (R203, R207). -/
def lehrPump : (fuel : Nat) → Die → Die
  | 0, d => d
  | n + 1, d =>
    match d.lehrOut with
    | [] => d
    | o :: rest =>
      match ccFind d o.pkg o.die o.rod with
      | none => d
      | some e =>
        let units := o.payload.length / 32 + 1
        if ccState d e ≠ 0 ∨ ccAvail d e < units ∨ 1024 ≤ d.sendsOut ∨
            !worldOk d.world (tabGet (fun _ => false) d.ccWorld e) then d
        else
          let ep := ccEpoch d e
          let sq := ccSeq d e
          let d := (d.setReg (ccBase e + 8) (ccAvail d e - units)).setReg (ccBase e + 16) ((sq + 1) % 2 ^ 16)
          let (k, d) := pickHandle d
          let d := takeHandle k ⟨0, .lehr e units, BitVec.ofNat 16 ep, BitVec.ofNat 16 sq, d.rrc⟩ d
          let d := { d with
            lehrOut := rest,
            lehrSent := if o.journal then d.lehrSent ++ [(k, sq)] else d.lehrSent }
          lehrPump n (emit (.bead (packBead
            { dstPkg := o.pkg, dstDie := o.die, dstRod := o.rod, world := d.world, srcPkg := d.pkg.toNat,
              srcDie := d.logical.toNat, job := o.job, kind := 1, epoch := ep, seq := sq, handle := k,
              tag := o.tag, version := o.version, length := units }) o.payload) d)

/-- `BUSY` stays while an op waits, or a restore or an export runs (R459). -/
def lehrShow (d : Die) : Die :=
  let busy := d.lhrGo || lehrBusy d
  if d.flag 0xE0010 0 = busy then d else d.put ⟨0xE0010, 0, 0⟩ (bit busy)

/-- All that waits. -/
def lehrGoOut (d : Die) : Die := lehrShow (lehrPump (d.lehrOut.length + 1) d)

/-- A part is queued as BULK_PUSH beads, with `TAG` the bead's index (R452). Bytes that fill its last unit are
free values. -/
def queuePart (p pkg die rod job version : Nat) (journal : Bool) (bs : Bytes) (s : State) : State :=
  s.modDie p (fun d =>
    let (bs, d) := padHalf bs d
    lehrGoOut { d with
      lehrOut := d.lehrOut ++ (lehrChunks (bs.length / 2 ^ 26 + 1) bs).mapIdx (fun i c =>
        { pkg := pkg, die := die, rod := rod, job := job, tag := i, version := version, journal := journal,
          payload := c }) })

/-! ## Journal objects (R453) -/

/-- `MGT_JOB`j`_RECOVERY`. -/
def recoveryReg (j : Nat) : Nat := 0x240 + 4 * j
/-- The storage package of a job. -/
def State.storePkg (s : State) (j : Nat) : Nat := s.get ⟨recoveryReg j, 23, 12⟩
/-- The partner package of a job. -/
def State.partner (s : State) (j : Nat) : Nat := s.get ⟨recoveryReg j, 11, 0⟩
/-- `AUTO`. -/
def State.auto (s : State) (j : Nat) : Bool := s.flag (recoveryReg j) 24
/-- `EXPORT`. -/
def State.exports (s : State) (j : Nat) : Bool := s.flag (recoveryReg j) 25
/-- `PARISON_EVERY`. -/
def State.parisonEvery (s : State) (j : Nat) : Nat := s.get ⟨0x280 + 4 * j, 15, 0⟩
/-- `EVAL_EVERY`. -/
def State.evalEvery (s : State) (j : Nat) : Nat := s.get ⟨0x280 + 4 * j, 31, 16⟩
/-- The user extent: LPDDR address and bytes. -/
def State.userExtent (s : State) (j : Nat) : Nat × Nat :=
  (s.get ⟨0x2C0 + 4 * j, 14, 0⟩ * 2 ^ 20, s.get ⟨0x2C0 + 4 * j, 21, 15⟩ * 1024)

/-- Window `w` is a parison's (R454). -/
def State.parisonWindow (s : State) (j w : Nat) : Bool :=
  decide (s.parisonEvery j ≠ 0) && decide ((w + 1) % s.parisonEvery j = 0)

/-- The job record of an object (R453). -/
def objectJob (d : Die) (j : Nat) : Bytes :=
  let o := redBase j
  leBytes 8 (redStep d j) ++ leBytes 8 (d.reg48 (o + 20)) ++ leBytes 2 (redGen d j) ++
    leBytes 2 (d.get ⟨o + 8, 31, 16⟩) ++ leBytes 1 (bit (d.flag (o + 16) 24)) ++ leBytes 1 (redAttempt d j) ++
    leBytes 2 0 ++ (List.range 4).flatMap (fun t => leBytes 1 (verLast d t)) ++ leBytes 36 0

/-- What stands in place of a capture record that the die does not hold: R453 gives the object one, and no rule
its values. Window and job are as in a record, the registers' words free values that their fields can hold
(log 45). -/
def freeCapture (win job : Nat) (d : Die) : Bytes × Die :=
  let n := captureRegs.length
  let d' := captureRegs.zipIdx.foldl (fun d' e =>
    d'.setReg e.1.2 (captureWord e.1.2 0 ((Config.freeDie d.phys (d.free + e.2)).toNat % 2 ^ 32))) d
  (captureBytes win job d', { d with free := d.free + n })

/-- Extents read one after the other with class LEHR: the first refusal, or the data and whether a half could
not be read. -/
def lehrReads (p job : Nat) : List (Nat × Nat) → State → Except Status (Bytes × Bool) × State
  | [], s => (.ok ([], false), s)
  | (a, n) :: rest, s =>
    if n = 0 then lehrReads p job rest s
    else
      let (r, d) := lehrRead .lehr job a n (s.die p)
      let s := s.setDie p d
      match r with
      | .error st => (.error st, s)
      | .ok (bs, bad) =>
        match lehrReads p job rest s with
        | (.error st, s) => (.error st, s)
        | (.ok (cs, bad'), s) => (.ok (bs ++ cs, bad || bad'), s)

/-- The journal object of a die for a committed window, from its record and extents (R453). -/
def objectBytes (s : State) (d : Die) (j l win : Nat) (cap tail : Bytes) : Bytes :=
  let body := objectJob d j ++ cap ++ tail
  le32 0x4F505A54 ++ leBytes 2 1 ++ leBytes 1 (bit (s.parisonWindow j win)) ++ leBytes 1 j ++
    leBytes 2 s.package ++ leBytes 1 l ++ leBytes 1 0 ++ leBytes 8 win ++ leBytes 2 (redGen d j) ++
    leBytes 2 0 ++ leBytes 8 body.length ++ shake256 body ++ body

/-- The extents that the journal object of a die is read from. -/
def shardPlaces (s : State) (j l : Nat) : List (Nat × Nat) := s.userExtent j :: Config.shardExtents j l

/-- `OP` SHARD_READY: with `EXPORT` set the journal object goes to rod 0 of die 0 of the storage package.
A half that cannot be read ends the object with `POISONED` (R454). -/
def shardReady (p l win j : Nat) (s : State) : State :=
  if !s.exports j then lhrEnd p .ok s
  else
    match lehrReads p j (shardPlaces s j l) s with
    | (.error st, s) => lhrEnd p st s
    | (.ok (tail, bad), s) =>
      if bad then lhrEnd p .poisoned s
      else
        let (cap, d) := match s.capture? l (redWindow (s.die p) j) with
          | some c => (c.bytes, s.die p)
          | none => freeCapture (redWindow (s.die p) j) j (s.die p)
        let obj := objectBytes s d j l win cap tail
        let s := s.setDie p { d with object := some (BitVec.ofNat 48 win, obj) }
        lhrEnd p .ok (queuePart p (s.storePkg j) 0 0 j 0 true obj s)

/-- The op that `GO` asked for waits for the memory of its extents (R292). -/
def lehrWaits (p : Nat) (s : State) : Bool :=
  let d := s.die p
  let j := d.get ⟨0xE000C, 19, 16⟩
  decide (d.get ⟨0xE000C, 21, 20⟩ = 2) && s.exports j && match s.logicalOf p with
    | some l => !lehrServes (shardPlaces s j l) d
    | none => false

/-- The op that `GO` asked for (R459); the reserved `OP` cannot be stored. -/
def lehrAct (p : Nat) (s : State) : State :=
  let d := s.die p
  if !d.lhrGo then s
  else if lehrWaits p s then s.modDie p (fun d => d.put ⟨0xE0010, 0, 0⟩ 1)
  else
    let s := s.modDie p (fun d => { d with lhrGo := false })
    let win := lhrWindow d
    let j := d.get ⟨0xE000C, 19, 16⟩
    match s.logicalOf p with
    | none => s
    | some l =>
      match d.get ⟨0xE000C, 21, 20⟩ with
      | 0 => lhrCapture p l win j s
      | 1 => lhrRestore p l win s
      | _ => shardReady p l win j s

/-! ## Parisons (R454) -/

/-- The stages of a job on a die. -/
def jobStages (d : Die) (j : Nat) : List Nat :=
  (List.range 4).filter (fun t => verEnable d t && decide (verJob d t = j))

/-- The slot of a version that is LIVE. -/
def liveSlot (d : Die) (t n : Nat) : Option Nat :=
  (List.range 8).find? (fun s => decide (slotState d t s = 4) && decide (slotNumber d t s = n))

/-- Version `n` of a stage can take a pin: it is LIVE and holds fewer than 15 (R234, R236). -/
def canPin (d : Die) (t n : Nat) : Bool :=
  match liveSlot d t n with
  | some k => decide (slotPins d t k < 15)
  | none => false

/-- Version `n` of a stage gains or loses a pin, if it is LIVE (R234); an unpinned version may retire. -/
def pinStage (up : Bool) (t n : Nat) (d : Die) : Die :=
  match liveSlot d t n with
  | some k =>
    if up then setSlotPins t k (min 15 (slotPins d t k + 1)) d
    else verRetire t (setSlotPins t k (slotPins d t k - 1) d)
  | none => d

/-- The version of a parison: window w's is (w + 1) mod 256. -/
def parisonVersion (e : Nat × Nat × Bool) : Nat := (e.2.1 + 1) % 256

/-- Parisons of a die that wait are pinned, stage by stage, once their version is LIVE. One that holds 15 pins
already waits until one is given back. -/
def pinParisons (p l j : Nat) (s : State) : State :=
  (s.job j).parisons.foldl (fun s e =>
    if decide (e.1 / 4 = l) && !e.2.2 && canPin (s.die p) (e.1 % 4) (parisonVersion e) then
      (s.modDie p (pinStage true (e.1 % 4) (parisonVersion e))).modJob j (fun i => { i with
        parisons := i.parisons.map (fun x => if x = e then (e.1, e.2.1, true) else x) })
    else s) s

/-- The journal object of window `w` has been made, where the job exports (R454). -/
def objectMade (s : State) (d : Die) (j w : Nat) : Bool :=
  !s.exports j || match d.object with
    | some o => decide (w ≤ o.1.toNat)
    | none => false

/-- PARISON_UNPIN (R454): every object of the die has been delivered, that of the parison's window among them. -/
def parisonUnpin (p j : Nat) (s : State) : State :=
  let d := s.die p
  match s.logicalOf p with
  | none => s
  | some l =>
    if !d.lehrSent.isEmpty || d.lehrOut.any (·.journal) then s
    else
      let mine (e : Nat × Nat × Bool) : Bool := decide (e.1 / 4 = l) && e.2.2 && objectMade s d j e.2.1
      (((s.job j).parisons.filter mine).foldl (fun s e =>
        s.modDie p (pinStage false (e.1 % 4) (parisonVersion e))) s).modJob j (fun i => { i with
          parisons := i.parisons.filter (fun e => !mine e) })

/-! ## Manifests (R415) -/

/-- A job's manifest, as LPDDR holds it. -/
def State.manifest (s : State) (j : Nat) : Bytes :=
  let i := s.job j
  match s.physOf i.manDie with
  | none => []
  | some p =>
    let d := s.die p
    let n := leNat (tabSlice zeroByte d.lpddr (i.manAddr + 8) 4)
    tabSlice zeroByte d.lpddr i.manAddr (64 + 16 * n)

/-- The entries of a manifest. -/
def entries (m : Bytes) : List Bytes :=
  tabulate ((m.length - 64) / 16) (fun i => sliceB m (64 + 16 * i) 16)

/-- The PROG entries of a logical die, as `SRC`, `DST` and `COUNT`, in manifest order. -/
def progEntries (m : Bytes) (l : Nat) : List (Nat × Nat × Nat) :=
  ((entries m).filter (fun e => decide (natAt e 0 1 = 2) && decide (natAt e 1 1 = l))).map
    (fun e => (natAt e 4 4, natAt e 8 4, natAt e 12 4))

/-- The LPDDR extent that a PROG entry names (R162): address and bytes. -/
def progExtent (e : Nat × Nat × Nat) : Nat × Nat := (64 * e.1, 16 * e.2.2)

/-! ## The transfer of parts (R452) -/

/-- The die of its package that sends a part: die 0 of an endpoint, else the same logical die. -/
def partDie (d : Die) (x : LehrPart) : Nat := if x.part = 0 ∨ x.part = 3 then 0 else d.logical.toNat

/-- Window number that a request names: of `LAST_COMMIT`, for OBJECT and SLOT. -/
def requestBead (s : State) (d : Die) (x : LehrPart) (job win dst : Nat) : Bead :=
  let timed := decide (x.part.toNat ≤ 1)
  { dstPkg := dst, dstDie := partDie d x, world := d.world,
    srcPkg := s.package, srcDie := d.logical.toNat, srcRod := d.get ⟨0xE0000, 11, 0⟩, job := job, kind := 5,
    csub := 7, handle := x.part.toNat + x.stage.toNat <<< 2,
    tag := if timed then win % 2 ^ 32 else if x.part = 2 then x.index else 0,
    seq := if timed then win / 2 ^ 32 else 0, version := if x.part = 1 then x.index else 0 }

/-- The Lehr opens its rod to a writer with credit for one bead of 64 MiB (R452): an OPEN bead whose answer
no op awaits. -/
def lehrOpen (pkg die job : Nat) (d : Die) : Die :=
  let n := d.get ⟨0xE0000, 11, 0⟩
  let credit := 2 ^ 21 + 1
  let d := (d.put ⟨rodBase n, 1, 0⟩ 1).setReg (grantedReg n) (d.reg (grantedReg n) + credit)
  let (k, d) := pickHandle d
  let d := takeHandle k ⟨0, .lehr 512 0, BitVec.ofNat 16 (rodEpoch d n), 0, d.rrc⟩ d
  emitBead { dstPkg := pkg, dstDie := die, world := rodWorld d n, srcRod := n, job := job, kind := 3,
             epoch := rodEpoch d n, handle := k, credit := credit } d

/-- The request for the first part that a die still expects. -/
def askPart (p : Nat) (s : State) : State :=
  let d := s.die p
  let j := d.lehrJob.toNat
  match d.lehrWant with
  | [] => s
  | x :: _ => s.modDie p (fun d =>
      emit (.bead (packBead (requestBead s d x j (redWindow d j - 1) x.pkg)) []) d)

/-- A die begins a restore: its rod is opened to every sender of a part, and the first part asked for. -/
def beginParts (p j : Nat) (parts : List LehrPart) (s : State) : State :=
  let d := s.die p
  if parts.isEmpty || !d.flag 0xE0000 12 then s
  else
    let from_ := ((parts.map (fun x => (x.pkg, partDie d x)))).eraseDups
    askPart p (s.modDie p (fun d => lhrStatus .ok true
      (from_.foldl (fun d e => lehrOpen e.1 e.2 j d) { d with lehrWant := parts, lehrJob := BitVec.ofNat 4 j })))

/-- The Lehr's op ends: nothing more is expected, and its rod is CLOSED and empty. -/
def endParts (p : Nat) (st : Status) (s : State) : State :=
  s.modDie p (fun d =>
    let n := d.get ⟨0xE0000, 11, 0⟩
    let d := setRodBeads n [] ((d.put ⟨rodBase n, 1, 0⟩ 0).setReg (grantedReg n) 0)
    let d := (d.setReg (rodBase n + 20) 0).setReg (rodBase n + 28) 0
    lhrStatus st false { d with lehrWant := [], lehrJob := 0 })

/-- A LEHR request that is whole (R5, R205, R452): the fields that its part leaves unused are 0. -/
def lehrRequestOk (h : BitVec 256) : Bool :=
  let b := beadOf h
  !beadBad h && decide (b.credit = 0) && decide (b.handle < 16) &&
    match b.handle % 4 with
    | 0 => decide (b.version = 0)
    | 1 => true
    | 2 => decide (b.seq = 0) && decide (b.version = 0)
    | _ => decide (b.tag = 0) && decide (b.seq = 0) && decide (b.version = 0)

/-- What a die holds of the part that a request names, with the class and job of its reading (R452): a LIVE slot
of a stage of the job, or the program extent of a PROG entry of its manifest. Objects and manifests lie at an
endpoint. -/
def lehrHolds (s : State) (d : Die) (b : Bead) : Option (AccClass × Nat × Nat × Nat) :=
  let t := b.handle / 4
  match b.handle % 4 with
  | 1 => (if (jobStages d b.job).contains t then liveSlot d t b.version else none).map (fun k =>
      let w := d.reg (verBase t + 4)
      (.lehr, b.job, (bitsOf w 14 0 + k * bitsOf w 26 15) * 2 ^ 20, bitsOf w 26 15 * 2 ^ 20))
  | 2 => ((progEntries (s.manifest b.job) d.logical.toNat)[b.tag]?).map (fun e =>
      (.dma, 0, (progExtent e).1, (progExtent e).2))
  | _ => none

/-- The answer to a request that is whole: the part, or a NAK `UNREACHABLE`. -/
def lehrAnswer (p : Nat) (b : Bead) (s : State) : State :=
  match lehrHolds s (s.die p) b with
  | none => s.modDie p (nakBead b .unreachable)
  | some (cls, job, a, n) =>
    let (r, d) := lehrRead cls job a n (s.die p)
    let s := s.setDie p d
    match r with
    | .ok (bs, false) => queuePart p b.srcPkg b.srcDie b.srcRod b.job b.version false bs s
    | _ => s.modDie p (nakBead b .unreachable)

/-- The memory of the part serves. -/
def lehrReady (s : State) (d : Die) (b : Bead) : Bool :=
  match lehrHolds s d b with
  | none => true
  | some e => lehrServes [e.2.2] d

/-- LEHR_REQUEST (R452): the Lehr of this die answers. The bead stays in the inbox while the memory of its part
does not serve. -/
def lehrRequest (p : Nat) (h : BitVec 256) (s : State) : State :=
  let b := beadOf h
  let ok := hdrOk h && lehrRequestOk h
  if (s.die p).run ≠ .active then s
  else s.fromInbox p (isControl h 7 && (!ok || lehrReady s (s.die p) b)) (.bead h []) (fun s =>
    if !hdrOk h then s.modDie p hdrError
    else if !lehrRequestOk h then s.modDie p (nakBead b .malformed)
    else lehrAnswer p b s)

/-- Pieces of LPDDR read in turn: their bytes, and whether a half could not be read. -/
def lpPieces (base : Nat) (ps : List (Nat × Nat)) (d : Die) : Bytes × Bool × Die :=
  ps.foldl (fun (r : Bytes × Bool × Die) e =>
    let (bs, bad, d) := lpRead (base + e.1) e.2 r.2.2
    (r.1 ++ bs, r.2.1 || !bad.isEmpty, d)) ([], false, d)

/-- Pieces of the scratchpad read in turn by the rod unit. -/
def spdPieces (base : Nat) (ps : List (Nat × Nat)) (d : Die) : Bytes × Bool × Die :=
  ps.foldl (fun (r : Bytes × Bool × Die) e =>
    let (bs, bad, d) := spdRead 2 (base + e.1) e.2 r.2.2
    (r.1 ++ bs, r.2.1 || !bad.isEmpty, d)) ([], false, d)

/-- Where a rod's bead lies: the pieces of its ring or of its spill region. -/
def beadPieces (d : Die) (n : Nat) (b : HeldBead) : List (Nat × Nat) :=
  wrapPieces (if b.spill then spillUnits d n else ringUnits d n) b.at_ (beadOf b.h).length

/-- The storage of a rod's bead serves the rod unit now. -/
def rodServes (d : Die) (n : Nat) (b : HeldBead) : Bool :=
  if b.spill then piecesServed (spillByte d n) (beadPieces d n b) d else !d.clearing

/-- The payload of a bead of the Lehr rod, read through the rod unit with class SPILL (R289, R290, R452); a status
where it cannot be read: of the region table, or `POISONED`, which no rule names for it (log 45). -/
def rodPayload (n : Nat) (b : HeldBead) (d : Die) : Except Status Bytes × Die :=
  let ps := beadPieces d n b
  let done (r : Bytes × Bool × Die) : Except Status Bytes × Die :=
    (if r.2.1 then .error .poisoned else .ok (r.1.drop 32), r.2.2)
  if b.spill then
    match piecesChk d (spillReq d n false) (spillByte d n) ps with
    | some (a, st) => (.error st, regionRefused (spillReq d n false) a st d)
    | none => done (lpPieces (spillByte d n) ps d)
  else done (spdPieces (ringByte d n) ps d)

/-- A received object is whole: magic, format, length and digest (R452, R453). -/
def objectOk (o : Bytes) : Bool :=
  decide (natAt o 0 4 = 0x4F505A54) && decide (natAt o 4 2 = 1) && decide (o.length = 64 + natAt o 24 8) &&
    decide (shake256 (o.drop 64) = sliceB o 32 32)

/-- The extents of a shard take their bytes, one after the other. -/
def putExtents (p j : Nat) : List (Nat × Nat) → Bytes → State → Option Status × State
  | [], _, s => (none, s)
  | (a, n) :: rest, bs, s =>
    if n = 0 then putExtents p j rest bs s
    else
      let (st, d) := lehrWrite .lehr j a (sliceB bs 0 n) (s.die p)
      let s := s.setDie p d
      match st with
      | some st => (some st, s)
      | none => putExtents p j rest (bs.drop n) s

/-- An object's user extent and shard are written in place (R452, R453). -/
def putObject (p l j : Nat) (o : Bytes) (s : State) : Option Status × State :=
  putExtents p j (shardPlaces s j l) (o.drop 1408) s

/-- The first half of a list of extents that the Lehr of a die may not write, with the status (R290). -/
def extentsChk (d : Die) (j : Nat) (es : List (Nat × Nat)) : Option (Nat × Status) :=
  let r : Req := ⟨.lehr, true, d.world, j⟩
  es.findSome? (fun e =>
    match halvesOk d r (halfCount e.1 e.2) (32 * (e.1 / 32)) with
    | (k, some st) => some (32 * (e.1 / 32 + k), st)
    | (_, none) => none)

/-- A part that has come whole is written in place (R452): a slot becomes LIVE with its number. -/
def placePart (p l j : Nat) (x : LehrPart) (s : State) : Option Status × State :=
  match x.part.toNat with
  | 0 => if objectOk x.got then putObject p l j x.got s else (some .unverified, s)
  | 1 =>
    let (st, d) := lehrWrite .lehr j x.dst (sliceB x.got 0 x.len) (s.die p)
    match st with
    | some st => (some st, s.setDie p d)
    | none =>
      let t := x.stage.toNat
      let w := x.index <<< 8 + 4
      (none, s.setDie p ((d.setReg (slotReg t x.slot) w).setReg (slotReg t x.slot + 4) 0))
  | 2 =>
    let (st, d) := lehrWrite .dma 0 x.dst (sliceB x.got 0 x.len) (s.die p)
    (st, s.setDie p d)
  | _ =>
    let (st, d) := lehrWrite .lehr j x.dst (sliceB x.got 0 x.len) (s.die p)
    (st, s.setDie p d)

/-- Bytes that a part has in all; of an object, once its header is there. -/
def partLen (x : LehrPart) : Option Nat :=
  if x.part = 0 then (if 64 ≤ x.got.length then some (64 + natAt x.got 24 8) else none) else some x.len

/-- The part has come whole. -/
def partWhole (x : LehrPart) : Bool :=
  match partLen x with
  | none => false
  | some len => decide (len ≤ x.got.length)

/-- Where a part is written. -/
def partPlaces (s : State) (l j : Nat) (x : LehrPart) : List (Nat × Nat) :=
  if x.part = 0 then shardPlaces s j l else [(x.dst, x.len)]

/-- A part has grown: one that is whole is written in place and the next one asked for; a failure ends the op. -/
def partGrown (p l j : Nat) (x : LehrPart) (more : List LehrPart) (s : State) : State :=
  if !partWhole x then s
  else
    let x := { x with got := x.got.take ((partLen x).getD 0) }
    let (st, s) := placePart p l j x s
    match st with
    | some st => endParts p st s
    | none =>
      if more.isEmpty then endParts p .ok s
      else askPart p (s.modDie p (fun d => { d with lehrWant := more }))

/-- LEHR_PART_RECEIVE (R452): the Lehr reads the oldest bead of its rod and appends it to the part it
expects. It waits for the storage of the bead and of the part's own place. -/
def lehrPartReceive (p : Nat) (s : State) : State :=
  let d := s.die p
  let n := d.get ⟨0xE0000, 11, 0⟩
  let j := d.lehrJob.toNat
  match rodBeads d n, d.lehrWant, s.logicalOf p with
  | b :: rest, x :: more, some l =>
    if !rodServes d n b then s
    else
      let (r, d') := rodPayload n b d
      match r with
      | .error st => endParts p st (s.setDie p d')
      | .ok bs =>
        let x := { x with got := x.got ++ bs }
        if partWhole x && !lehrServes (partPlaces s l j x) d then s
        else partGrown p l j x more (s.setDie p { releaseBead n b rest d' with lehrWant := x :: more })
  | _, _, _ => s

/-- A NAK of status `UNREACHABLE` to the Lehr ends its op with `UNVERIFIED` (R452). -/
def lehrNak (p : Nat) (h : BitVec 256) (s : State) : State :=
  let b := beadOf h
  let d := s.die p
  if hdrOk h && decide (b.kind = 2) && decide (b.status = 0xB) && !d.lehrWant.isEmpty && decide (b.epoch = 0) then
    endParts p .unverified s
  else s

/-! ## Exports (R454) -/

/-- EXPORT of a part: the extent or the bytes, checked and copied to the host. One caught by an invalidation
is a completion only, `POISONED`. -/
def exportTo (x : Cmd) (st : Status) (bs : Bytes) (s : State) : State :=
  if !s.current x then answer x .poisoned s
  else if st ≠ .ok then answer x st s
  else if x.resultLen < bs.length then answer x .malformed s
  else finish x .ok bs 0 s

/-- The die, stage and version that EXPORT names (R454). -/
def exportArgs (x : Cmd) : Nat × Nat × Nat :=
  (bitsOf x.imm.toNat 9 4, bitsOf x.imm.toNat 11 10, bitsOf x.imm.toNat 23 16)

/-- A pinned version of a stage. -/
def pinnedSlot (d : Die) (t n : Nat) : Option Nat :=
  match liveSlot d t n with
  | some k => if slotPins d t k = 0 then none else some k
  | none => none

/-- EXPORT_SLOT. -/
def exportSlot (c : CmdId) (s : State) : State :=
  s.onCmd c 0x0302 (fun x s =>
    let (l, t, n) := exportArgs x
    if bitOf x.imm.toNat 24 || decide (s.partState x.partition = 2) then s
    else match s.physOf l with
      | none => answer x .unreachable s
      | some p =>
        let d := s.die p
        match pinnedSlot d t n with
        | none => answer x .invalidState s
        | some k =>
          let w := d.reg (verBase t + 4)
          let a := (bitsOf w 14 0 + k * bitsOf w 26 15) * 2 ^ 20
          if !lehrServes [(a, bitsOf w 26 15 * 2 ^ 20)] d then s
          else
            let (r, d) := lehrRead .lehr (verJob d t) a (bitsOf w 26 15 * 2 ^ 20) d
            let s := s.setDie p d
            match r with
            | .error st => exportTo x st [] s
            | .ok (bs, bad) => exportTo x (if bad then .poisoned else .ok) (if bad then [] else bs) s)

/-- EXPORT_OBJECT. -/
def exportObject (c : CmdId) (s : State) : State :=
  s.onCmd c 0x0302 (fun x s =>
    let (l, t, n) := exportArgs x
    if !bitOf x.imm.toNat 24 || decide (s.partState x.partition = 2) then s
    else match s.physOf l with
      | none => answer x .unreachable s
      | some p =>
        let d := s.die p
        match pinnedSlot d t n, d.object with
        | some _, some (w, bs) =>
          if (w.toNat + 1) % 256 = n then exportTo x .ok bs s else answer x .invalidState s
        | _, _ => answer x .invalidState s)

end Sys2Proof.Machine
end

