-- ==== Sys2Proof/Machine/Jobs.lean ====
section
/-! DEFINITION. Partitions and jobs: the commands of R413 to R428, RESHARD (R273, R402), and what the
Reckoner does when a notice is applied (R269, R379, R428, R447, R454). -/

namespace Sys2Proof.Machine

/-! ## Threads of a job (R415, R429) -/

/-- A thread lies in a range. -/
def inRange (r : ThreadRange) (t : Nat) : Bool :=
  decide (r.first.toNat ≤ t) && decide (t < r.first.toNat + r.count)

/-- Every thread of the ranges is FREE. -/
def rangesIdle (d : Die) (rs : List ThreadRange) : Bool :=
  d.threads.all (fun e => decide (e.2.st = .free) || !rs.any (fun r => inRange r e.1))

/-- The ranges of a job on a die. -/
def jobRanges (d : Die) (j : Nat) : List ThreadRange := d.ranges.filter (fun r => decide (r.job.toNat = j))

/-- Those of one class: 0 TRAIN, 1 EVAL, 2 KERNEL, 3 TEARDOWN. -/
def classRanges (d : Die) (j cls : Nat) : List ThreadRange :=
  (jobRanges d j).filter (fun r => decide (r.cls.toNat = cls))

/-- Every thread of a job is FREE. -/
def State.jobIdle (s : State) (j : Nat) : Bool :=
  (s.jobDies j).all (fun e => rangesIdle (s.die e.2) (jobRanges (s.die e.2) j))

/-- Every thread of one class of a job is FREE. -/
def State.classIdle (s : State) (j cls : Nat) : Bool :=
  (s.jobDies j).all (fun e => rangesIdle (s.die e.2) (classRanges (s.die e.2) j cls))

/-- Every die of a job changed. -/
def State.modJobDies (s : State) (j : Nat) (f : Die → Die) : State :=
  s.modDies ((s.jobDies j).map (·.2)) f

/-- The LAUNCH entries of a class: logical die, first thread, threads minus 1, entry op word (R415). -/
def launches (m : Bytes) (cls : Nat) : List (Nat × Nat × Nat × Nat) :=
  ((entries m).filter (fun e => decide (natAt e 0 1 = 4) && decide (natAt e 12 1 = cls))).map
    (fun e => (natAt e 1 1, natAt e 2 2, natAt e 4 2, natAt e 8 4))

/-- A launch through `SEQ_LAUNCH0` and `SEQ_LAUNCH1` (R160): whether it was made. -/
def launchAt (l first m1 entry : Nat) (s : State) : Bool × State :=
  match s.physOf l with
  | none => (false, s)
  | some p =>
    let (ok, d) := goLaunch (((s.die p).setReg 0x30010 (first + m1 <<< 11)).setReg 0x30014 entry)
    (ok, s.setDie p d)

/-- Launches one after the other, up to the first that sets `LAUNCH_ERR`. -/
def launchAll : List (Nat × Nat × Nat × Nat) → State → Bool × State
  | [], s => (true, s)
  | (l, f, n, e) :: rest, s =>
    let (ok, s) := launchAt l f n e s
    if ok then launchAll rest s else (false, s)

/-- Every LAUNCH entry of a class of a job is carried out. -/
def launchClass (j cls : Nat) (s : State) : Bool × State := launchAll (launches (s.manifest j) cls) s

/-! ## The check of a command that names a job (R412, R414, R419) -/

/-- A command that names a job: held while its partition is RESETTING, then checked against the matrix of
R419. `states`: those in which the command acts. -/
def jobCmd (c : CmdId) (opcode : Nat) (jobOf : Cmd → Nat) (states : List Nat) (k : Cmd → Nat → State → State)
    (s : State) : State :=
  s.onCmd c opcode (fun x s =>
    let j := jobOf x
    if x.begun || !s.reckoner || decide (s.partState x.partition = 2) then s
    else if j = 0 then answer x .malformed s
    else if s.jobState j ≠ 0 ∧ s.jobPart j ≠ x.partition then answer x .invalidState s
    else if !states.contains (s.jobState j) then answer x .invalidState s
    else k x j s)

/-- The command has begun and waits. -/
def begin' (x : Cmd) (s : State) : State := s.modCmd x.id (fun y => { y with begun := true })

/-! ## Partitions (R413) -/

/-- A row's setpoint is asked for: a lowering is sent at once, a raise waits for its grant (R433). -/
def askSetpoint (n mv : Nat) (s : State) : State :=
  let s := s.put ⟨0x10010 + 4 * n, 9, 0⟩ mv
  if mv < s.currentMv n then sendSetpoint n mv s else s

/-- PARTITION_FORM (R413). -/
def partitionForm (c : CmdId) (s : State) : State :=
  s.onCmd c 0x0106 (fun x s =>
    let part := x.partition
    let mask := bitsOf x.imm.toNat 7 0
    if x.begun || !s.reckoner || decide (s.partState part = 2) then s
    else if s.partState part ≠ 0 then answer x .invalidState s
    else if (maskRows mask).any (fun n => (s.rowPart n).isSome) then answer x .invalidState s
    else if (maskRows mask).any s.degraded then answer x .resourceExhausted s
    else
      let mode := bitOf x.imm.toNat 8
      let s := s.setReg (0x100 + 4 * part) (1 + mask <<< 8 + bit mode <<< 16)
      let s := s.modDies ((maskRows mask).flatMap rowPhys) (fun d =>
        if d.run = .active then { d with classes := mode } else d)
      commandReset part (begin' x s))

/-- PARTITION_DISSOLVE (R413). -/
def partitionDissolve (c : CmdId) (s : State) : State :=
  s.onCmd c 0x0107 (fun x s =>
    let part := x.partition
    if !s.reckoner || decide (s.partState part = 2) then s
    else if s.partState part = 0 ∨ s.partJobs part ≠ [] then answer x .invalidState s
    else
      let rows := s.partRows part
      let s := (s.setReg (0x100 + 4 * part) 0).modDies (rows.flatMap rowPhys) (fun d =>
        if d.run = .active then { d with classes := false } else d)
      answer x .ok (rows.foldl (fun s n => askSetpoint n (s.powerMv n) s) s))

/-! ## JOB_LOAD (R415, R416) -/

/-- A manifest as it stands at an LPDDR offset of a die: its bytes, and whether a half could not be read. No
header, no manifest. -/
def readManifest (p a : Nat) (s : State) : Option (Bytes × Bool) × State :=
  if !lpStored a then (none, s)
  else
    let n := leNat (tabSlice zeroByte (s.die p).lpddr (a + 8) 4)
    let len := 64 + 16 * n
    if n = 0 ∨ 1048576 < n ∨ !lpStored (a + len - 1) then (none, s)
    else
      let (bs, bad, s) := hostRead p a len s
      (some (bs, bad), s)

/-- Header rules of R415. -/
def headerOk (m : Bytes) (j : Nat) : Bool :=
  decide (natAt m 0 4 = 0x4D4A5A54) && decide (natAt m 4 2 = 1) && decide (natAt m 6 1 = j) &&
    decide (natAt m 7 1 < 4) && zeroAt m 12 4 && decide (natAt m 16 8 < 2 ^ 29) && zeroAt m 24 40

/-- A RANGE entry of the same die and class contains a LAUNCH entry. -/
def launchInside (es : List Bytes) (e : Bytes) : Bool :=
  es.any (fun r => decide (natAt r 0 1 = 3) && decide (natAt r 1 1 = natAt e 1 1) &&
    decide (natAt r 6 1 = natAt e 12 1) && decide (natAt r 2 2 ≤ natAt e 2 2) &&
    decide (natAt e 2 2 + natAt e 4 2 ≤ natAt r 2 2 + natAt r 4 2))

/-- The fields of an entry (R415), with the logical dies of its partition. -/
def entryOk (dies : List Nat) (es : List Bytes) (e : Bytes) : Bool :=
  let here := dies.contains (natAt e 1 1)
  let span := decide (natAt e 2 2 + natAt e 4 2 < 2048)
  match natAt e 0 1 with
  | 1 => here && zeroAt e 2 2 && zeroAt e 12 4
  | 2 => here && zeroAt e 2 2 && decide (natAt e 4 4 < 2 ^ 29) && decide (natAt e 8 4 < 2 ^ 17) &&
      decide (natAt e 12 4 ≤ 131072)
  | 3 => here && span && decide (natAt e 6 1 < 4) && zeroAt e 7 9
  | 4 => here && span && zeroAt e 6 2 && decide (natAt e 8 4 < 2 ^ 17) && decide (natAt e 12 1 < 4) &&
      zeroAt e 13 3 && launchInside es e
  | 5 => zeroAt e 3 1 && decide (natAt e 4 4 < 2 ^ 17) && zeroAt e 8 8
  | _ => false

/-- The target of a REG entry: none, a register that no manifest names; else whether what it names is in
use already (checks 2 and 4 of R416). -/
def regUse (s : State) (d : Die) (l j : Nat) (ledger : Bool) (off v : Nat) : Option Bool :=
  let within (lo hi : Nat) : Bool := decide (lo ≤ off) && decide (off < hi)
  let others := d.ranges.any (fun r => decide (r.job.toNat ≠ j))
  let word := off - off % 32
  if off % 4 ≠ 0 then none
  else if within 0x60000 0x60400 then some (verEnable d ((off - 0x60000) / 0x100))
  else if within 0xA8000 0xA8100 then some (verEnable d ((off - 0xA8000) / 0x40))
  else if within (redBase j) (redBase j + 0x20) then some false
  else if within 0x74000 0x80000 || within 0x84000 0x90000 then some (ctxEnable d word)
  else if within 0x92000 0x92500 then
    (if ledger && !(decide (off = 0x92000) && bitOf v 0) then some (d.flag 0x92000 0) else none)
  else if within 0xA1000 0xA3000 then some (d.flag word 31)
  else if within 0x100000 0x120000 then some (decide (d.get ⟨word, 7, 4⟩ ≠ 0))
  else if within 0x40100 0x40180 || within 0x41100 0x41500 then some others
  else if inArray off 0x200 16 4 then
    some ((s.binding? l ((off - 0x200) / 16)).any (fun b => decide (b.job ≠ j)))
  else none

/-- What `regUse` says of a REG entry; other entries name nothing. -/
def entryUse (s : State) (j : Nat) (ledger : Bool) (e : Bytes) : Option Bool :=
  if natAt e 0 1 = 1 then
    match s.physOf (natAt e 1 1) with
    | some p => regUse s (s.die p) (natAt e 1 1) j ledger (natAt e 4 4) (natAt e 8 4)
    | none => none
  else some false

/-- A REG entry is applied by the management complex. -/
def applyReg (s : State) (e : Bytes) : State :=
  match s.physOf (natAt e 1 1) with
  | some p => s.modDie p (dieWrite true false true (natAt e 4 4) (natAt e 8 4))
  | none => s

/-- A REG entry breaks a rule of its register's chapter (check 3 of R416): applied in order on a copy of the
dies, its write sets `INVALID_WRITE`. -/
def regBreaks : List Bytes → State → Bool
  | [], _ => false
  | e :: es, s =>
    match s.physOf (natAt e 1 1) with
    | none => regBreaks es s
    | some p =>
      let s := applyReg (s.modDie p (fun d => d.put ⟨0x4, 0, 0⟩ 0)) e
      (s.die p).flag 0x4 0 || regBreaks es s

/-- A RANGE entry meets a range of another loaded job. -/
def rangeMeets (s : State) (j : Nat) (e : Bytes) : Bool :=
  match s.physOf (natAt e 1 1) with
  | none => false
  | some p => (s.die p).ranges.any (fun r => decide (r.job.toNat ≠ j) &&
      decide (natAt e 2 2 < r.first.toNat + r.count) && decide (r.first.toNat ≤ natAt e 2 2 + natAt e 4 2))

/-- The status of the first source unit that a program-store load may not read (R162, R290). -/
def progSource (d : Die) (src n : Nat) : Option Status :=
  (unitsOk d ⟨.dma, false, d.world, 0⟩ (ceilDiv n 4) (64 * src)).2

/-- A PROG entry's source lies outside the regions that its load may read. -/
def progMeets (s : State) (e : Bytes) : Bool :=
  match s.physOf (natAt e 1 1) with
  | none => false
  | some p => (progSource (s.die p) (natAt e 4 4) (natAt e 12 4)).isSome

/-- More than 8 thread ranges on a die (R429). -/
def tooManyRanges (rs : List Bytes) : Bool :=
  rs.any (fun e => decide (8 < (rs.filter (fun r => decide (natAt r 1 1 = natAt e 1 1))).length))

/-- The checks of R416, in its order: each over every entry. -/
def manifestChk (s : State) (part j : Nat) (m : Bytes) : Option Status :=
  let es := entries m
  let kind (k : Nat) : List Bytes := es.filter (fun e => decide (natAt e 0 1 = k))
  let ledger := bitOf (natAt m 7 1) 1
  let dies := (s.partBound part).map (·.1)
  let uses := es.map (entryUse s j ledger)
  let free := (kind 1).filter (fun e => decide (entryUse s j ledger e = some false))
  if !headerOk m j || !es.all (entryOk dies es) then some .malformed
  else if uses.contains none then some .malformed
  else if (kind 3).any (rangeMeets s j) || regBreaks free s || (kind 2).any (progMeets s) then some .invalidState
  else if uses.contains (some true) || tooManyRanges (kind 3) then some .resourceExhausted
  else none

/-- One PROG load, from its start to its end: its status. A load that R162 rejects has no status in any
rule, a free value. -/
def applyProg (e : Bytes) (s : State) : Status × State :=
  match s.physOf (natAt e 1 1) with
  | none => (.ok, s)
  | some p =>
    let src := natAt e 4 4
    let n := natAt e 12 4
    let d := ((s.die p).setReg 0x30020 src).setReg 0x30024 (natAt e 8 4)
    if progRefused d (natAt e 8 4) n then
      let (v, s) := (s.setDie p (dieProgLoad true (n + 2 ^ 31) d)).draw
      ((statusOf (v.toNat % 16)).getD .ok, s)
    else
      let bad := !(lpRead (64 * src) (16 * n) d).2.1.isEmpty
      let st := (progSource d src n).getD (if bad then .poisoned else .ok)
      (st, s.setDie p (dieProgLoadComplete (dieProgLoad true (n + 2 ^ 31) d)))

/-- PROG loads in order: the first status that is not `OK`. -/
def applyProgs : List Bytes → State → Status × State
  | [], s => (.ok, s)
  | e :: es, s =>
    let (st, s) := applyProg e s
    let (st', s) := applyProgs es s
    (if st = .ok then st' else st, s)

/-- A RANGE entry joins the thread ranges of its die. -/
def applyRange (j : Nat) (s : State) (e : Bytes) : State :=
  match s.physOf (natAt e 1 1) with
  | none => s
  | some p => s.modDie p (fun d => { d with ranges := d.ranges ++
      [(⟨BitVec.ofNat 4 j, BitVec.ofNat 11 (natAt e 2 2), natAt e 4 2 + 1, BitVec.ofNat 2 (natAt e 6 1)⟩ :
        ThreadRange)] })

/-- The REG, PROG and RANGE entries that satisfy a test of their die are applied (R416, R450, R451). -/
def applyManifest (j : Nat) (who : Nat → Bool) (m : Bytes) (s : State) : Status × State :=
  let kind (k : Nat) : List Bytes :=
    (entries m).filter (fun e => decide (natAt e 0 1 = k) && who (natAt e 1 1))
  let s := (kind 1).foldl applyReg s
  let (st, s) := applyProgs (kind 2) s
  (st, (kind 3).foldl (applyRange j) s)

/-- The job is LOADED from a checked manifest. -/
def loadJob (part share : Nat) (cls : Bool) (j l a : Nat) (m : Bytes) (s : State) : Status × State :=
  let s := s.modJob j (fun i => { i with
    manDie := l, manAddr := a, ledger := bitOf (natAt m 7 1) 1, placed := bitOf (natAt m 7 1) 0 })
  let (st, s) := applyManifest j (fun _ => true) m s
  let v := 1 + part <<< 4 + bit cls <<< 7 + share <<< 8
  let s := s.setReg (jobReg j) (putBits (s.reg (jobReg j)) 15 0 v)
  (st, if st = .ok then s else s.setJobCause j st)

/-- Where the header of a manifest and its entries lie: address and bytes. -/
def manifestSpan (d : Die) (a : Nat) : Nat × Nat := (a, 64 + 16 * (leNat (tabSlice zeroByte d.lpddr (a + 8) 4)))

/-- The sources of a manifest's PROG entries, by physical die. -/
def progSources (s : State) (m : Bytes) : List (Nat × Nat × Nat) :=
  (entries m).filterMap (fun e =>
    if natAt e 0 1 = 2 then (s.physOf (natAt e 1 1)).map (fun p => (p, 64 * natAt e 4 4, 16 * natAt e 12 4))
    else none)

/-- The memory of a manifest at an address of a die, and of the programs that it names, serves now (R292): until
then its loading waits. -/
def loadServes (p a : Nat) (s : State) : Bool :=
  !lpStored a || (let x := manifestSpan (s.die p) a
    !lpStored (x.1 + x.2 - 1) || (lehrServes [x] (s.die p) &&
      (progSources s (tabSlice zeroByte (s.die p).lpddr x.1 x.2)).all (fun e => lehrServes [e.2] (s.die e.1))))

/-- JOB_LOAD (R416). -/
def jobLoad (c : CmdId) (s : State) : State :=
  jobCmd c 0x0108 (·.immJob) [0] (fun x j s =>
    let l := bitsOf x.imm.toNat 13 8
    let a := 64 * bitsOf x.imm.toNat 44 16
    if s.partState x.partition ≠ 1 then answer x .invalidState s
    else match (s.partBound x.partition).lookup l with
      | none => answer x .malformed s
      | some p =>
        if !loadServes p a s then s
        else match readManifest p a s with
        | (none, s) => answer x .malformed s
        | (some (_, true), s) => answer x .poisoned s
        | (some (m, false), s) =>
          match manifestChk s x.partition j m with
          | some st => answer x st s
          | none =>
            let (st, s) := loadJob x.partition (bitsOf x.imm.toNat 55 48) (bitOf x.imm.toNat 56) j l a m s
            answer x st s) s

/-! ## Starting, pausing, sharing, querying (R418 to R421) -/

/-- A die's job registers take the share and the class (R421, R436). -/
def setShare (j share : Nat) (cls : Bool) (d : Die) : Die := d.setReg (talJob j + 0x18) (share + bit cls <<< 8)

/-- The physical die that holds a job's ledger: the one that `RED_JOB`j names. -/
def State.ledgerDie (s : State) (j : Nat) : Option Nat :=
  match s.jobDies j with
  | [] => none
  | (_, p) :: _ => (s.jobDies j).lookup ((s.die p).get ⟨redBase j + 4, 6, 0⟩)

/-- Steps 1 to 3 of JOB_START (R421); `VALID` of `LHR_JOB`j`_RESUME` is cleared (R459). -/
def startJob (j : Nat) (s : State) : State :=
  let v := s.reg (jobReg j)
  let s := s.modJobDies j (fun d => ((setShare j (bitsOf v 15 8) (bitOf v 7) d).put ⟨redBase j, 0, 0⟩ 1).put
    ⟨0xE0104 + 8 * j, 31, 31⟩ 0)
  match if (s.job j).ledger then s.ledgerDie j else none with
  | some p => s.modDie p (fun d => ldgCtlWrite true (putBits (d.reg 0x92000) 0 0 1) d)
  | none => s

/-- JOB_START (R421). -/
def jobStart (c : CmdId) (s : State) : State :=
  jobCmd c 0x0101 (·.payloadJob) [1] (fun x j s =>
    let (ok, s) := launchClass j 0 (startJob j s)
    if ok then answer x .ok (s.setJobState j 2)
    else answer x .resourceExhausted (commandReset (s.jobPart j) s)) s

/-- `PAUSE` of a job on every die. -/
def setPause (j v : Nat) (s : State) : State := s.modJobDies j (fun d => d.put ⟨0x300 + 4 * j, 1, 1⟩ v)

/-- JOB_PAUSE (R420). -/
def jobPause (c : CmdId) (s : State) : State :=
  jobCmd c 0x0103 (·.payloadJob) [2] (fun x j s => answer x .ok (setPause j 1 (s.setJobState j 3))) s

/-- JOB_RESUME (R420): refused while the pause is that of a ledger STOP (R419). -/
def jobResume (c : CmdId) (s : State) : State :=
  jobCmd c 0x0104 (·.payloadJob) [3] (fun x j s =>
    if (s.job j).stopPause then answer x .invalidState s
    else answer x .ok (setPause j 0 (s.setJobState j 2))) s

/-- JOB_SHARE (R418, R436). -/
def jobShare (c : CmdId) (s : State) : State :=
  jobCmd c 0x010A (·.immJob) [1, 2, 3, 4, 5] (fun x j s =>
    let share := bitsOf x.imm.toNat 15 8
    let cls := bitOf x.imm.toNat 16
    let s := s.put ⟨jobReg j, 15, 7⟩ (bit cls + share <<< 1)
    answer x .ok (s.modJobDies j (setShare j share cls))) s

/-- Completion bytes 24 to 31 of JOB_QUERY (R418). -/
def queryWord (v : Nat) : BitVec 64 :=
  BitVec.ofNat 64 (bitsOf v 2 0 + bitsOf v 6 4 <<< 4 + bitsOf v 7 7 <<< 8 + bitsOf v 15 8 <<< 16 +
    bitsOf v 23 16 <<< 24)

/-- JOB_QUERY (R418). -/
def jobQuery (c : CmdId) (s : State) : State :=
  jobCmd c 0x010D (·.immJob) [0, 1, 2, 3, 4, 5] (fun x j s =>
    finish x .ok [] (queryWord (s.reg (jobReg j))) s) s

/-! ## Stopping and unloading (R422) -/

/-- JOB_STOP DRAIN: `STOP_REQ` on every die; a pause ends, so that the threads can finish. -/
def jobStopDrain (c : CmdId) (s : State) : State :=
  match s.cmd? c with
  | none => s
  | some x =>
    if natAt x.payload 1 1 = 1 then s
    else jobCmd c 0x0102 (·.payloadJob) [2, 3] (fun x j s =>
      let s := (setPause j 0 s).modJobDies j (fun d => d.put ⟨0x300 + 4 * j, 0, 0⟩ 1)
      let s := s.modJob j (fun i => { i with limitMs := natAt x.payload 4 4, stopPause := false })
      begin' x (s.setJobState j 4)) s

/-- JOB_STOP ABORT: a partition reset, which leaves the job LOADED. -/
def jobStopAbort (c : CmdId) (s : State) : State :=
  match s.cmd? c with
  | none => s
  | some x =>
    if natAt x.payload 1 1 ≠ 1 then s
    else jobCmd c 0x0102 (·.payloadJob) [2, 3, 4, 5] (fun x j s =>
      if (s.partJobs x.partition).any (fun i => decide (i ≠ j) && decide (2 ≤ s.jobState i) &&
          decide (s.jobState i ≤ 4)) then
        answer x .invalidState s
      else commandReset x.partition (begin' x s)) s

/-- JOB_DRAIN_TIMEOUT (R419): ABORT, with cause `TIMEOUT`. -/
def jobDrainTimeout (j : Nat) (s : State) : State :=
  if s.reckoner && decide (s.jobState j = 4) && decide ((s.job j).limitMs ≠ 0) &&
      decide (s.partState (s.jobPart j) = 1) then
    commandReset (s.jobPart j) (endCmds (isDrain j) .timeout (s.setJobCause j .timeout))
  else s

/-- Every thread of a DRAINING job is FREE: LOADED, and the JOB_STOP is answered. -/
def drainGo (j : Nat) (s : State) : State :=
  if decide (s.jobState j = 4) && s.jobIdle j then endCmds (isDrain j) .ok (s.setJobState j 1) else s

/-- The word-0 registers of a table that a job owns: those from `lo` in steps of 32 whose `JOB` field is `j`. -/
def ownedWords (d : Die) (lo hi hiBit loBit j : Nat) : List Nat :=
  (d.regs.filter (fun e => decide (lo ≤ e.1) && decide (e.1 < hi) && decide (e.1 % 32 = 0) &&
    decide (bitsOf e.2.toNat hiBit loBit = j))).map (·.1)

/-- The rods, contexts and collector entries of a job on a die, by the offset of word 0. -/
def jobRods (d : Die) (j : Nat) : List Nat := ownedWords d 0x100000 0x120000 7 4 j
/-- The job's contexts. -/
def jobCtxs (d : Die) (j : Nat) : List Nat :=
  ownedWords d 0x74000 0x80000 5 2 j ++ ownedWords d 0x84000 0x90000 5 2 j
/-- The job's collector entries. -/
def jobCols (d : Die) (j : Nat) : List Nat := ownedWords d 0xA1000 0xA3000 3 0 j

/-- The stages of a job on a die, enabled or not. -/
def ownStages (d : Die) (j : Nat) : List Nat := (List.range 4).filter (fun t => decide (verJob d t = j))

/-- No resource of the job is in use on a die (R422). -/
def resourcesFree (d : Die) (j : Nat) : Bool :=
  (ownStages d j).all (fun t => (List.range 8).all (fun k => decide (slotState d t k = 0))) &&
    (jobRods d j).all (fun o => decide (d.get ⟨o, 1, 0⟩ = 0) && (rodBeads d ((o - 0x100000) / 32)).isEmpty) &&
    (jobCtxs d j).all (fun o => decide (ctxState d o = 0)) &&
    !(decide (ldgJob d = j) && decide (ldgState d = 1))

/-- What JOB_UNLOAD frees on a die. -/
def freeResources (j : Nat) (d : Die) : Die :=
  let d := (ownStages d j).foldl (fun d t => d.put ⟨verBase t, 0, 0⟩ 0) d
  let d := (jobCtxs d j).foldl (fun d o => ctxWake o (d.put ⟨o, 0, 0⟩ 0)) d
  let d := (jobCols d j).foldl (fun d o => d.put ⟨o, 31, 31⟩ 0) d
  let d := (jobRods d j).foldl (fun d o => d.put ⟨o, 7, 4⟩ 0) d
  ({ d with ranges := d.ranges.filter (fun r => decide (r.job.toNat ≠ j)) }).setReg (talJob j + 0x18) 0

/-- JOB_UNLOAD (R422): the TEARDOWN launches. Where one of them cannot be made, none is (R15). -/
def jobUnload (c : CmdId) (s : State) : State :=
  jobCmd c 0x0109 (·.immJob) [1] (fun x j s =>
    match launchClass j 3 s with
    | (true, s) => begin' x s
    | (false, _) => answer x .resourceExhausted s) s

/-- The teardown has ended: the job's resources are freed, and it is EMPTY; `CAUSE` stays. -/
def unloadJob (x : Cmd) (j : Nat) (s : State) : State :=
  if (s.jobDies j).all (fun e => resourcesFree (s.die e.2) j) then
    let s := s.modJobDies j (freeResources j)
    answer x .ok ((s.setJob j {}).put ⟨jobReg j, 15, 0⟩ 0)
  else answer x .invalidState s

/-- The JOB_UNLOAD of a job that has begun. -/
def isUnload (j : Nat) (c : Cmd) : Bool := decide (c.opcode = 0x0109) && c.begun && decide (c.immJob = j)

/-- A JOB_UNLOAD goes on once every TEARDOWN thread is FREE. -/
def unloadGo (j : Nat) (s : State) : State :=
  match s.cmds.find? (isUnload j) with
  | some x => if s.classIdle j 3 then unloadJob x j s else s
  | none => s

/-- TEARDOWN_TIMEOUT (R422): 1 s. -/
def teardownTimeout (j : Nat) (s : State) : State := endCmds (isUnload j) .timeout s

/-! ## RESHARD (R273, R402) -/

/-- An entry of RESHARD: logical die, context base, `CFG`, `BASE` and `SIZE`. -/
def reshardEntry (e : Bytes) : Nat × Nat × Nat × Nat × Nat :=
  let w := natAt e 1 2
  (natAt e 0 1, ctxBase (bitOf w 11) (bitsOf w 10 0), natAt e 4 4, natAt e 8 4, natAt e 12 4)

/-- An entry names a context that is disabled and breaks no rule of R251. -/
def reshardOk (s : State) (j : Nat) (e : Bytes) : Bool :=
  let (l, b, cfg, base, size) := reshardEntry e
  match (s.jobDies j).lookup l with
  | none => false
  | some p =>
    let d := s.die p
    decide (bitsOf (natAt e 1 2) 10 0 < 1536) && !ctxEnable d b && decide (bitsOf cfg 15 11 = 0) &&
      decide (base < 2 ^ 29) && (!bitOf cfg 1 || d.world) && decide (bitsOf size 19 0 ≠ 0) &&
      ctxServed (bitOf (natAt e 1 2) 11) base (bitsOf size 19 0) (bitsOf cfg 7 6)

/-- An entry is written with `GEN` G′ and enabled. -/
def reshardWrite (gen : Nat) (s : State) (e : Bytes) : State :=
  let (l, b, cfg, base, size) := reshardEntry e
  match s.physOf l with
  | none => s
  | some p => s.modDie p (fun d =>
      let d := ((d.setReg b (cfg + gen <<< 16 + 1)).setReg (b + 4) base).setReg (b + 8) size
      let d := d.resetRegs (b + 12) (b + 32)
      let mc := decide (0x80000 ≤ b)
      let d := { d with ctxTold := tabSet (fun _ => false) d.ctxTold (ctxKey b) false }
      if sweeping d mc then d else rapReplay mc d)

/-- The pending fields of a die's `RED_JOB`j (R275). -/
def setPending (j gen step : Nat) (d : Die) : Die :=
  let o := redBase j
  ((d.put ⟨o + 8, 31, 16⟩ gen).setReg48 (o + 20) step).put ⟨o + 16, 24, 24⟩ 1

/-- The ledger's pending generation, step and expectations (R277). -/
def setLedgerPending (gen step ctxs dies : Nat) (d : Die) : Die :=
  let d := (d.setReg48 0x92020 step).put ⟨0x92024, 31, 16⟩ gen
  (d.setReg 0x92028 ctxs).put ⟨0x9202C, 18, 0⟩ (1 + dies <<< 1)

/-- RESHARD (R273). -/
def reshard (c : CmdId) (s : State) : State :=
  jobCmd c 0x0105 (·.payloadJob) [2, 3] (fun x j s =>
    let gen := natAt x.payload 4 2
    let step := natAt x.payload 8 6
    let es := tabulate (natAt x.payload 2 2) (fun i => sliceB x.payload (32 + 16 * i) 16)
    let good := (s.jobDies j).all (fun e =>
      let d := s.die e.2
      !d.flag (redBase j + 16) 24 && decide (redGen d j ≠ gen) && decide (redStep d j < step + redN d j))
    if !good || !es.all (reshardOk s j) then answer x .invalidState s
    else
      let s := (es.foldl (reshardWrite gen) s).modJobDies j (setPending j gen step)
      let s := match if bitOf (natAt x.payload 1 1) 0 then s.ledgerDie j else none with
        | some p => s.modDie p (setLedgerPending gen step (natAt x.payload 16 4) (natAt x.payload 20 4))
        | none => s
      answer x .ok s) s

/-! ## Evaluation (R427, R428) -/

/-- Version `n` is a parison of the job: LIVE and pinned in every stage of every die. -/
def isParison (s : State) (j n : Nat) : Bool :=
  (s.jobDies j).all (fun e => (jobStages (s.die e.2) j).all (fun t => (pinnedSlot (s.die e.2) t n).isSome))

/-- An evaluation of version `n` starts (R427): whether its launches were made. -/
def startEval (j n : Nat) (s : State) : Bool × State :=
  let s := s.modJobDies j (fun d => (d.put ⟨0x300 + 4 * j, 15, 8⟩ n).put ⟨0x300 + 4 * j, 16, 16⟩ 1)
  launchClass j 1 s

/-- EVAL_RUN (R427). Where a launch cannot be made, the command has no effect (R15). -/
def evalRun (c : CmdId) (s : State) : State :=
  jobCmd c 0x010B (·.immJob) [2] (fun x j s =>
    let n := bitsOf x.imm.toNat 15 8
    if (s.job j).eval.isSome || !isParison s j n then answer x .invalidState s
    else
      match startEval j n s with
      | (true, s) => begin' x (s.modJob j (fun i => { i with eval := some ⟨n, some c, 0⟩ }))
      | (false, _) => answer x .resourceExhausted s) s

/-- The stages of a job on its dies, as 4 × logical die + stage. -/
def stageKeys (s : State) (j : Nat) : List Nat :=
  (s.jobDies j).flatMap (fun e => (jobStages (s.die e.2) j).map (fun t => 4 * e.1 + t))

/-- The pins of an automatic run are taken back (R428). -/
def unpinEval (j n : Nat) (s : State) : State :=
  let s := (s.job j).evalPins.foldl (fun s k =>
    match s.physOf (k / 4) with
    | some p => s.modDie p (pinStage false (k % 4) n)
    | none => s) s
  s.modJob j (fun i => { i with evalPins := [], evalWait := none })

/-- An evaluation ends with a status: an automatic run is unpinned. -/
def finishEval (j : Nat) (st : Status) (s : State) : State :=
  match (s.job j).eval with
  | none => s
  | some e => endEval j st (if e.cmd = none then unpinEval j e.version s else s)

/-- An evaluation completes once every EVAL thread is FREE. -/
def evalGo (j : Nat) (s : State) : State :=
  if (s.job j).eval.isSome && s.classIdle j 1 then finishEval j .ok s else s

/-- The version of an automatic run that waits is pinned in each stage once it is LIVE (R428, step 1) and holds
fewer than 15 pins. -/
def evalPinGo (j : Nat) (s : State) : State :=
  match (s.job j).evalWait with
  | none => s
  | some w =>
    (stageKeys s j).foldl (fun s k =>
      match s.physOf (k / 4) with
      | some p =>
        if !(s.job j).evalPins.contains k && canPin (s.die p) (k % 4) ((w + 1) % 256) then
          (s.modDie p (pinStage true (k % 4) ((w + 1) % 256))).modJob j (fun i =>
            { i with evalPins := i.evalPins ++ [k] })
        else s
      | none => s) s

/-- AUTO_EVAL (R428): the run starts once its version is pinned everywhere. -/
def autoEval (j : Nat) (s : State) : State :=
  if !s.reckoner then s
  else
    let s := evalPinGo j s
    match (s.job j).evalWait with
    | none => s
    | some w =>
      let n := (w + 1) % 256
      if !(stageKeys s j).all (fun k => (s.job j).evalPins.contains k) then s
      else if decide (s.jobState j ≠ 2) || (s.job j).eval.isSome then
        (unpinEval j n s).setJobCause j .invalidState
      else
        match startEval j n s with
        | (true, s) => s.modJob j (fun i => { i with eval := some ⟨n, none, w⟩, evalWait := none })
        | (false, _) => (unpinEval j n s).setJobCause j .resourceExhausted

/-- Windows that a job has committed on a die since window `w`. -/
def windowsSince (s : State) (j w : Nat) : Nat :=
  match s.jobDies j with
  | [] => 0
  | (l, _) :: _ => tabGet (fun _ => 0) (s.job j).commits l - (w + 1)

/-- AUTO_EVAL_TIMEOUT (R428): 200 windows after the pin. -/
def autoEvalTimeout (j : Nat) (s : State) : State :=
  let i := s.job j
  match i.eval, i.evalWait with
  | some e, _ => if e.cmd = none ∧ 200 ≤ windowsSince s j e.window then finishEval j .timeout s else s
  | none, some w =>
    if 200 ≤ windowsSince s j w then (unpinEval j ((w + 1) % 256) s).setJobCause j .timeout else s
  | none, none => s

/-! ## Kernels (R426) -/

/-- The entry op word of kernel `k` of a job. -/
def kernelEntry (m : Bytes) (k : Nat) : Option Nat :=
  ((entries m).find? (fun e => decide (natAt e 0 1 = 5) && decide (natAt e 2 1 = k))).map (fun e => natAt e 4 4)

/-- The lowest-numbered die whose KERNEL range for the job has every thread FREE, and that range. -/
def kernelDie (s : State) (j : Nat) : Option (Nat × Nat × ThreadRange) :=
  (s.jobDies j).findSome? (fun e =>
    match classRanges (s.die e.2) j 2 with
    | [] => none
    | r :: rest => if rangesIdle (s.die e.2) (r :: rest) then some (e.1, e.2, r) else none)

/-- A kernel is placed, if a die is free and its memory serves: its arguments written, its range launched. -/
def placeKernel (x : Cmd) (s : State) : State :=
  let j := x.immJob
  let m := s.manifest j
  let a := 64 * bitsOf (natAt m 16 8) 28 0
  match kernelEntry m (bitsOf x.imm.toNat 15 8), kernelDie s j with
  | some entry, some (l, p, r) =>
    if !lpServes false a 64 (s.die p) then s
    else
      let s := s.modDie p (lpStore ⟨.lehr, true, true, j⟩ a (sliceB x.payload 0 64))
      let (_, s) := launchAt l r.first.toNat (r.count - 1) entry s
      s.modCmd x.id (fun y => { y with begun := true, die := l })
  | _, _ => s

/-- KERNEL_SUBMIT (R426). A kernel that the manifest does not define has no rule: the command ends with a
free status. -/
def kernelSubmit (c : CmdId) (s : State) : State :=
  jobCmd c 0x010C (·.immJob) [2] (fun x j s =>
    let before := s.cmds.filter (fun y => decide (y.opcode = 0x010C) && y.begun && decide (y.immJob = j))
    if 256 ≤ before.length then answer x .resourceExhausted s
    else if (kernelEntry (s.manifest j) (bitsOf x.imm.toNat 15 8)).isNone then
      let (v, s) := s.draw
      answer x ((statusOf (v.toNat % 16)).getD .ok) s
    else placeKernel x (s.modCmd c (fun y => { y with begun := true, die := 0x7F }))) s

/-- The kernels of a job: one whose range is FREE again completes with its die in bytes 24 and 25; those that
wait are placed in their order. -/
def kernelGo (j : Nat) (s : State) : State :=
  let mine := s.cmds.filter (fun c => decide (c.opcode = 0x010C) && c.begun && decide (c.immJob = j))
  let s := (mine.filter (fun c => decide (c.die < 64))).foldl (fun s c =>
    match s.physOf c.die with
    | some p =>
      if rangesIdle (s.die p) (classRanges (s.die p) j 2) then finish c .ok [] (BitVec.ofNat 64 c.die) s else s
    | none => s) s
  if s.jobState j = 2 then
    (mine.filter (fun c => decide (64 ≤ c.die))).foldl (fun s c => placeKernel c s) s
  else s

/-! ## Notices at the Reckoner (R269, R379, R419, R428, R447, R454) -/

/-- The notice `h` applies at a die. -/
def noticeTaken (csub : Nat) (h : BitVec 256) (d : Die) : Bool :=
  rodUnitOn d && hdrOk h && noticeOk h csub && noticeApplies d (beadOf h)

/-- Window `w` qualifies for an automatic run once every die of the job has applied its COMMIT (R428). -/
def evalQualifies (s : State) (j w : Nat) : Bool :=
  decide (s.evalEvery j ≠ 0) && decide ((w + 1) % s.evalEvery j = 0) &&
    (s.jobDies j).all (fun e => decide (w + 1 ≤ tabGet (fun _ => 0) (s.job j).commits e.1))

/-- What the commit of window `w` at logical die `l`, physical die `p`, does outside the die. -/
def committed (l p j w : Nat) (s : State) : State :=
  let s := dropCaptures l w s
  let s := (s.jobBindings l j).foldl (fun s x => inputCommit w x s) s
  let s := if s.parisonWindow j w then
      let more := (jobStages (s.die p) j).map (fun t => (4 * l + t, w, false))
      s.modJob j (fun i => { i with parisons := i.parisons ++ more })
    else s
  let s := s.modJob j (fun i => { i with commits := tabSet (fun _ => 0) i.commits l (w + 1) })
  if evalQualifies s j w && (s.job j).eval.isNone && (s.job j).evalWait.isNone then
    s.modJob j (fun i => { i with evalWait := some w })
  else s

/-- COMMIT_NOTICE beyond the die. -/
def commitNotice (p : Nat) (h : BitVec 256) (s : State) : State :=
  let d := s.die p
  let j := (beadOf h).job
  let s := s.modDie p (dieCommitNotice h)
  match if noticeTaken 3 h d then s.logicalOf p else none with
  | some l => committed l p j (redWindow d j) s
  | none => s

/-- REPEAT_NOTICE beyond the die: the input bindings go back (R379). -/
def repeatNotice (p : Nat) (h : BitVec 256) (s : State) : State :=
  let d := s.die p
  let j := (beadOf h).job
  let s := s.modDie p (dieRepeatNotice h)
  match if noticeTaken 4 h d then s.logicalOf p else none with
  | some l => (s.jobBindings l j).foldl (fun s x => inputRewind p (redWindow d j) true x s) s
  | none => s

/-- A ledger STOP pauses a RUNNING job, with the cause of the notice (R419, R420). -/
def stopJob (j cause : Nat) (s : State) : State :=
  if s.jobState j = 2 then
    let s := (s.setJobState j 3).put ⟨jobReg j, 23, 16⟩ cause
    setPause j 1 (s.modJob j (fun i => { i with stopPause := true }))
  else s

/-- STOP_NOTICE beyond the die. -/
def stopNotice (p : Nat) (h : BitVec 256) (s : State) : State :=
  let b := beadOf h
  let taken := noticeTaken 5 h (s.die p)
  let s := s.modDie p (dieStopNotice h)
  if taken then stopJob b.job b.handle s else s

end Sys2Proof.Machine
end

