-- ==== Sys2Proof/Machine/Recovery.lean ====
section
/-! DEFINITION. Sparing, job recovery, replica restore and RESTORE (R331, R445, R450 to R452, R455). -/

namespace Sys2Proof.Machine

/-! ## Sparing (R445) -/

/-- The jobs of a partition lack their state on a new physical die; one whose manifest it held cannot be
recovered without the host (R445). -/
def markFresh (part l : Nat) (s : State) : State :=
  (s.partJobs part).foldl (fun s j =>
    let s := { s with fresh := (s.fresh.filter (fun e => decide (e ≠ (l, j)))) ++ [(l, j)] }
    if (s.job j).manDie = l then (s.setJobState j 5).setJobCause j .unreachable else s) s

/-- The spare `q` takes the logical number `l` (R445, step 4). -/
def bindSpare (l q : Nat) (s : State) : State :=
  showRecords l (bindDie l q (advanceLife l (s.setDieState q 0)))

/-- SPARING (R445): `retrained` tells whether the spare's channels retrained (R72). -/
def sparing (p : Nat) (retrained : Bool) (s : State) : State :=
  match if s.sparing.contains p && s.reckoner then s.logicalOf p else none with
  | none => s
  | some l =>
    let n := p / 9
    let s := { s with sparing := s.sparing.filter (fun x => decide (x ≠ p)) }
    match s.spareOf n with
    | none => putAside p (loseRow n s)
    | some q =>
      let s := putAside p s
      if !retrained then dealTokens (putAside q (loseRow n { s with retired := s.retired ++ [q] }))
      else
        let s := (powerOn .active (s.currentMv n) q s).modDie q (mcReady false)
        let s := dealTokens (writeRoutes (bindSpare l q s))
        match s.rowPart n with
        | some part => markFresh part l s
        | none => s

/-- BIND_TIMEOUT (R441): sparing has not bound the spare within 1 s. -/
def bindTimeout (p : Nat) (s : State) : State :=
  if s.sparing.contains p && s.reckoner then deviceReset 10 ((s.rowPart (p / 9)).getD 0) (some p) s else s

/-! ## Parts of a replica restore (R452) -/

/-- The part SLOT for version `n` of a stage, to be placed in slot `k`. -/
def slotPart (d : Die) (pkg t n k : Nat) : LehrPart :=
  let w := d.reg (verBase t + 4)
  { pkg := pkg, part := 1, stage := BitVec.ofNat 2 t, index := n, slot := k,
    dst := (bitsOf w 14 0 + k * bitsOf w 26 15) * 2 ^ 20, len := bitsOf w 26 15 * 2 ^ 20, got := [] }

/-- The LIVE slots of a logical die's registry record: stage, slot and number. They are identical in every
replica after every commit (R452). -/
def recordSlots (s : State) (l : Nat) : List (Nat × Nat × Nat) :=
  (tabGet (fun _ => []) s.regRecs l).filterMap (fun e =>
    let t := (e.1 - 0x60000) / 0x100
    let k := (e.1 - slotReg t 0) / 8
    if decide (slotReg t 0 ≤ e.1) && decide (k < 8) then some (t, k, bitsOf e.2.toNat 15 8) else none)

/-- The part PROGRAM of each PROG entry of a die. -/
def progParts (m : Bytes) (l pkg : Nat) : List LehrPart :=
  (progEntries m l).mapIdx (fun i e =>
    { pkg := pkg, part := 2, stage := 0, index := i, slot := 0, dst := (progExtent e).1, len := (progExtent e).2,
      got := [] })

/-- The part OBJECT. -/
def objectPart (pkg : Nat) : LehrPart :=
  { pkg := pkg, part := 0, stage := 0, index := 0, slot := 0, dst := 0, len := 0, got := [] }

/-- Every part of a replica restore of a die, from the partner and the endpoint. -/
def replicaParts (s : State) (j l p partner : Nat) : List LehrPart :=
  let d := s.die p
  ((recordSlots s l).filter (fun e => (ownStages d j).contains e.1)).map
      (fun e => slotPart d partner e.1 e.2.2 e.2.1) ++
    progParts (s.manifest j) l partner ++ [objectPart (s.storePkg j)]

/-- A die's restore from a partner begins. -/
def restoreFrom (partner p j : Nat) (s : State) : State :=
  match s.logicalOf p with
  | none => s
  | some l => if (s.die p).lehrWant.isEmpty then beginParts p j (replicaParts s j l p partner) s else s

/-- REPLICA_RESTORE (R452). -/
def replicaRestore (p j : Nat) (s : State) : State :=
  if s.reckoner && (decide (s.jobState j = 5) || decide ((s.job j).restoring ≠ 0)) then
    restoreFrom (s.partner j) p j s
  else s

/-! ## Job recovery (R450, R451) -/

/-- The logical dies whose state a job lacks. -/
def State.freshOf (s : State) (j : Nat) : List Nat := (s.fresh.filter (fun e => decide (e.2 = j))).map (·.1)

/-- `RED_JOB`j from the job record: `ACTIVE`, generation, step, attempt and pending re-shard (R450, R451). -/
def takeRecord (j : Nat) (rec : List Word32) (d : Die) : Die :=
  if rec.isEmpty then d
  else
    let v (i : Nat) : Nat := (rec.getD i 0).toNat
    let o := redBase j
    (List.range 6).foldl (fun d i => d.setReg (o + 8 + 4 * i) (v (i + 2))) (d.put ⟨o, 0, 0⟩ (v 0))

/-- Slots and `LAST_COMMIT` from the registry record (R451); `live`: the slots' contents lie there. -/
def takeRegistry (rec : List (Nat × Word32)) (live : Bool) (d : Die) : Die :=
  rec.foldl (fun d e =>
    if e.1 % 0x100 = 0x10 then d.put ⟨e.1, 24, 16⟩ (bitsOf e.2.toNat 24 16)
    else if live then d.setReg e.1 e.2.toNat else d) d

/-- The ledger's generation and pending fields from `RED_JOB`j, and the write of `LHR_LEDGER_RESUME` that puts
the unit COLLECTING and makes it decide REPEAT (R450, R451). -/
def resumeLedger (j : Nat) (d : Die) : Die :=
  let o := redBase j
  let step := redStep d j
  let d := (d.put ⟨0x9200C, 31, 16⟩ (redGen d j)).setReg48 0x92020 (d.reg48 (o + 20))
  let d := (d.put ⟨0x92024, 31, 16⟩ (d.get ⟨o + 8, 31, 16⟩)).put ⟨0x9202C, 0, 0⟩ (d.get ⟨o + 16, 24, 24⟩)
  ldgResumeWrite true (step / 2 ^ 32 + redAttempt d j <<< 16 + 2 ^ 31) (d.setReg 0xE0020 (step % 2 ^ 32))

/-- What the Reckoner writes again into the dies of a list after it has applied their manifest entries: share
and class, Lehr rod, job and registry records. -/
def reapplyDies (j : Nat) (ls : List Nat) (live : Bool) (s : State) : State :=
  let v := s.reg (jobReg j)
  let (_, s) := applyManifest j ls.contains (s.manifest j) s
  let s := ls.foldl (fun s l =>
    match s.physOf l with
    | none => s
    | some p => s.modDie p (fun d =>
        let d := setShare j (bitsOf v 15 8) (bitOf v 7) d
        let d := match (s.job j).rod with
          | some r => d.put ⟨0xE0000, 12, 0⟩ (r + 2 ^ 12)
          | none => d
        takeRegistry (tabGet (fun _ => []) s.regRecs l) live
          (takeRecord j (tabGet (fun _ => []) s.jobRecs j) d))) s
  match if (s.job j).ledger && decide (s.jobState j = 5) then s.ledgerDie j else none with
  | some p =>
    if (ls.filterMap s.physOf).contains p && redActive (s.die p) j then s.modDie p (resumeLedger j) else s
  | none => s

/-- The journal object whose export a device reset has ended is sent again (R454). -/
def exportAgain (p j : Nat) (s : State) : State :=
  match (s.die p).object with
  | some (_, o) =>
    if (s.die p).unsent && decide (natAt o 7 1 = j) then
      queuePart p (s.storePkg j) 0 0 j 0 true o (s.modDie p (fun d => { d with unsent := false }))
    else s
  | none => s

/-- The rebuild of a loaded job after a device reset (R451): every die that holds its state, and the input
bindings, which go back to the oldest uncommitted window. -/
def rebuildJob (s : State) (j : Nat) : State :=
  let dies := (s.jobDies j).filter (fun e => !(s.freshOf j).contains e.1)
  let s := reapplyDies j (dies.map (·.1)) true s
  let s := dies.foldl (fun s e =>
    (s.jobBindings e.1 j).foldl (fun s x => inputRewind e.2 (redWindow (s.die e.2) j) false x s) s) s
  dies.foldl (fun s e => exportAgain e.2 j s) s

/-- The parts that bring back versions whose slot was OPEN_COMMITTED at the reset (R450, step 3). -/
def lostParts (d : Die) (j partner : Nat) : List LehrPart :=
  (ownStages d j).filterMap (fun t =>
    if verCommitValid d t && (liveSlot d t (verLast d t)).isNone then
      (freeSlot d t).map (slotPart d partner t (verLast d t))
    else none)

/-- The oldest uncommitted window into `LHR_JOB`j`_RESUME` (R450, step 4). -/
def resumeWindow (j : Nat) (d : Die) : Die :=
  let w := redWindow d j
  let o := 0xE0100 + 8 * j
  (d.setReg o (w % 2 ^ 32)).setReg (o + 4) (w / 2 ^ 32 + 2 ^ 31)

/-- The TRAIN launches of a recovered job (R450, step 5). -/
def relaunch (j : Nat) (s : State) : State :=
  let (ok, s) := launchClass j 0 (s.modJobDies j (resumeWindow j))
  if ok then s.setJobState j 2 else s.setJobCause j .resourceExhausted

/-- The RESTORE of a job that is under way. -/
def isRestore (j : Nat) (c : Cmd) : Bool := decide (c.opcode = 0x0301) && c.begun && decide (c.payloadJob = j)

/-- The package that a running restore of a job takes its parts from: that of RESTORE, else the partner (R455,
R456). -/
def State.source (s : State) (j : Nat) : Nat :=
  match s.cmds.find? (isRestore j) with
  | some c => natAt c.payload 4 2
  | none => s.partner j

/-- Versions that a die of a job under recovery has lost are fetched, once its Lehr is free (R450, step 3). -/
def fetchLost (j : Nat) (s : State) (e : Nat × Nat) : State :=
  if (s.freshOf j).contains e.1 || !(s.die e.2).lehrWant.isEmpty then s
  else beginParts e.2 j (lostParts (s.die e.2) j (s.source j)) s

/-- A die of a job expects parts, or waits for its Lehr to ask for them. -/
def dieWaits (s : State) (j : Nat) (e : Nat × Nat) : Bool :=
  !(s.die e.2).lehrWant.isEmpty && (decide ((s.die e.2).lehrJob.toNat = j) ||
    !(lostParts (s.die e.2) j (s.source j)).isEmpty)

/-- A job that is being restored goes on once nothing more is expected (R450, R455, R82). -/
def restoreGo (j : Nat) (s : State) : State :=
  let i := s.job j
  let s := if i.restoring = 1 ∨ i.restoring = 2 then (s.jobDies j).foldl (fetchLost j) s else s
  if decide (i.restoring = 0) || (s.jobDies j).any (dieWaits s j) then s
  else
    let done := s.modJob j (fun i => { i with restoring := 0 })
    match i.restoring with
    | 1 => if (s.freshOf j).isEmpty then relaunch j done else s
    | 2 => endCmds (isRestore j) .ok ((done.modJobDies j (resumeWindow j)).setJobState j 1)
    | _ =>
      let (ok, s) := launchClass j 0 (startJob j (done.modJobDies j (resumeWindow j)))
      if ok then s.setJobState j 2 else commandReset (s.jobPart j) (s.setJobCause j .resourceExhausted)

/-- A transfer of a die has failed: the restore that it serves ends. A job under recovery stays FAULTED (R452);
RESTORE answers the status; autostart leaves the job LOADED with it (R82). -/
def restoreFailed (j : Nat) (st : Status) (s : State) : State :=
  let i := s.job j
  let s := s.modJob j (fun i => { i with restoring := 0 })
  if i.restoring = 2 then endCmds (isRestore j) st s
  else if i.restoring = 3 then s.setJobCause j st
  else s

/-- A die's transfer has ended. A new die then holds the job's state, and its programs are loaded from the
extents that have come. -/
def partsEnded (p j : Nat) (s : State) : State :=
  match statusOf ((s.die p).get ⟨0xE0010, 15, 8⟩), s.logicalOf p with
  | some .ok, some l =>
    if s.fresh.contains (l, j) then
      let progs := (entries (s.manifest j)).filter (fun e =>
        decide (natAt e 0 1 = 2) && decide (natAt e 1 1 = l))
      { (applyProgs progs s).2 with fresh := s.fresh.filter (fun e => decide (e ≠ (l, j))) }
    else s
  | some st, _ => if st = .ok then s else restoreFailed j st s
  | none, _ => s

/-- One job is recovered (R450). -/
def recoverJob (s : State) (j : Nat) : State :=
  let ls := s.freshOf j
  if decide (s.jobState j ≠ 5) || !s.auto j || decide ((s.job j).restoring ≠ 0) ||
      (s.partRows (s.jobPart j)).any s.degraded then s
  else if ls.contains (s.job j).manDie then s.setJobCause j .unreachable
  else if 3 ≤ recent s hour (s.job j).resets then s.setJobCause j .timeout
  else
    let s := reapplyDies j ls false s
    let s := s.modJob j (fun i => { i with restoring := 1 })
    let s := (ls.filterMap s.physOf).foldl (fun s p => restoreFrom (s.partner j) p j s) s
    restoreGo j s

/-- JOB_RECOVERY (R450): every job of a partition, once its dies are bound. -/
def jobRecovery (part : Nat) (s : State) : State :=
  if s.reckoner && decide (s.partState part = 1) && !s.sparing.any (fun p => (s.partPhys part).contains p) then
    (s.partJobs part).foldl recoverJob s
  else s

/-! ## RESTORE (R455) -/

/-- The logical dies that a RESTORE names, of the job's own. -/
def restoreDies (s : State) (x : Cmd) (j : Nat) : List (Nat × Nat) :=
  let mask := natAt x.payload 16 8
  (s.jobDies j).filter (fun e => decide (mask = 0) || bitOf mask e.1)

/-- The job's threads end without signalling, as R166 sets for an abandoned thread; none waits any more (R221). -/
def endThreads (j : Nat) (d : Die) : Die :=
  let rs := jobRanges d j
  let mine (t : Nat) : Bool := rs.any (fun r => inRange r t)
  let d := ((d.threads.map (·.1)).filter mine).foldl (fun d t => unblock t d) d
  ({ d with
    threads := d.threads.filter (fun e => !mine e.1),
    ops := d.ops.filter (fun o => !mine o.thread.toNat) }).put ⟨0x300 + 4 * j, 1, 1⟩ 0

/-- The object of a logical die is whole and of the window (R453, R455). -/
def retainedObject (j l w : Nat) (o : Bytes) : Bool :=
  objectOk o && decide (natAt o 7 1 = j) && decide (natAt o 10 1 = l) && decide (natAt o 12 6 = w)

/-- A die is rebuilt from its retained object (R455, STORE), whose place it may write. -/
def storeDie (j w : Nat) (s : State) (x : (Nat × Nat) × Bytes) : State :=
  let (e, o) := x
  let (l, p) := e
  let s := s.modDie p (fun d =>
    let d := (ownStages d j).foldl (fun d t =>
      let d := (List.range 8).foldl (fun d k => (d.setReg (slotReg t k) 0).setReg (slotReg t k + 4) 0) d
      d.setReg48 (verBase t + 8) (w + 1)) d
    let r := redBase j
    let d := (d.setReg48 (r + 12) (natAt o 64 6)).setReg48 (r + 20) (natAt o 72 6)
    let d := d.setReg (r + 8) (natAt o 80 2 + natAt o 82 2 <<< 16)
    (d.put ⟨r + 16, 23, 16⟩ 0).put ⟨r + 16, 24, 24⟩ (natAt o 84 1 % 2))
  let cap := sliceB o 128 1280
  let win := natAt cap 0 6
  let rest := s.captures.filter (fun c => decide (c.die ≠ l) || decide (c.window ≠ win))
  let s := showRecords l { s with captures := rest ++ [(⟨l, win, j, cap⟩ : Capture)] }
  (putObject p l j o s).2

/-- The first named die whose Lehr may not write the place of its object: the die, the half and the status. -/
def storeChk (s : State) (j : Nat) (dies : List (Nat × Nat)) : Option (Nat × Nat × Status) :=
  dies.findSome? (fun e => extentsChk (s.die e.2) j (shardPlaces s j e.1) |>.map (fun x => (e.2, x)))

/-- The memory of every place serves. -/
def storeServes (s : State) (j : Nat) (dies : List (Nat × Nat)) : Bool :=
  dies.all (fun e => lehrServes (shardPlaces s j e.1) (s.die e.2))

/-- The ledger is enabled at the job's next step (R455). -/
def enableLedger (j : Nat) (s : State) : State :=
  match if (s.job j).ledger then s.ledgerDie j else none with
  | some p => s.modDie p (fun d =>
      let d := ldgCtlWrite true (putBits (d.reg 0x92000) 0 0 0) d
      let d := (d.setReg48 0x92008 (redStep d j)).put ⟨0x9200C, 31, 16⟩ (redGen d j)
      ldgCtlWrite true (putBits (d.reg 0x92000) 0 0 1) d)
  | none => s

/-- The rebuild of a job from its retained objects of window `w`, one per named die; a job that comes back whole
is LOADED (R455). An object that is not whole, or whose place is refused, ends it before anything is done but the
record of the refusal (R15, R290). -/
def storeJob (j w : Nat) (dies : List (Nat × Nat)) (objects : List Bytes) (s : State) : Status × State :=
  if decide (objects.length ≠ dies.length) ||
      !(dies.zip objects).all (fun e => retainedObject j e.1.1 w e.2) then (.unverified, s)
  else
    match storeChk s j dies with
    | some (p, a, st) => (st, s.modDie p (fun d => regionRefused ⟨.lehr, true, d.world, j⟩ a st d))
    | none =>
      let s := (reapplyDies j (s.freshOf j) false s).modJobDies j (endThreads j)
      let s := enableLedger j ((dies.zip objects).foldl (storeDie j w) s)
      let back (e : Nat × Nat) : Bool := decide (e.2 = j) && dies.any (fun x => decide (x.1 = e.1))
      (.ok, { s with fresh := s.fresh.filter (fun e => !back e) }.setJobState j 1)

/-- RESTORE from STORE; it waits for the memory of every die that it names. -/
def restoreStore (x : Cmd) (j : Nat) (objects : List Bytes) (s : State) : State :=
  if !storeServes s j (restoreDies s x j) then s else
  let (st, s) := storeJob j (natAt x.payload 8 6) (restoreDies s x j) objects s
  answer x st s

/-- RESTORE from REPLICA: the restore of R452 on each named die begins. -/
def restoreReplica (x : Cmd) (j : Nat) (s : State) : State :=
  let s := reapplyDies j (s.freshOf j) false (s.modJobDies j (endThreads j))
  let s := (begin' x s).modJob j (fun i => { i with restoring := 2 })
  restoreGo j ((restoreDies s x j).foldl (fun s e => restoreFrom (natAt x.payload 4 2) e.2 j s) s)

/-- RESTORE (R455). -/
def restore (c : CmdId) (objects : List Bytes) (s : State) : State :=
  jobCmd c 0x0301 (·.payloadJob) [1, 3, 5] (fun x j s =>
    if (s.job j).restoring ≠ 0 then answer x .invalidState s
    else if natAt x.payload 1 1 = 1 then restoreStore x j objects s
    else restoreReplica x j s) s

end Sys2Proof.Machine
end

