-- ==== Sys2Proof/Machine/Image.lean ====
section
/-! DEFINITION. The configuration image and the firmware image: their checks and what the boot ROM takes from
them (R60 to R67, R75, R76, R288, R343, R389, R395, R404). -/

namespace Sys2Proof.Machine

/-! ## The image as the NOR holds it (R60, R62) -/

/-- Bytes of the largest image (R60). -/
def imageArea : Nat := 2 ^ 24

/-- Bytes of an XMSS-SHAKE256_20_256 signature (R403). -/
def sigBytes : Nat := 2820

/-- Check 1 of R64: `magic`, `format`, and an `image_length` that holds header and signature. -/
def headerChk (h : Bytes) : Bool :=
  decide (natAt h 0 4 = 0x49435A54) && decide (natAt h 4 2 = 1) &&
    decide (0x400 + sigBytes ≤ natAt h 8 4) && decide (natAt h 8 4 ≤ imageArea)

/-- The image as the boot ROM reads it: its header alone where that fails. -/
def norImage (nor : List Host.Cell) : Bytes :=
  let h := tabSlice norFree nor 0 0x400
  if headerChk h then tabSlice norFree nor 0 (natAt h 8 4) else h

/-! ## Sections (R62) -/

/-- A directory entry: type, version, offset, length. -/
def dirEntry (img : Bytes) (i : Nat) : Nat × Nat × Nat × Nat :=
  let o := 0x40 + 48 * i
  (natAt img o 2, natAt img (o + 2) 2, natAt img (o + 4) 4, natAt img (o + 8) 4)

/-- The directory of an image. -/
def directory (img : Bytes) : List (Nat × Nat × Nat × Nat) := tabulate (min 16 (natAt img 6 2)) (dirEntry img)

/-- Check 2: the signature under the owner key; an unprovisioned device fails every image (R393). -/
def signatureChk (otp : Option (Bytes × Bytes)) (img : Bytes) : Bool :=
  let so := natAt img 0x14 4
  match otp with
  | none => false
  | some (key, _) => decide (natAt key 0 4 = oidXmss20) &&
      xmssVerify (natAt key 0 4) (sliceB key 4 32) (sliceB key 36 32) (sliceB img 0 so)
        (sliceB img so sigBytes)

/-- Check 3: every section's digest. -/
def digestChk (img : Bytes) : Bool :=
  (List.range (min 16 (natAt img 6 2))).all (fun i =>
    let (_, _, o, n) := dirEntry img i
    decide (shake256 (sliceB img o n) = sliceB img (0x40 + 48 * i + 16) 32))

/-- The length that a section type has (R63, R65, R66, R288, R343, R389, R395). -/
def sectionLength (type : Nat) : Nat :=
  match type with
  | 1 => 72 | 2 => 64 | 3 => 8 | 4 => 32768 | 5 => 64 | 6 => 32 | 7 => 32768 | 8 => 192 | 9 => 1280 | 0xA => 16
  | 0xB => 128 | _ => 0

/-- Two extents (offset, length) share no byte. -/
def apart (a b : Nat × Nat) : Bool := decide (a.1 + a.2 ≤ b.1) || decide (b.1 + b.2 ≤ a.1)

/-- No two of a list share a byte. -/
def allApart : List (Nat × Nat) → Bool
  | [] => true
  | a :: rest => rest.all (apart a) && allApart rest

/-- The header's own part of check 4. -/
def headerLayout (img : Bytes) : Bool :=
  let n := natAt img 6 2
  decide (1 ≤ n) && decide (n ≤ 16) && decide (natAt img 0x10 2 < 2 ^ 12) && decide (natAt img 0x12 2 < 4) &&
    decide (natAt img 0x14 4 % 64 = 0) && decide (natAt img 8 4 = natAt img 0x14 4 + sigBytes) &&
    zeroAt img 0x18 40 && zeroAt img (0x40 + 48 * n) (48 * (16 - n)) && zeroAt img 0x340 192

/-- The directory's part of check 4: known types, each at most once, apart from one another, from the header
and from the signature, and the required ones. -/
def directoryLayout (img : Bytes) : Bool :=
  let es := directory img
  let types := es.map (·.1)
  es.all (fun (t, v, o, n) => decide (1 ≤ t) && decide (t ≤ 0xB) && decide (v = 1) && decide (o % 64 = 0) &&
      decide (0x400 ≤ o) && decide (o + n ≤ natAt img 0x14 4) && decide (n = sectionLength t)) &&
    (List.range es.length).all (fun i => zeroAt img (0x40 + 48 * i + 12) 4) &&
    decide types.Nodup && allApart (es.map (fun e => (e.2.2.1, e.2.2.2))) &&
    [1, 3, 4, 5, 6, 7, 8, 9, 0xA].all types.contains && (!bitOf (natAt img 0x12 2) 0 || types.contains 0xB)

/-- ELS_VENDORS (R343). -/
def vendorsOk (sec : Bytes) : Bool :=
  let valid := (List.range 16).filter (fun i => bitOf (natAt sec (80 * i + 2) 2) 0)
  (List.range 16).all (fun i =>
    if valid.contains i then decide (natAt sec (80 * i + 2) 2 = 1) && zeroAt sec (80 * i + 72) 8
    else zeroAt sec (80 * i) 80) &&
    decide ((valid.map (fun i => natAt sec (80 * i) 2)).Nodup)

/-- Reserved fields of KEYS (R395). -/
def keysOk (sec : Bytes) : Bool :=
  decide (natAt sec 0 2 = 1) && zeroAt sec 2 2 && zeroAt sec 76 4 && zeroAt sec 180 12

/-- Reserved fields of AUTOSTART (R66). -/
def autostartOk (sec : Bytes) : Bool :=
  let f (o n : Nat) : Nat := natAt sec o n
  decide (1 ≤ f 0 1) && decide (f 0 1 < 16) && decide (f 1 1 ≠ 0) &&
    (List.range 8).any (fun a => (List.range 8).any (fun n => decide (f 1 1 = (2 ^ (n + 1) - 1) * 2 ^ a))) &&
    decide (f 2 1 < 3) && decide (f 3 1 < 8) && decide (f 4 2 < 2 ^ 12) && decide (f 6 2 < 2 ^ 12) &&
    decide (f 8 8 < 2 ^ 48) && (decide (f 2 1 = 1) || decide (f 8 8 = 0)) && decide (f 20 1 < 16) &&
    decide (f 21 1 ≠ 0) && decide (f 22 2 < 2 ^ 12) && decide (f 24 1 < 64) && zeroAt sec 25 3 &&
    decide (f 28 4 < 2 ^ 29) && decide (64 ≤ f 32 4) && decide ((f 32 4 - 64) % 16 = 0) &&
    decide (f 36 2 ≠ 0) && decide (f 40 4 < 2 ^ 22) && decide (bitsOf (f 40 4) 21 15 ≤ 64) &&
    decide (f 44 2 < 2 ^ 12) && zeroAt sec 46 18

/-- The reserved encodings of the sections: the rest of check 4. -/
def sectionsOk (img : Bytes) : Bool :=
  let sec := sectionBytes img
  (sec 1).all (fun b => decide (b.toNat < 3)) && (sec 3).all (fun b => decide (b.toNat < 8)) &&
    (sec 4).all (fun b => decide (bitsOf b.toNat 6 3 = 0)) &&
    (List.range 8).all (fun n => decide (natAt (sec 5) (8 * n + 4) 1 < 8) && decide (natAt (sec 5) (8 * n + 5) 1 < 2) &&
      zeroAt (sec 5) (8 * n + 6) 2) &&
    worldsOk (sec 6) && (List.range 64).all (fun l => tableOk (tableOf (sliceB (sec 7) (512 * l) 512))) &&
    keysOk (sec 8) && vendorsOk (sec 9) &&
    (!((directory img).map (·.1)).contains 0xB || autostartOk (sec 0xB))

/-- PORTS and ROUTES (R65). -/
def portsOk (img : Bytes) : Bool :=
  let role (n : Nat) : Nat := natAt (sectionBytes img 3) n 1
  [1, 2, 3, 4].all (fun r => decide (((List.range 8).filter (fun n => decide (role n = r))).length ≤ 1)) &&
    (List.range 8).all (fun w =>
      let t := sliceB (sectionBytes img 4) (4096 * w) 4096
      t.all (fun b => !b.getLsbD 7 || decide (role (b.toNat % 8) ≠ 0)) &&
        !bitOf (natAt t (natAt img 0x10 2) 1) 7)

/-- UCIE and POWER (R66). -/
def railsOk (img : Bytes) : Bool :=
  (List.range 8).all (fun n => decide (natAt (sectionBytes img 5) (8 * n + 4) 1 ≠ 0) &&
    mvOk (natAt (sectionBytes img 0xA) (2 * n) 2))

/-- The die map and the snake (R67). -/
def mapOk (img : Bytes) : Bool :=
  let dm (p : Nat) : Nat := natAt (sectionBytes img 1) p 1
  let snake := tabulate 64 (snakeOf img)
  snake.all (fun p => decide (p < 72) && decide (dm p = 0)) && decide snake.Nodup &&
    (List.range 64).all (fun k => decide (snakeOf img k / 9 = k / 8)) &&
    (List.range 72).all (fun p => snake.contains p || decide (dm p ≠ 0))

/-- The checks of R64, in order; none: the image passes. -/
def imageChk (otp : Option (Bytes × Bytes)) (img : Bytes) : Option Status :=
  if !headerChk img then some .malformed
  else if !signatureChk otp img then some .unverified
  else if !digestChk img then some .unverified
  else if !(headerLayout img && directoryLayout img && sectionsOk img) then some .malformed
  else if !(portsOk img && railsOk img && mapOk img) then some .malformed
  else none

/-! ## What the device takes from an image (R64, R286, R389) -/

/-- The region tables of REGIONS (R288). -/
def imageRegions (img : Bytes) : Tab Word32 :=
  let sec := sectionBytes img 7
  (List.range 8192).filterMap (fun i =>
    let v := natAt sec (4 * i) 4
    if v = 0 then none else some (i, BitVec.ofNat 32 v))

/-- A verified image is kept, with its digest, and its values are in force. -/
def keepImage (img : Bytes) (s : State) : State :=
  let s := { s with
    image := img, imageDigest := shake256 (sliceB img 0 (natAt img 0x14 4)),
    worlds := worldsOf (sectionBytes img 6), regions := imageRegions img }
  imagePower (((s.put ⟨0x0, 6, 6⟩ 1).setReg 0x8 (natAt img 0xC 4)).setReg 0xC (natAt img 0x10 2))

/-- The boot ends in RECOVERY (R64, R395). -/
def enterRecovery (st : Status) (s : State) : State :=
  (((s.setBoot 2).put ⟨0x0, 15, 8⟩ st.code).put ⟨0x0, 19, 16⟩ 1).put ⟨0x0, 6, 6⟩ 0

/-- IMAGE_VERIFY (R64, R395). -/
def imageVerify (s : State) : State :=
  if s.boot ≠ 1 then s
  else
    let img := norImage s.nor
    match imageChk s.crucible.otp img with
    | some st => enterRecovery st s
    | none =>
      match takeKeys img true s with
      | some s => (keepImage img s).setBoot 3
      | none => enterRecovery .unverified s

/-! ## Firmware (R75, R76, R404) -/

/-- The signed bytes of a firmware image: header and code. -/
def fwSigned (img : Bytes) : Nat := 64 + natAt img 12 4

/-- The checks of R404. -/
def firmwareChk (keys img : Bytes) : Option Status :=
  let n := fwSigned img
  if decide (natAt img 0 4 ≠ 0x57465A54) || decide (natAt img 4 2 ≠ 1) || !zeroAt img 6 2 ||
      decide (natAt img 12 4 % 64 ≠ 0) || decide (img.length ≠ n + sigBytes) || decide (2 ^ 23 < img.length) ||
      !zeroAt img 20 44 then some .malformed
  else if !(decide (natAt keys 8 4 = oidXmss20) &&
      xmssVerify (natAt keys 8 4) (sliceB keys 12 32) (sliceB keys 44 32) (sliceB img 0 n) (img.drop n)) then
    some .unverified
  else if natAt img 8 4 < natAt keys 4 4 then some .unverified
  else none

end Sys2Proof.Machine
end

