-- ==== Sys2Proof/Machine/Boot.lean ====
section
/-! DEFINITION. Power-up and the boot up to FW_START: pins, DIES, MEMORY, the light engines and the boot
commands (R54 to R59, R68 to R79, R309, R393). -/

namespace Sys2Proof.Machine

/-! ## Starts (R54, R56, R58) -/

/-- An IMAGE_WRITE that is cut short leaves no image in the NOR (R79): it has erased the old one and not finished
the new one (DEDUCED, log 65). -/
def breakWrite (s : State) : State :=
  if (decide (s.boot = 2) || decide (s.boot = 8)) && s.cmds.any (fun c => decide (c.opcode = 0x0202)) then
    { s with nor := tabDrop s.nor 0 imageArea }
  else s

/-- What a cold start leaves: pins, clocks and comparators, the NOR and one-time storage, lives, bays and
retained copies stay; every die and engine is off, every laser dark, and the management, Crucible and host domains
are as After reset but for `COLD_STARTS` (R58, R78, R83, R409). -/
def coldClear (s : State) : State :=
  let s := baysCold (breakWrite s)
  let cold := s.get ⟨0x4, 15, 0⟩
  let s := s.modDies (List.range 72) (fun d => { offDie d with wdogAt := [], haltAt := [], object := none, unsent := false })
  let s := (((s.resetRegs 0 0x10000).resetRegs 0x10000 0x10100).resetRegs 0x30000 0x30050).put ⟨0x4, 15, 0⟩ cold
  { s with
    fwWaiting := false, worlds := {}, crucible := { otp := s.crucible.otp }, binds := [], regions := [],
    sparing := [], retired := [], fresh := [], jobs := [], autostart := false, captures := [], jobRecs := [],
    regRecs := [], engines := [], fns := [], cmds := [], fills := [], binding := [] }

/-- A cold start: a new session, and the boot ROM in IMAGE (R54, R56). -/
def coldStart (s : State) : State :=
  let s := coldClear s
  cruStart ((s.put ⟨0x4, 15, 0⟩ (min (s.get ⟨0x4, 15, 0⟩ + 1) 0xFFFF)).setBoot 1)

/-- The 64 lives that 256 bits of entropy fill (R199). -/
def livesOf (x : Nat) : Tab (BitVec 4) :=
  (List.range 64).filterMap (fun l =>
    let v := bitsOf x (4 * l + 3) (4 * l)
    if v = 0 then none else some (l, BitVec.ofNat 4 v))

/-- VDD_AON_APPLY (R56, steps 1 and 2): nothing is left but non-volatile storage, one-time storage, the modules
in their bays, and what the device has given to the outside. -/
def vddAonApply (s : State) : State :=
  let x := (Config.entropy s.free).toNat + (Config.entropy (s.free + 1)).toNat <<< 128
  let views := (s.bays.map (fun b => (b.1, ({ view := b.2.view, fault := b.2.fault } : Bay)))).filter
    (fun b => decide (b.2 ≠ {}))
  let s' : State := {
    pending := s.pending, pins := { vddAon := true }, nor := (breakWrite s).nor, crucible := { otp := s.crucible.otp },
    bays := views, outputs := s.outputs, nextCmd := s.nextCmd, free := s.free + 2, lives := livesOf x }
  (List.range 8).foldl (fun t k => setBayBit k 3 (s.flag (bayReg k) 3) t) s'

/-- SYS_RST_RELEASE (R56, steps 5 and 6), with SYS_PWROK asserted. -/
def sysRstRelease (s : State) : State :=
  if s.pins.vddAon && !s.pins.rstReleased then
    coldStart { s with pins := { s.pins with pwrok := true, rstReleased := true } }
  else s

/-- SYS_RST_ASSERT (R58). -/
def sysRstAssert (s : State) : State :=
  if s.pins.rstReleased then coldClear { s with pins := { s.pins with rstReleased := false } } else s

/-- SYS_PWROK_DEASSERT (R58): as SYS_RST# asserted. -/
def sysPwrokDeassert (s : State) : State :=
  let s := sysRstAssert s
  { s with pins := { s.pins with pwrok := false } }

/-! ## DIES (R68 to R70) -/

/-- The value of a physical die in DIE_MAP (R63): 0 ACTIVE, 1 SPARE, 2 RETIRED. -/
def State.dieMap (s : State) (p : Nat) : Nat := natAt (sectionBytes s.image 1) p 1

/-- A logical number takes a die at its switch-on or as a spare: the life advances (R199). -/
def takeNumber (l p : Nat) (s : State) : State := bindDie l p (advanceLife l s)

/-- A tested die is switched on or off as R69 sets; `ok`: it passed, `router`: its router did. -/
def bootDie (ok router : Nat → Bool) (s : State) (p : Nat) : State :=
  let s := s.modDie p (fun d => { d with routerOk := router p && decide (s.dieMap p ≠ 2) })
  if s.dieMap p = 2 then s.setDieState p 3
  else if ok p then
    if s.dieMap p = 0 then powerOn .active 720 p (s.setDieState p 0) else powerOn .routeOnly 720 p (s.setDieState p 1)
  else
    let s := { s with retired := (s.retired.filter (fun x => decide (x ≠ p))) ++ [p] }
    if router p then powerOn .routeOnly 720 p (s.setDieState p 2) else s.setDieState p 3

/-- The boot die map of a row: one failed die is replaced by a spare that passed; else a failure degrades it. -/
def bootRow (ok router : Nat → Bool) (s : State) (m : Nat) : State :=
  let dies := rowPhys m
  let s := dies.foldl (bootDie ok router) s
  let failed := dies.filter (fun p => decide (s.dieMap p = 0) && !ok p)
  let spare := dies.find? (fun p => decide (s.dieMap p = 1) && ok p)
  let number (f : Nat → Nat) (s : State) : State :=
    (rowLogical m).foldl (fun s l => takeNumber l (f (snakeOf s.image l)) s) s
  match failed, spare with
  | [], _ => if s.degraded m then s else number id s
  | [x], some q =>
    if s.degraded m then s
    else number (fun p => if p = x then q else p) (powerOn .active 720 q (s.setDieState q 0))
  | _, _ => degradeRow m s

/-- DIES_BOOT (R68 to R70): the dies that answered, those that passed every test, and the routers that passed
their own. With no router of P3, P4 and P5 the boot ends in HALTED. -/
def diesBoot (answered passed router : BitVec 72) (s : State) : State :=
  if s.boot ≠ 3 then s
  else
    let live (p : Nat) : Bool := answered.getLsbD p && !s.retired.contains p && !(s.die p).clkLost
    let ok (p : Nat) : Bool := live p && passed.getLsbD p && router.getLsbD p
    let fwd (p : Nat) : Bool := live p && router.getLsbD p && decide (s.dieMap p ≠ 2)
    if !([3, 4, 5].any fwd) then halt .unreachable 3 s
    else (writeRoutes ((List.range 8).foldl (bootRow ok fwd) s)).setBoot 4

/-- DIE_ANSWER_TIMEOUT (R68): the die has failed the boot, as R69 then sets; in a warm start it is spared. -/
def bootAnswerTimeout (p : Nat) (s : State) : State :=
  if s.boot = 3 then { s with retired := (s.retired.filter (fun x => decide (x ≠ p))) ++ [p] }
  else if s.boot = 0xA ∧ (s.logicalOf p).isSome ∧ !s.sparing.contains p then
    { s with sparing := s.sparing ++ [p], retired := s.retired ++ [p] }
  else s

/-! ## Light engines (R73, R74, R309) -/

/-- A die may carry a port: it is active and holds a logical number. -/
def mayCarry (s : State) (p : Nat) : Bool := decide ((s.die p).run = .active) && (s.logicalOf p).isSome

/-- Port `n` is carried by die `p`; `alt`: by the alternate die or its module. -/
def carry (n p : Nat) (alt : Bool) (rate : Nat) (s : State) : State :=
  let narrow := decide (rate < 3)
  let s := s.put ⟨0x48, 4 * n + 3, 4 * n⟩ (rate + bit narrow <<< 2 + bit alt <<< 3)
  s.modDie p (fun d => modWlk (fun w => { w with narrow := narrow })
    ((d.put ⟨0xD0000, 3, 3⟩ 1).put ⟨0xD0000, 7, 7⟩ (bit alt)))

/-- The outcome of R74 at a negotiated rate, with the modules that trained. -/
def engineUp (n rate : Nat) (primary alternate : Bool) (s : State) : State :=
  let (p, q) := portDies n
  let s := s.put ⟨0x48, 4 * n + 3, 4 * n⟩ 0
  if rate = 0 then s.setEngine n { on := true }
  else if primary && mayCarry s p then
    carry n p false rate (s.setEngine n { on := true, rate := rate, alternateOk := alternate && mayCarry s q })
  else if alternate && mayCarry s q then carry n q true rate (s.setEngine n { on := true, rate := rate })
  else s.setEngine n { on := true, rate := rate }

/-- The highest rate of two masks: 1, 2, 3 for 16, 24, 32 GT/s, 0 for none (R73, step 5). -/
def bestRate (m : Nat) : Nat := if bitOf m 2 then 3 else if bitOf m 1 then 2 else if bitOf m 0 then 1 else 0

/-- The image allows lane repair for an engine (R66, R73). -/
def State.laneRepair (s : State) (n : Nat) : Bool := bitOf (natAt (sectionBytes s.image 5) (8 * n + 5) 1) 0

/-- A module that trains, `repair`: only with lane repair, comes up where the image allows that (R73). -/
def State.moduleUp (s : State) (n : Nat) (trains repair : Bool) : Bool := trains && (!repair || s.laneRepair n)

/-- ENGINE_BRINGUP (R73, R74): the identifiers and rates that the engine reports, the modules that train, and which
of them need lane repair for it. -/
def engineBringup (n vendor device caps : Nat) (primary alternate primaryRepair alternateRepair : Bool)
    (s : State) : State :=
  if s.boot ≠ 4 ∧ s.boot ≠ 5 then s
  else
    let e := sliceB (sectionBytes s.image 5) (8 * n) 8
    let s := [(portDies n).1, (portDies n).2].foldl (fun s p =>
      if wlkCarries (s.die p) then s.modDie p (fun d => (d.put ⟨0xD0000, 3, 3⟩ 0).put ⟨0xD0000, 7, 7⟩ 0) else s) s
    if natAt e 0 2 ≠ vendor ∨ natAt e 2 2 ≠ device then (s.put ⟨0x48, 4 * n + 3, 4 * n⟩ 0).setEngine n {}
    else engineUp n (bestRate (natAt e 4 1 &&& caps)) (s.moduleUp n primary primaryRepair)
      (s.moduleUp n alternate alternateRepair) s

/-! ## MEMORY (R71) -/

/-- A die whose channels have trained on a cold start: temperatures read, packages cleared, and the memory of a
die that is not active in self-refresh. -/
def memoryUp (readouts : Bytes) (d : Die) : Die :=
  let temp (i : Nat) (d : Die) : Die :=
    match readouts[2 * d.phys + i]? with
    | some v => dieTempReadout (decide (i = 1)) v.toNat d
    | none => d
  mcReady (decide (d.run ≠ .active)) (temp 1 (temp 0 { d with lpddr := [], lpMarks := [] }))

/-- A die with a channel that fails training fails the boot (R71, R69); `trained`: the dies whose memory is up,
with their readouts. A port that it carries moves to the alternate die (R309). -/
def memoryFail (trained : Nat → Bool) (readouts : Bytes) (s : State) (p : Nat) : State :=
  let carried := wlkCarries (s.die p)
  let s := { s with retired := (s.retired.filter (fun x => decide (x ≠ p))) ++ [p] }
  let s := match s.logicalOf p with
    | none => putDown p s
    | some l =>
      match (s.spareOf (p / 9)).filter trained with
      | none => putDown p (degradeRow (p / 9) s)
      | some q =>
        let s := (powerOn .active 720 q ((putDown p s).setDieState q 0)).modDie q (memoryUp readouts)
        takeNumber l q s
  match if carried then portOfDie p else none with
  | none => s
  | some n =>
    let e := s.engine n
    if (portDies n).1 = p ∧ e.alternateOk ∧ mayCarry s (portDies n).2 then carry n (portDies n).2 true e.rate s
    else s.put ⟨0x48, 4 * n + 3, 4 * n⟩ 0

/-- MEMORY_BOOT (R71): the dies whose channels all train, and the temperature readouts, two bytes per physical
die. The device goes to FW_WAIT, or to FW_START with firmware already held (R76). -/
def memoryBoot (trained : BitVec 72) (readouts : Bytes) (s : State) : State :=
  if s.boot ≠ 4 then s
  else
    let on := (List.range 72).filter (fun p => decide ((s.die p).run ≠ .off))
    let s := s.modDies (on.filter (fun p => trained.getLsbD p)) (memoryUp readouts)
    let s := (on.filter (fun p => !trained.getLsbD p)).foldl (memoryFail (fun p => trained.getLsbD p) readouts) s
    let s := writeRoutes s
    if s.fwWaiting then { s with fwWaiting := false }.setBoot 6 else s.setBoot 5

/-! ## Boot commands (R75 to R77, R79, R393) -/

/-- A boot command in progress: it names the host buffer of its payload. -/
def bootCmd (pkt : Bytes) (s : State) : Cmd :=
  { id := s.nextCmd, fn := 0, queue := 0, boot := true, opcode := natAt pkt 0 2, irq := false, resdev := false,
    fscope := 0, partition := 0xFF, cookie := BitVec.ofNat 64 (natAt pkt 32 8), src := natAt pkt 64 8,
    srcLen := natAt pkt 72 4, payload := pkt.drop 64, result := 0, resultLen := 0, imm := 0, world := true,
    attach := (s.fn 0).attach, begun := false, die := 0x7F, slot := none }

/-- The packet of a boot command is checked, and the command begins or is answered (R75, R393, R400). -/
def bootPacket (pkt : Bytes) (s : State) : State :=
  let op := natAt pkt 0 2
  let (st, s) := if op = 0x0210 then (if packetOk .bootPage pkt then none else some Status.malformed, s)
    else critChk .bootPage pkt s
  match st with
  | some st => bootAnswer st s
  | none =>
    if op = 0x0201 ∨ op = 0x0202 ∨ op = 0x0210 then
      let s := s.put ⟨0x2C, 8, 8⟩ 1
      { s with nextCmd := s.nextCmd + 1, cmds := s.cmds ++ [bootCmd pkt s] }
    else bootAnswer .invalidState s

/-- BOOT_DOORBELL (R75, R77): the packet at the stored address is fetched; none: the read got no completion
(R354). -/
def bootDoorbell (pkt : Option Bytes) (s : State) : State :=
  if !s.hostLink || s.flag 0x2C 8 then s
  else match pkt with
    | none => bootAnswer .timeout s
    | some pkt => bootPacket pkt s

/-- The boot command in progress of an opcode. -/
def State.bootCmd? (s : State) (op : Nat) : Option Cmd := s.cmds.find? (fun c => c.boot && decide (c.opcode = op))

/-- Verified firmware is kept (R75, step 7; R76). -/
def keepFirmware (img : Bytes) (s : State) : State :=
  let s := { s with firmware := img, fwDigest := shake256 (sliceB img 0 (fwSigned img)) }.put ⟨0x0, 5, 5⟩ 1
  if s.boot = 5 then s.setBoot 6 else { s with fwWaiting := true }

/-- FIRMWARE_LOAD (R75, R76, R404): `img` is the firmware image that the payload names. -/
def firmwareLoad (img : Bytes) (s : State) : State :=
  match s.bootCmd? 0x0201 with
  | none => s
  | some c =>
    if s.boot < 3 ∨ 5 < s.boot ∨ s.flag 0 5 then answer c .invalidState s
    else if img.length ≠ c.srcLen ∨ !s.current c then s
    else
      match firmwareChk (sectionBytes s.image 8) img with
      | some st => answer c st s
      | none => answer c .ok (keepFirmware img s)

/-- PROVISION (R393): one-time storage is written, and a cold boot begins from IMAGE. -/
def provision (s : State) : State :=
  match s.bootCmd? 0x0210 with
  | none => s
  | some c =>
    if s.provisioned then answer c .invalidState s
    else coldStart (answer c .ok { s with crucible :=
      { s.crucible with otp := some (sliceB c.payload 0 68, sliceB c.payload 68 32) } })

/-- IMAGE_WRITE (R79): `img` is the new image that the payload names. -/
def imageWrite (boot : Bool) (c : CmdId) (img : Bytes) (s : State) : State :=
  s.onCmd c 0x0202 (fun x s =>
    if x.boot ≠ boot then s
    else if s.boot ≠ 2 ∧ s.boot ≠ 8 then answer x .invalidState s
    else if img.length ≠ natAt x.payload 8 4 ∨ !s.current x then s
    else
      let s := { s with nor := tabPut norFree (tabDrop s.nor 0 imageArea) 0 img }
      match imageChk s.crucible.otp (norImage s.nor) with
      | some st => answer x st s
      | none => if s.boot = 2 then coldStart (answer x .ok s) else answer x .ok s)

end Sys2Proof.Machine
end

