-- ==== Sys2Proof/Machine/Hook.lean ====
section
/-! DEFINITION. What follows a command at a die: the Lehr's pending op, parison pins, records, faults, and the
host commands and jobs that waited for a thread or a transfer to end. -/

namespace Sys2Proof.Machine

/-- The jobs of R414. -/
def jobNumbers : List Nat := (List.range 15).map (· + 1)

/-- The commands and events of one job that wait for its dies. -/
def jobGo (s : State) (j : Nat) : State :=
  if decide (s.jobState j = 0) || decide (s.partState (s.jobPart j) ≠ 1) then s
  else evalPinGo j (kernelGo j (evalGo j (unloadGo j (restoreGo j (drainGo j s)))))

/-- Those of every job. -/
def jobsGo (s : State) : State := if s.reckoner then jobNumbers.foldl jobGo s else s

/-- A registry record (R451): the LIVE slots of a die, with neither references nor pins, and `LAST_COMMIT` of
its stages. -/
def registryNow (d : Die) : List (Nat × Word32) :=
  (List.range 4).flatMap (fun t =>
    ((List.range 8).filter (fun k => decide (slotState d t k = 4))).map (fun k =>
      (slotReg t k, BitVec.ofNat 32 (4 + slotNumber d t k <<< 8))) ++
    (if verCommitValid d t then [(verBase t + 0x10, BitVec.ofNat 32 (d.get ⟨verBase t + 0x10, 24, 16⟩ <<< 16))]
     else []))

/-- The eight words of `RED_JOB`j. -/
def redWords (d : Die) (j : Nat) : List Word32 := tabulate 8 (fun i => BitVec.ofNat 32 (d.reg (redBase j + 4 * i)))

/-- The Lehr of a die copies what has changed into the records of R451. -/
def keepRecords (p l : Nat) (old : Die) (s : State) : State :=
  let d := s.die p
  let s := if registryNow d = registryNow old then s
    else { s with regRecs := tabSet (fun _ => []) s.regRecs l (registryNow d) }
  jobNumbers.foldl (fun s j =>
    if redWords d j ≠ redWords old j ∧ ((s.jobDies j).head?.map (·.1)) = some l then
      { s with jobRecs := tabSet (fun _ => []) s.jobRecs j (redWords d j) }
    else s) s

/-- Threads of jobs that have faulted since `old`, with their job and status. -/
def newFaults (old d : Die) : List (Nat × Status) :=
  (d.threads.filter (fun e => decide (e.2.st = .faulted) &&
    decide ((old.thread (BitVec.ofNat 11 e.1)).st ≠ .faulted))).map
      (fun e => ((d.threadJob (BitVec.ofNat 11 e.1)).toNat, e.2.last))

/-- A thread of jobs 1 to 15 has faulted (R419, R440): a RUNNING job goes FAULTED with the thread's status, and the
partition of the die is reset. -/
def faultsGo (p : Nat) (old : Die) (s : State) : State :=
  let fs := (newFaults old (s.die p)).filter (fun f => decide (f.1 ≠ 0))
  if fs.isEmpty || !s.reckoner then s
  else
    triggerDie 2 p (fs.foldl (fun s f =>
      if s.jobState f.1 = 2 then (s.setJobState f.1 5).setJobCause f.1 f.2 else s) s)

/-- The Lehr's transfer of a die has ended since `old`. -/
def transferGo (p : Nat) (old : Die) (s : State) : State :=
  if !old.lehrWant.isEmpty && (s.die p).lehrWant.isEmpty then partsEnded p old.lehrJob.toNat s else s

/-- The die's uncorrectable errors have risen by 16 within the patrol period (R444): trigger SPARE. -/
def wornGo (p : Nat) (old : Die) (s : State) : State :=
  let d := s.die p
  let high (d' : Die) : Bool := decide (d.patrol.2 + 16 ≤ ueCount d')
  if s.reckoner && high d && !high old then triggerDie 6 p s else s

/-- What follows a command at die `p` that stood at `old` before it. -/
def afterDie (p : Nat) (old : Die) (s : State) : State :=
  let s := (lehrAct p s).modDie p lehrGoOut
  let s := match s.logicalOf p with
    | some l => keepRecords p l old (jobNumbers.foldl (fun s j => pinParisons p l j s) s)
    | none => s
  jobsGo (wornGo p old (faultsGo p old (transferGo p old s)))

/-- A command acts on the block at a die. -/
def State.atDie (s : State) (p : PDie) (f : State → State) : State :=
  let s := s.modDie p patrolNow
  afterDie p (s.die p) (f s)

/-- A command acts on the block at an active die; the units of any other die are held in reset or without power
(R20, R46). -/
def State.atActive (s : State) (p : PDie) (f : State → State) : State :=
  if (s.die p).run = .active then s.atDie p f else s

/-- A command acts on an active die. -/
def State.onDie (s : State) (p : PDie) (f : Die → Die) : State := s.atActive p (fun s => s.modDie p f)

/-- A die's port sends (R340): not while its engine is dark. -/
def State.sendPort (s : State) (p : PDie) (f : Die → Die) : State := if s.darkDie p then s else s.onDie p f

/-- What the always-on domain does, it does under power (R46, R56). -/
def State.powered (s : State) (f : State → State) : State := if s.pins.vddAon then f s else s

end Sys2Proof.Machine
end

