-- ==== Sys2Proof/Machine/Mailbox.lean ====
section
/-! DEFINITION. The firmware mailbox (R380, R381, R383, R384, R456). -/

namespace Sys2Proof.Machine

/-- `MBX_ARG`n. -/
def Fn.arg (x : Fn) (n : Nat) : Nat := x.reg (0x100104 + 4 * n)
/-- `OP`. -/
def Fn.mbxOp (x : Fn) : Nat := bitsOf (x.reg 0x100100) 15 0
/-- `BUSY`. -/
def Fn.mbxBusy (x : Fn) : Bool := bitOf (x.reg 0x100128) 8

/-- The Reckoner answers a mailbox operation (R380): the answer words it has, the status, the interrupt. -/
def mbxAnswer (f : FnId) (st : Status) (resp : List Nat) (s : State) : State :=
  let s := s.modFn f (fun x =>
    let x := resp.zipIdx.foldl (fun x e => x.setReg (0x100130 + 4 * e.2) e.1) x
    x.setReg 0x100128 (st.code + bitsOf (x.reg 0x100100) 31 16 <<< 16))
  if bitOf ((s.fn f).reg 0x1004) 4 then s.output (.msix f 0) else s

/-- A submitted operation of one kind is carried out. -/
def mbx (f : FnId) (op : Nat) (k : Fn → State → State) (s : State) : State :=
  let x := s.fn f
  if s.reckoner && x.mbxBusy && decide (x.mbxOp = op) then k x s else s

/-- A status alone. -/
def mbxEnd (f : FnId) (st : Status) (s : State) : State := mbxAnswer f st [] s

/-- The logical die belongs to the function's partition; for the PF, to any formed one (R358, R381). -/
def fnDie (s : State) (f l : Nat) : Bool :=
  match s.rowPart (l / 8) with
  | some p => decide (l < 64) && (decide (f = 0) || decide (p + 1 = f))
  | none => false

/-! ## Rings -/

/-- Address named by two argument words. -/
def Fn.argAddr (x : Fn) (n : Nat) : Nat := x.arg n + x.arg (n + 1) <<< 32

/-- The arguments of REGISTER_RING hold a reserved or illegal value (R381). -/
def ringArgsBad (f : Nat) (x : Fn) : Bool :=
  let a := x.arg 0
  let log := bitsOf a 8 4
  decide (a / 2 ^ 18 ≠ 0) || decide (log < 4) || decide (16 < log) || decide (x.argAddr 1 % 4096 ≠ 0) ||
    (decide (f ≠ 0) && bitOf a 17 && decide (32 ≤ bitsOf a 16 9)) ||
    (decide (8 ≤ bitsOf a 3 0) &&
      (decide (x.arg 3 / 2 ^ 12 ≠ 0) || decide (bitsOf (x.arg 3) 3 0 = 0) || decide (x.arg 4 / 2 ^ 29 ≠ 0) ||
        decide (x.arg 5 / 2 ^ 24 ≠ 0) || decide (bitsOf (x.arg 5) 15 0 < 2) || decide (bitsOf (x.arg 5) 23 16 = 0)))

/-- A ring starts ACTIVE with all indices at 0. -/
def startRing (r : Nat) (x : Fn) : Fn :=
  let a := x.arg 0
  let ring : Ring := ⟨bitsOf a 8 4, x.argAddr 1, if bitOf a 17 then some (bitsOf a 16 9) else none⟩
  let x := { x with rings := tabSet (fun _ => {}) x.rings r ring }
  (((x.setReg (ringOff r) 0).setReg (ringOff r + 4) 0).setReg (ringOff r + 8) 1).setReg (ringOff r + 12) 0

/-- The binding that a registration makes, or the one of the same job that it continues (R377, R384). With no
descriptor delivered since the last commit, the first required is micro-batch 0 of window `w`, the oldest that is
not committed (DEDUCED, log 59). -/
def newBinding (s : State) (f i l b j w : Nat) (x : Fn) : Binding :=
  let args := (64 * x.arg 4, bitsOf (x.arg 5) 15 0, bitsOf (x.arg 5) 23 16 + 1)
  match (s.binding? l b).filter (fun y => decide (y.job = j)) with
  | some y => { y with base := args.1, units := args.2.1, slots := args.2.2, skip := y.seen, lastWindow := 0,
                       first := if y.seen.isEmpty && y.first.isNone then some (w, 0) else y.first,
                       ring := some (f, i) }
  | none => { die := l, b := b, job := j, base := args.1, units := args.2.1, slots := args.2.2, wins := [],
              seen := [], skip := [], first := some (w, 0), lastWindow := 0, ring := some (f, i) }

/-- The ring checks of REGISTER_RING (R381). -/
def ringBusy (r : Nat) (x : Fn) : Bool :=
  decide (x.ringState r ≠ 0) || (decide (r < 4) && decide (x.ringState (4 + r) ≠ 1))

/-- Registration of IN ring `i` (R377, R381, R384), in the order of R367: partition, world, states, and the region
of the staging ring. The answer names the first descriptor required. -/
def registerIn (f : FnId) (i : Nat) (x : Fn) (s : State) : State :=
  let w := x.arg 3
  let (j, l, b) := (bitsOf w 3 0, bitsOf w 9 4, bitsOf w 11 10)
  if !fnDie s f l then mbxEnd f .malformed s
  else
    let busy := ringBusy (8 + i) x || (s.binding? l b).any (fun y => y.ring.isSome)
    match s.physOf l with
    | none => mbxEnd f (if busy then .invalidState else .unreachable) s
    | some p =>
      let y := newBinding s f i l b j (redWindow (s.die p) j) x
      let req : Req := ⟨.host, true, s.fnWorld f, 0⟩
      let chk := regionChk (s.die p) req y.base (y.slotBytes * y.slots)
      if busy && decide (chk ≠ some .worldViolation) then mbxEnd f .invalidState s
      else match chk with
        | some st => mbxEnd f st (s.modDie p (regionRefused req y.base st))
        | none =>
          let key := y.expect.getD (0, 0)
          mbxAnswer f .ok [key.1 % 2 ^ 32, key.1 / 2 ^ 32, key.2] ((s.setBinding y).modFn f (startRing (8 + i)))

/-- REGISTER_RING. -/
def registerRing (f : FnId) (s : State) : State :=
  mbx f 1 (fun x s =>
    let r := bitsOf (x.arg 0) 3 0
    if ringArgsBad f x then mbxEnd f .malformed s
    else if 8 ≤ r then registerIn f (r - 8) x s
    else if ringBusy r x then mbxEnd f .invalidState s
    else mbxEnd f .ok (s.modFn f (startRing r))) s

/-- Commands of a queue that have been fetched and not completed. -/
def queueBusy (s : State) (f q : Nat) : Bool :=
  (s.cmds ++ s.fills.map (·.1)).any (fun c => decide (c.fn.val = f) && decide (c.queue.toNat = q) && !c.boot) ||
    !(tabGet (fun _ => []) (s.fn f).finished q).isEmpty

/-- UNREGISTER_RING: of a CMD ring, once its fetched commands have completed. -/
def unregisterRing (f : FnId) (s : State) : State :=
  mbx f 2 (fun x s =>
    let r := x.arg 0
    if 16 ≤ r then mbxEnd f .malformed s
    else if 4 ≤ r ∧ r < 8 ∧ x.ringState (r - 4) ≠ 0 then mbxEnd f .invalidState s
    else if r < 4 ∧ queueBusy s f r then s
    else
      let s := s.modFn f (fun x =>
        ({ x with rings := tabSet (fun _ => {}) x.rings r {} }).setReg (ringOff r + 8) 0)
      let s := { s with binding := s.binding.map (fun b =>
        if b.ring = some (f.val, r - 8) ∧ 8 ≤ r then { b with ring := none } else b) }
      mbxEnd f .ok s) s

/-! ## Windows (R358) -/

/-- MAP_WINDOW. -/
def mapWindow (f : FnId) (s : State) : State :=
  mbx f 3 (fun x s =>
    let a := x.arg 0
    let i := bitsOf a 5 0
    if decide (2 ^ 18 ≤ a) || decide (winEntries f ≤ i) || !fnDie s f (bitsOf a 11 6) then mbxEnd f .malformed s
    else
      let w : Window := ⟨bitsOf a 11 6, bitsOf a 16 12, bitOf a 17⟩
      mbxEnd f .ok (s.modFn f (fun x =>
        { x with windows := tabSet (fun _ => none) x.windows i (some w) }))) s

/-- UNMAP_WINDOW. -/
def unmapWindow (f : FnId) (s : State) : State :=
  mbx f 4 (fun x s =>
    let i := x.arg 0
    if winEntries f ≤ i then mbxEnd f .malformed s
    else mbxEnd f .ok (s.modFn f (fun x =>
      { x with windows := tabSet (fun _ => none) x.windows i none }))) s

/-! ## Undelivered records (R383) -/

/-- Data bytes of a record. -/
def ResultData.size : ResultData → Nat
  | .none => 0
  | .bytes bs => bs.length
  | .lpddr _ _ n => n

/-- A record as 32 bytes (R383). -/
def recordBytes (r : Undelivered) : Bytes :=
  leBytes 8 r.fin.cookie.toNat ++ leBytes 2 r.fin.opcode ++ leBytes 1 r.fin.status.code ++ leBytes 1 r.queue ++
    leBytes 4 r.fin.data.size ++ leBytes 8 r.fin.extra.toNat ++ leBytes 4 r.id ++ leBytes 4 0

/-- QUERY_UNDELIVERED. -/
def queryUndelivered (f : FnId) (s : State) : State :=
  mbx f 5 (fun x s =>
    match x.records[x.arg 0]? with
    | none => mbxEnd f .malformed s
    | some r => mbxAnswer f .ok (tabulate 8 (fun i => natAt (recordBytes r) (4 * i) 4)) s) s

/-- The record's completion is queued and not yet written. -/
def Fn.inFlight (x : Fn) (id : Nat) : Bool :=
  x.finished.any (fun e => e.2.any (fun y => decide (y.record = some id) && decide (y.attach = x.attach)))

/-- A record that REDELIVER and DISCARD_UNDELIVERED may name: not one whose completion is on its way (DESIGN
CHOICE, log 59). -/
def Fn.freeable (x : Fn) (id : Nat) : Option Undelivered :=
  if x.inFlight id then none else x.records.find? (fun r => decide (r.id = id))

/-- REDELIVER: the data goes to the new address, and the completion joins those of its queue with `REDELIVERED`
set; the record is freed once that is written. -/
def redeliver (f : FnId) (s : State) : State :=
  mbx f 6 (fun x s =>
    let addr := x.argAddr 1
    match x.freeable (x.arg 0) with
    | none => mbxEnd f .malformed s
    | some r =>
      if decide (addr % 64 ≠ 0) || (decide (r.fin.data.size = 0) != decide (addr = 0)) then mbxEnd f .malformed s
      else if x.ringState (4 + r.queue) ≠ 1 then mbxEnd f .invalidState s
      else
        if !resultServes r.fin.data s then s else
        let (bs, s) := resultBytes r.fin.data s
        mbxEnd f .ok (complete f r.queue
          { r.fin with redelivered := true, attach := x.attach, data := .none, record := some r.id }
          (hostWrite f addr bs true s))) s

/-- DISCARD_UNDELIVERED. -/
def discardUndelivered (f : FnId) (s : State) : State :=
  mbx f 7 (fun x s =>
    if (x.freeable (x.arg 0)).isSome then mbxEnd f .ok (freeRecord f (x.arg 0) s)
    else mbxEnd f .malformed s) s

/-! ## Registers, modules, recovery -/

/-- READ_REG (R361, R391): PF only. -/
def readReg (f : FnId) (s : State) : State :=
  mbx f 8 (fun x s =>
    if f ≠ 0 ∨ 72 ≤ x.arg 0 then mbxEnd f .malformed s
    else mbxAnswer f .ok [s.peek f (x.arg 0) (x.arg 1)] s) s

/-- ELS_RELEASE (R349): PF only. -/
def elsRelease (f : FnId) (s : State) : State :=
  mbx f 9 (fun x s =>
    if f ≠ 0 ∨ 8 ≤ x.arg 0 then mbxEnd f .malformed s
    else
      let (st, s) := askRelease (x.arg 0) (s.usageOk (x.arg 0)) s
      mbxEnd f st s) s

/-- The recovery settings of a job are applied (R456, R460). -/
def setRecovery (j : Nat) (auto export_ : Bool) (partner store parison eval_ mib kib rod : Nat) (s : State) : State :=
  let s := s.setReg (recoveryReg j) (partner + store <<< 12 + bit auto <<< 24 + bit export_ <<< 25)
  let s := (s.setReg (0x280 + 4 * j) (parison + eval_ <<< 16)).setReg (0x2C0 + 4 * j) (mib + kib <<< 15)
  s.modJob j (fun i => { i with rod := some rod })

/-- `LHR_CTL` of every die of a job (R456). -/
def writeRods (j : Nat) (s : State) : State :=
  match (s.job j).rod with
  | some r => s.modJobDies j (fun d => d.put ⟨0xE0000, 12, 0⟩ (r + 2 ^ 12))
  | none => s

/-- RECOVERY_SET (R456). -/
def recoverySet (f : FnId) (s : State) : State :=
  mbx f 0x301 (fun x s =>
    let (a, b, c, u, r) := (x.arg 0, x.arg 1, x.arg 2, x.arg 3, x.arg 4)
    let j := bitsOf a 3 0
    if decide (2 ^ 6 ≤ a) || decide (j = 0) || decide (bitsOf b 15 12 ≠ 0) || decide (bitsOf b 31 28 ≠ 0) ||
        decide (bitsOf c 15 0 = 0) || decide (2 ^ 22 ≤ u) || decide (64 < bitsOf u 21 15) || decide (2 ^ 12 ≤ r) then
      mbxEnd f .malformed s
    else if s.jobState j = 0 then mbxEnd f .invalidState s
    else if f.val ≠ 0 ∧ s.jobPart j + 1 ≠ f.val then mbxEnd f .malformed s
    else mbxEnd f .ok (writeRods j (setRecovery j (bitOf a 4) (bitOf a 5) (bitsOf b 11 0) (bitsOf b 27 16)
      (bitsOf c 15 0) (bitsOf c 31 16) (bitsOf u 14 0) (bitsOf u 21 15) r s))) s

/-- The operations of R381 and R456. -/
def mbxOps : List Nat := [1, 2, 3, 4, 5, 6, 7, 8, 9, 0x301]

/-- A write of `MBX_DOORBELL` (R380): ignored while an operation is in progress; a reserved operation is
answered `MALFORMED`. -/
def mbxDoorbell (f : FnId) (v : Nat) (s : State) : State :=
  let x := s.fn f
  if x.mbxBusy || !bitOf v 0 then s
  else if mbxOps.contains x.mbxOp then s.modFn f (fun x => x.put ⟨0x100128, 8, 8⟩ 1)
  else mbxEnd f .malformed s

end Sys2Proof.Machine
end

