-- ==== Sys2Proof/Machine/Commands.lean ====
section
/-! DEFINITION. The fetch of a command from a queue and its checks (R366 to R368, R374, R391, R400). -/

namespace Sys2Proof.Machine

/-- A command entry (R366). -/
structure Entry where
  opcode : Nat
  flags : Nat
  fscope : Nat
  partition : Nat
  cookie : BitVec 64
  src : Nat
  srcLen : Nat
  result : Nat
  resultLen : Nat
  imm : Nat
  deriving DecidableEq, Repr

/-- The 64 bytes of an entry. -/
def entryOf (e : Bytes) : Entry :=
  { opcode := natAt e 0 2, flags := natAt e 2 1, fscope := natAt e 3 1, partition := natAt e 4 1,
    cookie := BitVec.ofNat 64 (natAt e 8 8), src := natAt e 16 8, srcLen := natAt e 24 4, result := natAt e 32 8,
    resultLen := natAt e 40 4, imm := natAt e 48 16 }

/-- `CRIT`. -/
def Entry.crit (e : Entry) : Bool := bitOf e.flags 0

/-- The opcodes that a queue may fetch (R370, R400, R405, R413, R416, R418, R441, R454). -/
def queueOps : List Nat :=
  criticalOps ++ [1, 2, 3, 4, 0x0106, 0x0107, 0x0108, 0x0109, 0x010A, 0x010B, 0x010C, 0x010D, 0x0220, 0x0221,
    0x0222, 0x0302, 0x0303]

/-- Opcodes that need a partition. -/
def partitionOps : List Nat :=
  [0x0101, 0x0102, 0x0103, 0x0104, 0x0105, 0x0301, 0x0106, 0x0107, 0x0108, 0x0109, 0x010A, 0x010B, 0x010C, 0x010D,
    0x0302]

/-- Critical opcodes whose partition is 0xFF (R400). -/
def deviceOps : List Nat := [0x0201, 0x0202, 0x0203, 0x0204, 0x0205, 0x0206, 0x0207]

/-- Opcodes of the PF alone that a VF gets `MALFORMED` for (R413, R441). -/
def pfOps : List Nat := [0x0106, 0x0107, 0x0303]

/-- Set bits of a mask are contiguous, and one is set. -/
def contiguous (m : Nat) : Bool :=
  (List.range 8).any (fun a => (List.range 8).any (fun n =>
    decide (a + n < 8) && decide (m = (2 ^ (n + 1) - 1) * 2 ^ a)))

/-- The `IMM` fields of an opcode hold no reserved value. -/
def immOk (opcode imm : Nat) : Bool :=
  let zero (hi lo : Nat) : Bool := decide (bitsOf imm hi lo = 0)
  match opcode with
  | 3 | 4 => zero 127 64 && decide (bitsOf imm 63 0 % 64 = 0)
  | 0x0106 => contiguous (bitsOf imm 7 0) && zero 15 9 && zero 127 80 &&
      (maskRows (bitsOf imm 7 0)).all (fun n =>
        let b := bitsOf imm (23 + 8 * n) (16 + 8 * n)
        decide (b = 0) || (decide (110 ≤ b) && decide (b ≤ 170)))
  | 0x0108 => zero 7 4 && zero 15 14 && zero 47 45 && zero 127 57 && !zero 55 48
  | 0x0109 | 0x010D => zero 127 4
  | 0x010A => zero 7 4 && zero 127 17 && !zero 15 8
  | 0x010B | 0x010C => zero 7 4 && zero 127 16
  | 0x0302 => zero 3 0 && zero 15 12 && zero 127 25
  | 0x0303 => zero 7 3 && zero 127 9
  | _ => decide (imm = 0)

/-- The lengths of an entry are in range (R366, R370, R405, R426). -/
def lengthsOk (e : Entry) : Bool :=
  match e.opcode with
  | 3 => decide (e.srcLen % 64 = 0) && decide (e.srcLen ≤ 4294967232)
  | 4 => decide (e.srcLen ≤ 65536) && decide (e.resultLen % 64 = 0)
  | 0x010C => decide (e.srcLen = 64)
  | 0x0220 => decide (e.srcLen = 32) && decide (10149 ≤ e.resultLen)
  | 0x0221 => decide (e.srcLen ≤ 65536) && decide (136 ≤ e.resultLen)
  | 0x0222 => decide (e.srcLen ≤ 65536) && decide (2820 ≤ e.resultLen)
  | _ => decide (e.srcLen ≤ 65536)

/-- Check 1 of R367. -/
def entryChk (e : Entry) (bs : Bytes) : Bool :=
  queueOps.contains e.opcode && decide (e.flags < 8) && decide (e.fscope < 8) && zeroAt bs 5 3 && zeroAt bs 28 4 &&
    zeroAt bs 44 4 && decide (e.src % 64 = 0) && decide (e.result % 64 = 0) && lengthsOk e && immOk e.opcode e.imm

/-- Check 2 of R367: the partition of an entry, at a function. -/
def partitionChk (f : Nat) (e : Entry) : Bool :=
  (decide (e.partition = 0xFF) || (decide (e.partition < 8) && (decide (f = 0) || decide (e.partition + 1 = f)))) &&
    !(partitionOps.contains e.opcode && decide (e.partition = 0xFF)) &&
    !(deviceOps.contains e.opcode && decide (e.partition ≠ 0xFF)) &&
    !(pfOps.contains e.opcode && decide (f ≠ 0))

/-- The world check of R391: a queue reaches every die of the partition, of the mask for PARTITION_FORM; a
command without a partition needs a secure queue. NOP, FENCE and the attestation commands pass. -/
def worldChk (s : State) (f q : Nat) (e : Entry) : Bool :=
  let ls := if e.opcode = 0x0106 then (maskRows (bitsOf e.imm 7 0)).flatMap rowLogical else s.partLogical e.partition
  [1, 2, 0x0220, 0x0221, 0x0222].contains e.opcode || s.queueWorld f q ||
    (decide (e.partition ≠ 0xFF) && !ls.any s.dieWorld)

/-- Checks 1 to 3 of R367, in order. -/
def formChk (f : Nat) (e : Entry) (bs : Bytes) : Option Status :=
  if !entryChk e bs || !partitionChk f e || decide (e.crit ≠ criticalOps.contains e.opcode) then some .malformed
  else none

/-- A queue is a fetch point of R400 for the opcode. -/
def fetchPointOk (f : FnId) (opcode : Nat) : Bool :=
  decide (opcode ≠ 0x0201) && !(deviceOps.contains opcode && decide (f ≠ 0))

/-- Check 6 as far as it is common: the die that EXPORT names, and the result slot of R374, which becomes FILLING
when the command starts. -/
def slotChk (f : FnId) (q : BitVec 2) (e : Entry) (s : State) : Option Status × Option (Nat × Nat) × State :=
  if e.opcode = 0x0302 ∧ !(s.partLogical e.partition).contains (bitsOf e.imm 9 4) then
    (some .malformed, none, s)
  else if !bitOf e.flags 2 then (none, none, s)
  else
    let len := 64 + roundUp e.resultLen 32
    match s.window f e.result, winChk f e.result len (s.queueWorld f q.toNat) true true s with
    | some (w, a), (.ok _, s) =>
      if s.inSlot w.die a len then (some .invalidState, none, s)
      else if 64 ≤ (s.fn f).slots.length then (some .resourceExhausted, none, s)
      else (none, some (w.die, a),
        s.modFn f (fun x => { x with slots := x.slots ++ [(⟨w.die, a, len, false⟩ : Slot)] }))
    | _, (.error st, s) => (some st, none, s)
    | none, (_, s) => (some .malformed, none, s)

/-- The command in progress that an entry starts. -/
def cmdOf (f : FnId) (q : BitVec 2) (e : Entry) (payload : Bytes) (s : State) : Cmd :=
  { id := s.nextCmd, fn := f, queue := q, boot := false, opcode := e.opcode, irq := bitOf e.flags 1,
    resdev := bitOf e.flags 2, fscope := e.fscope, partition := e.partition, cookie := e.cookie, src := e.src,
    srcLen := e.srcLen, payload := if e.crit then payload.drop 64 else payload, result := e.result,
    resultLen := e.resultLen, imm := BitVec.ofNat 128 e.imm, world := s.queueWorld f q.toNat,
    attach := (s.fn f).attach, begun := false, die := 0x7F, slot := none }

/-- The checks 4 and 5 of a fetched command and the common part of check 6, after which it is in progress or
answered. A critical command at a fetch point not named for it is rejected right after check 4 (R400). -/
def startCommand (f : FnId) (q : BitVec 2) (e : Entry) (payload : Bytes) (s : State) : State :=
  let c := cmdOf f q e payload s
  let s := { s with nextCmd := s.nextCmd + 1, cmds := s.cmds ++ [c] }
  let (st, s) := if e.crit then critChk (.queue f q.toNat e.opcode e.partition e.cookie) payload s else (none, s)
  match if e.crit && st.isNone && !fetchPointOk f e.opcode then some .invalidState else st with
  | some st => answer c st s
  | none =>
    if !worldChk s f q.toNat e then answer c .worldViolation (s.count 0x30010 1)
    else
      let (st, slot, s) := slotChk f q e s
      match st with
      | some st => answer c st s
      | none => s.modCmd c.id (fun x => { x with slot := slot })

/-- What keeps a queue from fetching: a command before that has not passed its checks (R368), a FENCE in progress
(R370), 256 held completions (R369), an UNREGISTER_RING of it (R381). -/
def fetchBlocked (s : State) (f : FnId) (q : Nat) : Bool :=
  let x := s.fn f
  s.cmds.any (fun c => decide (c.fn = f) && decide (c.queue.toNat = q) && (decide (c.opcode = 2) || !c.passed) &&
    !c.boot) ||
    decide (256 ≤ (tabGet (fun _ => []) x.finished q).length) ||
    (x.mbxBusy && decide (x.mbxOp = 2) && decide (x.arg 0 = q))

/-- COMMAND_FETCH (R366 to R368): `bs` is the entry at `DEV_IDX`, `payload` the bytes that it names, of a COPY_IN
no bytes; none: the read of the payload got no completion within 50 ms (R354). A command that names a RESETTING
partition is held (R412). -/
def commandFetch (f : FnId) (q : BitVec 2) (bs : Bytes) (payload : Option Bytes) (s : State) : State :=
  let r := q.toNat
  let x := s.fn f
  let e := entryOf bs
  let need := if e.opcode = 3 then 0 else e.srcLen
  if !s.hostOpen || decide (x.ringState r ≠ 1) || decide (x.hostIdx r = x.devIdx r) || fetchBlocked s f r ||
      decide (bs.length ≠ 64) then s
  else
    let advance (s : State) : State := s.modFn f (fun x =>
      let i := (x.devIdx r + 1) % 2 ^ 32
      (x.setReg (ringOff r + 4) i).setReg (ringOff r + 12) i)
    match formChk f e bs with
    | some st =>
      let c := cmdOf f q e [] s
      answer c st (advance { s with nextCmd := s.nextCmd + 1 })
    | none =>
      if decide (e.partition < 8) && decide (s.partState e.partition = 2) then s
      else match payload with
        | none =>
          let c := { cmdOf f q e [] s with begun := true }
          answer c .timeout (advance { s with nextCmd := s.nextCmd + 1 })
        | some bs => if bs.length ≠ need then s else startCommand f q e bs (advance s)

end Sys2Proof.Machine
end

