-- ==== Sys2Proof/Machine/Warm.lean ====
section
/-! DEFINITION. From FW_START to READY, the warm start and autostart (R56, R72, R80 to R82, R326, R351, R451). -/

namespace Sys2Proof.Machine

/-! ## The warm start (R80) -/

/-- A die is switched on again as the die map has it; its life advances with the switch-on (R199). -/
def warmDie (trained : Nat → Bool) (s : State) (p : Nat) : State :=
  let mv := s.currentMv (p / 9)
  match s.dieState p with
  | 0 =>
    let s := powerOn .active mv p s
    let s := if trained p then s.modDie p (mcReady false) else s
    match s.logicalOf p with
    | some l => takeNumber l p s
    | none => s
  | 3 => s
  | _ =>
    let s := powerOn .routeOnly mv p s
    if trained p then s.modDie p (mcReady true) else s

/-- A die that the trigger retired is spared under R69 (R80, step 4). -/
def warmSpare (trained : Nat → Bool) (s : State) (p : Nat) : State :=
  let n := p / 9
  let s := { s with sparing := s.sparing.filter (fun x => decide (x ≠ p)) }
  match s.logicalOf p, (s.spareOf n).filter trained with
  | none, _ => putAside p s
  | some _, none => putAside p (loseRow n s)
  | some l, some q =>
    let s := (powerOn .active (s.currentMv n) q ((putAside p s).setDieState q 0)).modDie q (mcReady false)
    let s := showRecords l (takeNumber l q s)
    match s.rowPart n with
    | some part => markFresh part l s
    | none => s

/-- A die whose channels fail retraining (R72, R444). -/
def warmFail (s : State) (p : Nat) : State :=
  if s.dieState p = 0 then retire p s
  else if s.dieState p = 1 then putAside p { s with retired := s.retired ++ [p] } else s

/-- Both modules of an engine train again at the rate found at the cold start (R73, R80, step 6). -/
def warmEngine (primary alternate primaryRepair alternateRepair : BitVec 8) (s : State) (n : Nat) : State :=
  if (s.engine n).rate = 0 then s
  else engineUp n (s.engine n).rate (s.moduleUp n (primary.getLsbD n) (primaryRepair.getLsbD n))
    (s.moduleUp n (alternate.getLsbD n) (alternateRepair.getLsbD n)) s

/-- Every function is invalidated, and every command in progress ends with `TIMEOUT`, to be recorded (R382, R383). -/
def cutHost (s : State) : State :=
  let s := invalidateAll s
  s.cmds.foldl (fun s c => answer { c with begun := true } .timeout s) s

/-- DEVICE_RESET (R80, steps 4 to 6), of a device reset that has been triggered: the dies that retrain, and the
modules of each engine that train, with or without lane repair. -/
def warmStart (retrained : BitVec 72) (primary alternate primaryRepair alternateRepair : BitVec 8)
    (s : State) : State :=
  if s.boot ≠ 0xA then s
  else
    let trained (p : Nat) : Bool := retrained.getLsbD p && !(s.die p).clkLost
    let ps := List.range 72
    let s := ps.foldl (warmDie trained) { s with autostart := false }
    let s := s.sparing.foldl (warmSpare trained) s
    let s := (ps.filter (fun p => decide ((s.die p).run ≠ .off) && !trained p)).foldl warmFail s
    let s := (List.range 8).foldl (warmEngine primary alternate primaryRepair alternateRepair) s
    (cutHost (writeRoutes s)).setBoot 6

/-! ## FW_START, LINKS, READY (R56, R326, R351) -/

/-- The image's setpoint of a row is applied (R41, R42, R433): a raise that is not granted is held. `pRow`,
`total`: mW, as measured. -/
def applySetpoint (n pRow total : Nat) (s : State) : State :=
  let v := (s.row n).rail
  let v' := s.powerMv n
  if v' ≤ v ∨ raiseFits v v' pRow total s.budgetW then sendSetpoint n v' s else showCurrent n v s

/-- The power of a row in mW as the power manager measures it at FW_START, and of the package (`n` = 8): the row
carries no reading, so free values (log 34). -/
def State.bootPower (s : State) (n : Nat) : Nat := (Config.freeValue (s.free + n)).toNat

/-- FW_START: the image's setpoints, transition rates (R41) and power mode; the mailbox opens with LINKS. -/
def fwStart (s : State) : State :=
  if s.boot ≠ 6 then s
  else
    let t := (List.range 8).foldl (fun t n =>
      avsFrame (.avsRate n 5) (applySetpoint n (s.bootPower n) (s.bootPower 8) t))
      (imagePower { s with free := s.free + 9 })
    t.setBoot 7

/-- A port is trained: its role is not DISABLED, its engine is up, and light reaches the engine. -/
def trainPort (s : State) (n : Nat) : State :=
  match s.carrier n with
  | none => s
  | some p =>
    if decide (s.role n ≠ 0) && (s.engine n).on && !(s.engine n).dark && s.engineFed n &&
        decide (wlkState (s.die p) = 0) && !(s.die p).flag 0xD0004 1 then s.modDie p beginTraining
    else s

/-- LINKS_BOOT (R56, step 13; R80, step 8): on a cold start every bay is checked; every enabled port trains. -/
def linksBoot (views : List ModuleView) (s : State) : State :=
  if s.boot ≠ 7 then s
  else
    let s := if s.flag 0 4 then s else baysLinks views s
    (List.range 8).foldl trainPort s

/-- The configuration has `AUTOSTART` set (R62). -/
def State.hasAutostart (s : State) : Bool := bitOf (natAt s.image 0x12 2) 0

/-- The bytes of AUTOSTART (R66). -/
def State.autoSec (s : State) : Bytes := sectionBytes s.image 0xB

/-- Autostart begins (R82, steps 1 and 2): the partition is formed and the recovery settings applied; a degraded
row ends it. -/
def autostartBegin (s : State) : State :=
  let a := s.autoSec
  let f (o n : Nat) : Nat := natAt a o n
  let j := f 0 1
  let mask := f 1 1
  let part := f 3 1
  let mode := bitOf (f 20 1) 0
  if (maskRows mask).any s.degraded then s.setJobCause j .resourceExhausted
  else
    let s := s.setReg (0x100 + 4 * part) (1 + mask <<< 8 + bit mode <<< 16)
    let s := s.modDies ((maskRows mask).flatMap rowPhys) (fun d =>
      if d.run = .active then { d with classes := mode } else d)
    let s := commandReset part s
    let s := setRecovery j (bitOf (f 20 1) 2) (bitOf (f 20 1) 3) (f 6 2) (f 22 2) (f 36 2) (f 38 2)
      (bitsOf (f 40 4) 14 0) (bitsOf (f 40 4) 21 15) (f 44 2) s
    let s := s.modDies ((s.partBound part).map (·.2)) (fun d => d.put ⟨0xE0000, 12, 0⟩ (f 44 2 + 2 ^ 12))
    { s with autostart := true }

/-- What follows a warm start (R451, R443): partitions FORMED, dies rebuilt, DIE_LOST for each active job. -/
def afterWarm (s : State) : State :=
  let parts := (List.range 8).filter (fun p => decide (s.partState p ≠ 0))
  let s := parts.foldl (fun s p => s.put ⟨0x100 + 4 * p, 1, 0⟩ 1) s
  let s := (parts.flatMap s.partJobs).foldl rebuildJob s
  (parts.flatMap s.partActive).foldl (fun s p => sendLost (s.die p) s) s

/-- READY (R56, step 14). -/
def ready (s : State) : State :=
  if s.boot ≠ 7 then s
  else
    let warm := s.flag 0 4
    let s := dealTokens (s.setBoot 8)
    if warm then afterWarm s else if s.hasAutostart then autostartBegin s else s

/-! ## Autostart (R82, steps 3 to 7) -/

/-- Every port with role UP, DOWN, RING_A, RING_B or STORE is up. -/
def autostartPorts (s : State) : Bool :=
  (List.range 8).all (fun n => !([1, 2, 3, 4, 6].contains (s.role n)) || s.portUp n)

/-- Autostart ends with a cause. -/
def autostartFails (st : Status) (s : State) : State :=
  { s with autostart := false }.setJobCause (natAt s.autoSec 0 1) st

/-- The Lehr of die `p` opens its rod to the storage endpoint and asks it for parts (R82, R452). -/
def askStore (p j : Nat) (xs : List LehrPart) (s : State) : State :=
  if xs.isEmpty then s
  else xs.foldl (fun s x => s.modDie p (fun d =>
      emit (.bead (packBead { requestBead s d x j 0 (s.storePkg j) with dstDie := 0 }) []) d))
    (s.modDie p (fun d => lhrStatus .ok true (lehrOpen (s.storePkg j) 0 j d)))

/-- The part MANIFEST. -/
def manifestPart (pkg : Nat) : LehrPart :=
  { pkg := pkg, part := 3, stage := 0, index := 0, slot := 0, dst := 0, len := 0, got := [] }

/-- The program extents that have come are written where the PROG entries name them, with class DMA and job 0
(R452). -/
def placePrograms : List (Nat × Nat × Nat) → Bytes → State → Option Status × State
  | [], _, s => (none, s)
  | (p, src, len) :: rest, bs, s =>
    if len = 0 then placePrograms rest bs s
    else
      let (st, d) := lehrWrite .dma 0 src (bs.take len) (s.die p)
      let s := s.setDie p d
      match st with
      | some st => (some st, s)
      | none => placePrograms rest (bs.drop len) s

/-- The PROG extents of a manifest: physical die, address, bytes; none: a die is not bound. -/
def progPlaces (s : State) (m : Bytes) : Option (List (Nat × Nat × Nat)) :=
  ((entries m).filter (fun e => decide (natAt e 0 1 = 2))).mapM (fun e =>
    (s.physOf (natAt e 1 1)).map (fun p => (p, 64 * natAt e 4 4, 16 * natAt e 12 4)))

/-- Step 5 of R82: every die asks for its program extents, whose digest is checked over all of them; they are
written in place. -/
def autostartPrograms (j : Nat) (m : Bytes) (programs : Option Bytes) (s : State) : Bool × State :=
  let dies := s.partBound (natAt s.autoSec 3 1)
  let s := dies.foldl (fun s e => askStore e.2 j (progParts m e.1 (s.storePkg j)) s) s
  let close (s : State) : State := dies.foldl (fun s e =>
    if (progParts m e.1 0).isEmpty then s else endParts e.2 .ok s) s
  match progPlaces s m, programs with
  | some es, some bs =>
    if bs.length ≠ (es.map (·.2.2)).sum ∨ shake256 bs ≠ sliceB s.autoSec 96 32 then (false, close s)
    else
      let (st, s) := placePrograms es bs s
      (st.isNone, close s)
  | _, _ => (false, close s)

/-- Steps 4 and 5: manifest and programs are asked for, checked and placed; none: a fetch fails or a digest
differs. The parts come as the command's operands: how the Lehr rod lies before the manifest has laid it out, no
rule says (log 66). -/
def autostartFetch (manifest programs : Option Bytes) (s : State) : Option Bytes × State :=
  let a := s.autoSec
  let j := natAt a 0 1
  match s.physOf (natAt a 24 1) with
  | none => (none, s)
  | some p =>
    let s := askStore p j [manifestPart (s.storePkg j)] s
    match manifest with
    | none => (none, endParts p .unverified s)
    | some m =>
      if m.length ≠ natAt a 32 4 ∨ shake256 m ≠ sliceB a 64 32 then (none, endParts p .unverified s)
      else
        let (st, d) := lehrWrite .lehr j (64 * natAt a 28 4) m (s.die p)
        let s := endParts p (st.getD .ok) (s.setDie p d)
        if st.isSome then (none, s)
        else
          let (ok, s) := autostartPrograms j m programs s
          (if ok then some m else none, s)

/-- The memory that autostart writes serves (R292): the manifest's place, those of the programs, and for source
STORE those of the objects. -/
def autostartServes (manifest : Option Bytes) (s : State) : Bool :=
  let a := s.autoSec
  match manifest, s.physOf (natAt a 24 1) with
  | some m, some p =>
    lehrServes [(64 * natAt a 28 4, m.length)] (s.die p) &&
      ((progPlaces s m).getD []).all (fun e => lehrServes [e.2] (s.die e.1)) &&
      (decide (natAt a 2 1 ≠ 1) || storeServes s (natAt a 0 1) (s.partBound (natAt a 3 1)))
  | _, _ => true

/-- The job starts (R82, step 7). -/
def autostartGo (j : Nat) (s : State) : State :=
  let (ok, s) := launchClass j 0 (startJob j s)
  if ok then s.setJobState j 2 else commandReset (s.jobPart j) (s.setJobCause j .resourceExhausted)

/-- A job whose load has failed is EMPTY (R82): what its manifest has set up is freed again. -/
def dropJob (j : Nat) (s : State) : State :=
  ((s.modJobDies j (freeResources j)).setJob j {}).put ⟨jobReg j, 15, 0⟩ 0

/-- Steps 6 and 7: the job is loaded, restored as its source says, and started. -/
def autostartLoad (m : Bytes) (objects : List Bytes) (s : State) : State :=
  let a := s.autoSec
  let j := natAt a 0 1
  let part := natAt a 3 1
  let l := natAt a 24 1
  let chk : Option Status :=
    if s.partState part ≠ 1 ∨ s.jobState j ≠ 0 then some .invalidState
    else if ((s.partBound part).lookup l).isNone then some .malformed
    else manifestChk s part j m
  match chk with
  | some st => autostartFails st s
  | none =>
    let (st, s) := loadJob part (natAt a 21 1) (bitOf (natAt a 20 1) 1) j l (64 * natAt a 28 4) m s
    if st ≠ .ok then autostartFails st (dropJob j s)
    else
      let s := { writeRods j s with autostart := false }
      match natAt a 2 1 with
      | 0 => autostartGo j s
      | 1 =>
        let (st, s) := storeJob j (natAt a 8 6) (s.jobDies j) objects s
        if st = .ok then autostartGo j s else s.setJobCause j st
      | _ =>
        let s := s.modJob j (fun i => { i with restoring := 3 })
        restoreGo j ((s.jobDies j).foldl (fun s e => restoreFrom (natAt a 4 2) e.2 j s) s)

/-- AUTOSTART (R82): the manifest and the program extents as the storage endpoint sends them, and for source
STORE the journal objects. It waits for the ports, for the partition's reset to end, and for the memory. -/
def autostart (manifest programs : Option Bytes) (objects : List Bytes) (s : State) : State :=
  if !s.autostart || decide (s.boot ≠ 8) || !autostartPorts s ||
      decide (s.partState (natAt s.autoSec 3 1) = 2) || !autostartServes manifest s then s
  else
    match autostartFetch manifest programs s with
    | (some m, s) => jobsGo (autostartLoad m objects s)
    | (none, s) => autostartFails .unverified s

/-- AUTOSTART_PORT_TIMEOUT (R82). -/
def autostartPortTimeout (s : State) : State :=
  if s.autostart && decide (s.boot = 8) && !autostartPorts s then autostartFails .unreachable s else s

end Sys2Proof.Machine
end

