-- ==== Sys2Proof/Machine/Write.lean ====
section
/-! DEFINITION. Register writes by space (R4, R5, R11, R83, R191, R385, R437, R460), and what a read of a Punty or
function register returns. -/

namespace Sys2Proof.Machine

/-! ## The Punty die (R11) -/

/-- The reserved bits of the Punty register at an offset; none: the offset is reserved. -/
def puntyReserved (off : Nat) : Option Nat :=
  if off = 0x0 then some 0xFFF00080
  else if off = 0x4 ∨ off = 0x8 ∨ inArray off 0x10 4 4 ∨ off = 0x24 ∨ inArray off 0x30 4 4 ∨ off = 0x48 then some 0
  else if off = 0xC then some 0xFFFFF000
  else if off = 0x20 then some 0x3F
  else if off = 0x28 ∨ off = 0x200 ∨ off = 0x300 then some 0xFFFFFFFE
  else if off = 0x2C then some 0xFFFFFE00
  else if off = 0x40 then some 0xFFFF0000
  else if off = 0x44 ∨ off = 0x20104 ∨ off = 0x3001C then some 0xFFFFFF00
  else if inArray off 0x100 4 8 then some 0xFFFE00FC
  else if inArray off 0x140 4 16 then some 0xFF000008
  else if off = 0x204 ∨ off = 0x10100 then some 0xFFF80000
  else if off = 0x208 ∨ inArray off 0x280 4 16 ∨ off = 0x10104 then some 0
  else if inArray off 0x240 4 16 then some 0xFC000000
  else if inArray off 0x2C0 4 16 ∨ off = 0x10004 then some 0xFFC00000
  else if off = 0x10000 then some 0xFFFF000E
  else if inArray off 0x10010 4 8 then some 0xFC00FC00
  else if inArray off 0x20000 16 8 then some 0xFF00F800
  else if inArray off 0x20004 16 8 then some 0
  else if inArray off 0x20008 16 8 then some 0xFF000000
  else if off = 0x20100 then some 0xFFFFFFF0
  else if off = 0x30000 then some 0xFFFFFFE0
  else if off = 0x30004 then some 0xFFFFFFF8
  else if inArray off 0x30008 4 3 ∨ off = 0x30018 ∨ inArray off 0x30020 4 9 ∨ inArray off 0x30050 4 4 then some 0
  else none

/-- The bits of a Punty register that writing 1 clears (R45, R191, R352, R409). -/
def puntyW1c (off : Nat) : Nat :=
  if off = 0x300 then 1
  else if off = 0x10100 then 0x3FFFF
  else if inArray off 0x20000 16 8 then 0x200
  else if off = 0x20104 then 0xFF
  else if off = 0x30004 then 7
  else 0

/-- A write of the boot page's address registers (R75, R83). Its `DOORBELL` fetches a packet: that is
BOOT_DOORBELL. -/
def bootPageWrite (off v : Nat) (s : State) : State :=
  let s := if off = 0x20 then s.setReg off (v / 64 * 64) else if off = 0x24 then s.setReg off v else s
  match puntyReserved off with
  | some m => if v &&& m ≠ 0 then s.invalidWrite else s
  | none => if v ≠ 0 then s.invalidWrite else s

/-- A write of a Punty register by the management complex. -/
def puntyWrite (off v : Nat) (s : State) : State :=
  if off % 4 ≠ 0 ∨ 0x40000 ≤ off then s
  else if off < 0x100 then bootPageWrite off v s
  else if off = 0x20100 then elsCtlWrite true (s.usageOk (v % 8)) v s
  else if off = 0x10000 then
    let b := bitsOf v 15 4
    let ok := decide (1000 ≤ b) && decide (b ≤ 2900)
    let s := if ok then s.put ⟨0x10000, 15, 4⟩ b else s
    if !ok || decide (v &&& 0xFFFF000E ≠ 0) then s.invalidWrite else s
  else
    let s := if puntyW1c off = 0 then s else s.setReg off (s.reg off &&& (v &&& puntyW1c off ^^^ 0xFFFFFFFF))
    match puntyReserved off with
    | some m => if v &&& m ≠ 0 then s.invalidWrite else s
    | none => if v ≠ 0 then s.invalidWrite else s

/-- What a read of a Punty register returns: identity and `PROVISIONED` come from one-time storage, WO fields
read 0. -/
def State.puntyRead (s : State) (off : Nat) : Nat :=
  if off = 0x30000 then putBits (s.reg off) 0 0 (bit s.provisioned)
  else if inArray off 0x30050 4 4 then
    bitsOf Config.deviceId.toNat (8 * (off - 0x30050) + 31) (8 * (off - 0x30050))
  else if off = 0x28 ∨ off = 0x200 then 0
  else s.reg off

/-! ## A function's BAR0 (R57, R356, R357, R385) -/

/-- A write of `HST_EVENT`. -/
def eventWrite (f v : Nat) (s : State) : State :=
  let s := s.modFn f (fun x =>
    (x.setReg 0x1004 (x.reg 0x1004 &&& ((v &&& 0xF) ^^^ 0xFFFFFFFF))).put ⟨0x1004, 4, 4⟩ (bitsOf v 4 4))
  if 32 ≤ v then s.invalidWrite else s

/-- The reserved bits of a read-only register of a function (R385). -/
def fnReserved (off : Nat) : Nat :=
  if inArray off 8 0x40 16 then 0xFFFF00FC
  else if off = 0x1000 then 0xFFF00000
  else if off = 0x1010 then 0xFFFFF800
  else if off = 0x100128 then 0x0000FE00
  else 0

/-- A write by the host to BAR0 of a function. Before FW_START only the boot page decodes. -/
def fnWrite (f : FnId) (off v : Nat) (s : State) : State :=
  if !s.hostLink then s
  else if inArray off 0x100000 4 64 then
    if f.val = 0 then bootPageWrite (off - 0x100000) v s else s
  else if !s.hostOpen then s
  else if inArray off 0 0x40 16 then doorbell f (off / 0x40) v s
  else if off = 0x1004 then eventWrite f v s
  else if off = 0x1008 then s.modFn f (fun x => x.setReg off v)
  else if off = 0x100C then resultReturn f v s
  else if inArray off 0x100100 4 9 then s.modFn f (fun x => x.setReg off v)
  else if off = 0x100124 then mbxDoorbell f v (if v &&& 0xFFFFFFFE ≠ 0 then s.invalidWrite else s)
  else if v &&& fnReserved off ≠ 0 then s.invalidWrite
  else s

/-- What a read of a function's BAR0 returns (R57, R356, R362, R385); the apertures are DIAG_APERTURE_READ. -/
def State.fnRead (s : State) (f : FnId) (off : Nat) : Nat :=
  if !s.hostLink then 0
  else if inArray off 0x100000 4 64 then if f.val = 0 then s.puntyRead (off - 0x100000) else 0
  else if !s.hostOpen then 0
  else if off = 0x1000 then
    (s.fn f).attach + bit (s.fnWorld f) <<< 16 + (f.val - 1) <<< 17
  else if inArray off 0x200000 4 0x880 then
    (tabGet (fun _ => (0 : Word32)) (s.fn f).snap (off - 0x200000)).toNat
  else if off = 0x1008 ∨ off = 0x100C ∨ off = 0x100124 then 0
  else (s.fn f).reg off

/-- The world of the port that a die carries (R388). -/
def State.portSecure (s : State) (p : Nat) : Bool := s.engineWorld (wlkPort (s.die p))

/-- A write of `LHR_OP_HI` that sets `GO` with an `OP` (R459): 0 CAPTURE, 1 RESTORE, 2 SHARD_READY. -/
def lhrOp (op v : Nat) : Nat := putBits (putBits v 21 20 op) 31 31 1

/-! ## REGISTER_WRITE (R4, R5, R192) -/

/-- An accepted change of a die's region table is kept for its logical number (R286). -/
def keepRegions (p off : Nat) (s : State) : State :=
  if inArray off 0xC1000 4 128 then
    match s.logicalOf p with
    | some l =>
      let v := BitVec.ofNat 32 ((s.die p).reg off)
      { s with regions := tabSet (fun _ => (0 : Word32)) s.regions (128 * l + (off - 0xC1000) / 4) v }
    | none => s
  else s

/-- A write of a die's register by its management complex, a thread, the vector queue or the host interface. -/
def dieRegWrite (p : PDie) (w : Writer) (off v : Nat) (s : State) : State :=
  if (s.die p).run = .off ∨ w = .host then s
  else
    s.atDie p (fun s => keepRegions p off
      (s.modDie p (dieWrite (decide (w = .mgmt)) (decide (w = .hostIf)) (s.formed p) off v)))

/-- REGISTER_WRITE. Nothing but the management complex writes the registers of the Punty die, and nothing but the
host those of a function. -/
def registerWrite (space : RegSpace) (w : Writer) (off v : Nat) (s : State) : State :=
  match space with
  | .die p => dieRegWrite p w off v s
  | .punty => if w = .mgmt ∧ s.pins.rstReleased then puntyWrite off v s else s
  | .fn f => if w = .host then fnWrite f off v s else s

end Sys2Proof.Machine
end

