-- ==== Sys2Proof/Machine/Tick.lean ====
section
/-! DEFINITION. What an idle step of the block does: the clocks advance by one period of MGTCLK, and each die's
sequencer issues one op word of its program (R48, R154, R159, R161, R241, R423; log 1). -/

namespace Sys2Proof.Machine

/-- Row-reference ticks in one period of MGTCLK: 100 MHz and 25 MHz (R48). -/
def ticksPerMgt : Nat := 4

/-- A 48-bit tally of ticks counts on. -/
def addTicks (off : Nat) (on : Bool) (d : Die) : Die := if on then d.add48 off ticksPerMgt else d

/-- An op is outstanding and has not finished. -/
def unfinished (x : LongOp) : Bool :=
  match x.phase with
  | .done _ => false
  | _ => true

/-- The time tallies of stage `t` (R241). -/
def stageTicks (d : Die) (t : Nat) : Die :=
  let o := 0xA8000 + 0x40 * t
  let w := d.reg o
  if !bitOf w 22 then d
  else
    let mine (n : Nat) : Bool := decide ((stageRange w).1 ≤ n) && decide (n < (stageRange w).2)
    let has (st : ThState) : Bool := d.threads.any (fun e => mine e.1 && decide (e.2.st = st))
    let waits (ops : List Nat) : Bool := d.ops.any (fun x =>
      mine x.thread.toNat && decide (x.kind = .op) && ops.contains x.opcode.toNat && unfinished x)
    addTicks (o + 0x20) (waits [0x70]) (addTicks (o + 0x18) (waits [0x51, 0x52] && !has .ready)
      (addTicks (o + 0x10) (has .waitCredit) (addTicks (o + 8) (has .ready) d)))

/-- `TICKS` of a job (R423): a thread READY, or a long op outstanding. -/
def jobTicks (d : Die) (j : Nat) : Die :=
  let own (t : ThreadId) : Bool := decide ((d.threadJob t).toNat = j)
  let busy := d.threads.any (fun e => decide (e.2.st = .ready) && own (BitVec.ofNat 11 e.1)) ||
    d.ops.any (fun x => decide (x.kind = .op) && decide (x.job.toNat = j))
  addTicks (talJob j + 0x10) busy d

/-- The row-reference counter of a die whose domain is on and whose row clock runs (R169). -/
def countTick (d : Die) : Die :=
  if decide (d.run = .off) || d.clkLost then d else d.add48 0x100 ticksPerMgt

/-- The tallies of a die whose row clock runs, and the lanes in FREE mode (R148). -/
def clockTick (d : Die) : Die :=
  freeLanes ((List.range 16).foldl jobTicks ((List.range 4).foldl stageTicks d))

/-- The next READY thread in round-robin order, starting after the thread that last issued (R161). -/
def nextThread (d : Die) : Option ThreadId :=
  let ready := d.threads.filter (fun e => decide (e.2.st = .ready) && canIssue d (BitVec.ofNat 11 e.1))
  ((ready.find? (fun e => decide (d.lastIssued.toNat < e.1))).or ready.head?).map (fun e => BitVec.ofNat 11 e.1)

/-- An op of a reserved code (R154): it is rejected. -/
def dieReservedOp (opcode : Nat) (t : ThreadId) (w : OpWord) (d : Die) : Die :=
  issueOp opcode t w [] (fun _ _ => some .malformed) (fun d _ => d) d

/-- The op of each code of R154, issued by a thread. -/
def issueWord (opcode : Nat) (t : ThreadId) (w : OpWord) : Die → Die :=
  match opcode with
  | 0x00 => dieNop t w | 0x01 => dieWait t w | 0x02 => dieSignal t w | 0x03 => dieBranch t w | 0x04 => dieLoop t w
  | 0x05 => dieEnd t w | 0x06 => dieYield t w | 0x07 => dieFence t w | 0x08 => dieSeti t w | 0x09 => dieAlu t w
  | 0x0A => dieSload t w | 0x0B => dieSstore t w | 0x0C => dieRdtime t w
  | 0x10 => dieMma t w | 0x11 => dieLoad true t w | 0x12 => dieLoad false t w | 0x13 => dieSwap t w
  | 0x14 => dieDrain t w | 0x15 => dieZeroAcc t w
  | 0x38 => dieConvert t w | 0x39 => dieRngDraw t w
  | 0x40 => dieDma t w | 0x41 => dieSkewcopy t w | 0x42 => dieGather t w | 0x43 => dieScatter t w | 0x44 => dieWiden t w
  | 0x50 => dieSend t w | 0x51 => dieRecv t w | 0x52 => diePeek t w | 0x53 => dieOpen t w | 0x54 => dieClose t w
  | 0x60 => dieAccumPush t w | 0x61 => dieTallyAdd t w | 0x62 => dieLedgerDone t w
  | 0x70 => dieVerUse t w | 0x71 => dieVerNew t w | 0x72 => dieVerPin t w | 0x73 => dieVerRelease t w
  | n =>
    if (0x20 ≤ n ∧ n ≤ 0x35) ∨ n = 0x3A ∨ n = 0x3B then dieVec n t w else dieReservedOp n t w

/-- The fields of a 128-bit op word (R152): code, and the rest. -/
def opOf (v : BitVec 128) : Nat × OpWord :=
  (bitsOf v.toNat 127 120, ⟨v.extractLsb' 112 8, v.extractLsb' 96 16, v.extractLsb' 0 96⟩)

/-- The sequencer issues the op word at the `PC` of the next READY thread (R159, R161). -/
def seqTick (d : Die) : Die :=
  match nextThread d with
  | none => d
  | some t =>
    let (opcode, w) := opOf (tabGet noOp d.prog (d.thread t).pc.toNat)
    issueWord opcode t w d

/-- An active die at an idle step. -/
def dieTick (d : Die) : Die := if d.clkLost then d else seqTick (clockTick d)

/-- The management complex clears the flags of `DIE_HEALTH`: what raised them has been recorded (R440, R458). -/
def healthRead (d : Die) : Die := if d.reg 0x404 = 0 then d else d.setReg 0x404 0

/-- An idle step: MGTCLK advances, the power manager reads the rails that move (R41), a result slot whose memory
serves again is filled (R374), and every die advances. -/
def tick (s : State) : State :=
  let s := fillsGo ((List.range 8).foldl pollRail { s with mgtclk := s.mgtclk + 1 })
  let s := if s.reckoner then s.modDies (List.range 72) healthRead else s
  (List.finRange 72).foldl (fun s (p : PDie) => (s.modDie p countTick).onDie p dieTick) s

end Sys2Proof.Machine
end

