-- ==== Sys2Proof/Machine/ExecArray.lean ====
section
/-! DEFINITION. The meanings of the commands of matrix ops and the accumulator file. -/

namespace Sys2Proof.Machine

/-- MMA (R116). -/
def execMma (p : PDie) (t : ThreadId) (w : OpWord) (s : State) : Host.Outcome State Fault Refusal :=
  .next (s.onDie p (dieMma t w))

/-- LOADA (R113). -/
def execLoada (p : PDie) (t : ThreadId) (w : OpWord) (s : State) : Host.Outcome State Fault Refusal :=
  .next (s.onDie p (dieLoad true t w))

/-- LOADB (R113). -/
def execLoadb (p : PDie) (t : ThreadId) (w : OpWord) (s : State) : Host.Outcome State Fault Refusal :=
  .next (s.onDie p (dieLoad false t w))

/-- SWAP (R106). -/
def execSwap (p : PDie) (t : ThreadId) (w : OpWord) (s : State) : Host.Outcome State Fault Refusal :=
  .next (s.onDie p (dieSwap t w))

/-- DRAIN (R107). -/
def execDrain (p : PDie) (t : ThreadId) (w : OpWord) (s : State) : Host.Outcome State Fault Refusal :=
  .next (s.onDie p (dieDrain t w))

/-- DRAIN_START (R188). -/
def execDrainStart (p : PDie) (s : State) : Host.Outcome State Fault Refusal :=
  .next (s.onDie p (dieDrainStart))

/-- ZERO_ACC (R117). -/
def execZeroAcc (p : PDie) (t : ThreadId) (w : OpWord) (s : State) : Host.Outcome State Fault Refusal :=
  .next (s.onDie p (dieZeroAcc t w))

/-- ACC_FILE_ACCESS (R104). -/
def execAccFileAccess (p : PDie) (off : BitVec 41) (len : Nat) (data : Option Bytes)
    (s : State) : Host.Outcome State Fault Refusal :=
  .next (s.onDie p (dieAccAccess off len data))

/-- OP_COMPLETION (R163). -/
def execOpCompletion (p : PDie) (op : Nat) (s : State) : Host.Outcome State Fault Refusal :=
  .next (s.onDie p (dieOpCompletion op))

end Sys2Proof.Machine
end

