-- ==== Sys2Proof/Machine/ExecBoot.lean ====
section
/-! DEFINITION. The meanings of the commands of registers, power-up, boot and device reset. -/

namespace Sys2Proof.Machine

/-- REGISTER_WRITE (R5). -/
def execRegisterWrite (space : RegSpace) (w : Writer) (off : BitVec 32) (v : BitVec 32)
    (s : State) : Host.Outcome State Fault Refusal :=
  .next (registerWrite space w off.toNat v.toNat s)

/-- VDD_AON_APPLY (R56). -/
def execVddAonApply (s : State) : Host.Outcome State Fault Refusal :=
  .next (vddAonApply s)

/-- SYS_RST_RELEASE (R56). -/
def execSysRstRelease (s : State) : Host.Outcome State Fault Refusal :=
  .next (sysRstRelease s)

/-- SYS_RST_ASSERT (R58). -/
def execSysRstAssert (s : State) : Host.Outcome State Fault Refusal :=
  .next (sysRstAssert s)

/-- SYS_PWROK_DEASSERT (R58). -/
def execSysPwrokDeassert (s : State) : Host.Outcome State Fault Refusal :=
  .next (sysPwrokDeassert s)

/-- PERST (R58). -/
def execPerst (asserted : Bool) (s : State) : Host.Outcome State Fault Refusal :=
  .next (perst asserted s)

/-- IMAGE_VERIFY (R64). -/
def execImageVerify (s : State) : Host.Outcome State Fault Refusal :=
  .next (imageVerify s)

/-- DIES (R68). -/
def execDiesBoot (answered : BitVec 72) (passed : BitVec 72) (router : BitVec 72)
    (s : State) : Host.Outcome State Fault Refusal :=
  .next (diesBoot answered passed router s)

/-- DIE_ANSWER_TIMEOUT (R68). -/
def execDieAnswerTimeout (p : PDie) (s : State) : Host.Outcome State Fault Refusal :=
  .next (bootAnswerTimeout p s)

/-- MEMORY (R71). -/
def execMemoryBoot (trained : BitVec 72) (readouts : Bytes) (s : State) : Host.Outcome State Fault Refusal :=
  .next (memoryBoot trained readouts s)

/-- ENGINE_BRINGUP (R73). -/
def execEngineBringup (e : BitVec 3) (vendor : BitVec 16) (device : BitVec 16) (caps : BitVec 3)
    (primary alternate : LinkTrial) (s : State) : Host.Outcome State Fault Refusal :=
  .next (engineBringup e.toNat vendor.toNat device.toNat caps.toNat primary.trained alternate.trained primary.repair
    alternate.repair s)

/-- BOOT_DOORBELL (R77). -/
def execBootDoorbell (packet : Option Bytes) (s : State) : Host.Outcome State Fault Refusal :=
  .next (bootDoorbell packet s)

/-- FIRMWARE_LOAD (R75). -/
def execFirmwareLoad (image : Bytes) (s : State) : Host.Outcome State Fault Refusal :=
  .next (firmwareLoad image s)

/-- PROVISION (R393). -/
def execProvision (s : State) : Host.Outcome State Fault Refusal :=
  .next (provision s)

/-- IMAGE_WRITE (R79). -/
def execImageWrite (boot : Bool) (c : CmdId) (image : Bytes) (s : State) : Host.Outcome State Fault Refusal :=
  .next (imageWrite boot c image s)

/-- FW_START (R56). -/
def execFwStart (s : State) : Host.Outcome State Fault Refusal :=
  .next (fwStart s)

/-- LINKS (R56). -/
def execLinksBoot (views : List ModuleView) (s : State) : Host.Outcome State Fault Refusal :=
  .next (linksBoot views s)

/-- READY (R56). -/
def execReady (s : State) : Host.Outcome State Fault Refusal :=
  .next (ready s)

/-- AUTOSTART (R82). -/
def execAutostart (manifest : Option Bytes) (programs : Option Bytes) (objects : List Bytes)
    (s : State) : Host.Outcome State Fault Refusal :=
  .next (autostart manifest programs objects s)

/-- AUTOSTART_PORT_TIMEOUT (R82). -/
def execAutostartPortTimeout (s : State) : Host.Outcome State Fault Refusal :=
  .next (autostartPortTimeout s)

/-- DEVICE_RESET (R80). -/
def execDeviceReset (retrained : BitVec 72) (primary alternate : LinkTrials)
    (s : State) : Host.Outcome State Fault Refusal :=
  .next (warmStart retrained primary.trained alternate.trained primary.repair alternate.repair s)

end Sys2Proof.Machine
end

