-- ==== Sys2Proof/Machine/ExecControl.lean ====
section
/-! DEFINITION. The meanings of the commands of control and scalar ops, threads and the program store. -/

namespace Sys2Proof.Machine

/-- NOP (R167). -/
def execNop (p : PDie) (t : ThreadId) (w : OpWord) (s : State) : Host.Outcome State Fault Refusal :=
  .next (s.onDie p (dieNop t w))

/-- WAIT (R167). -/
def execWaitOp (p : PDie) (t : ThreadId) (w : OpWord) (s : State) : Host.Outcome State Fault Refusal :=
  .next (s.onDie p (dieWait t w))

/-- WAIT_TIMEOUT (R167). -/
def execWaitTimeout (p : PDie) (t : ThreadId) (s : State) : Host.Outcome State Fault Refusal :=
  .next (s.onDie p (dieWaitTimeout t))

/-- SIGNAL (R167). -/
def execSignal (p : PDie) (t : ThreadId) (w : OpWord) (s : State) : Host.Outcome State Fault Refusal :=
  .next (s.onDie p (dieSignal t w))

/-- BRANCH (R167). -/
def execBranch (p : PDie) (t : ThreadId) (w : OpWord) (s : State) : Host.Outcome State Fault Refusal :=
  .next (s.onDie p (dieBranch t w))

/-- LOOP (R167). -/
def execLoopOp (p : PDie) (t : ThreadId) (w : OpWord) (s : State) : Host.Outcome State Fault Refusal :=
  .next (s.onDie p (dieLoop t w))

/-- END (R166). -/
def execEndOp (p : PDie) (t : ThreadId) (w : OpWord) (s : State) : Host.Outcome State Fault Refusal :=
  .next (s.onDie p (dieEnd t w))

/-- YIELD (R161). -/
def execYieldOp (p : PDie) (t : ThreadId) (w : OpWord) (s : State) : Host.Outcome State Fault Refusal :=
  .next (s.onDie p (dieYield t w))

/-- FENCE (R167). -/
def execFence (p : PDie) (t : ThreadId) (w : OpWord) (s : State) : Host.Outcome State Fault Refusal :=
  .next (s.onDie p (dieFence t w))

/-- SETI (R167). -/
def execSeti (p : PDie) (t : ThreadId) (w : OpWord) (s : State) : Host.Outcome State Fault Refusal :=
  .next (s.onDie p (dieSeti t w))

/-- ALU (R167). -/
def execAlu (p : PDie) (t : ThreadId) (w : OpWord) (s : State) : Host.Outcome State Fault Refusal :=
  .next (s.onDie p (dieAlu t w))

/-- SLOAD (R168). -/
def execSload (p : PDie) (t : ThreadId) (w : OpWord) (s : State) : Host.Outcome State Fault Refusal :=
  .next (s.onDie p (dieSload t w))

/-- SSTORE (R168). -/
def execSstore (p : PDie) (t : ThreadId) (w : OpWord) (s : State) : Host.Outcome State Fault Refusal :=
  .next (s.onDie p (dieSstore t w))

/-- RDTIME (R167). -/
def execRdtime (p : PDie) (t : ThreadId) (w : OpWord) (s : State) : Host.Outcome State Fault Refusal :=
  .next (s.onDie p (dieRdtime t w))

/-- LAUNCH (R160). -/
def execLaunch (p : PDie) (w : Writer) (v : BitVec 32) (s : State) : Host.Outcome State Fault Refusal :=
  .next (s.onDie p (dieLaunch (decide (w = .mgmt)) v.toNat))

/-- PROG_LOAD (R162). -/
def execProgLoad (p : PDie) (w : Writer) (v : BitVec 32) (s : State) : Host.Outcome State Fault Refusal :=
  .next (s.onDie p (dieProgLoad (decide (w = .mgmt)) v.toNat))

/-- PROG_LOAD_COMPLETE (R162). -/
def execProgLoadComplete (p : PDie) (s : State) : Host.Outcome State Fault Refusal :=
  .next (s.onDie p (dieProgLoadComplete))

/-- SCRATCHPAD_CLEAR (R175). -/
def execScratchpadClear (p : PDie) (s : State) : Host.Outcome State Fault Refusal :=
  .next (s.onDie p (dieScratchpadClear))

/-- SPD_WRITE_BACK (R176). -/
def execSpdWriteBack (p : PDie) (s : State) : Host.Outcome State Fault Refusal :=
  .next (s.onDie p (dieSpdWriteBack))

end Sys2Proof.Machine
end

