-- ==== Sys2Proof/Machine/ExecCrucible.lean ====
section
/-! DEFINITION. The meanings of the commands of the Crucible. -/

namespace Sys2Proof.Machine

/-- KEY_ROTATE (R396). -/
def execKeyRotate (c : CmdId) (s : State) : Host.Outcome State Fault Refusal :=
  .next (keyRotate c s)

/-- DEBUG_UNLOCK (R408). -/
def execDebugUnlock (c : CmdId) (s : State) : Host.Outcome State Fault Refusal :=
  .next (debugUnlock c s)

/-- ATTEST (R405). -/
def execAttest (c : CmdId) (writeOk : Bool) (s : State) : Host.Outcome State Fault Refusal :=
  .next (attest c writeOk s)

/-- ATTEST_PUBKEY (R405). -/
def execAttestPubkey (c : CmdId) (s : State) : Host.Outcome State Fault Refusal :=
  .next (attestPubkey c s)

/-- ATTEST_CERT (R405). -/
def execAttestCert (c : CmdId) (s : State) : Host.Outcome State Fault Refusal :=
  .next (attestCert c s)

/-- PARTITION_FORM (R413). -/
def execPartitionForm (c : CmdId) (s : State) : Host.Outcome State Fault Refusal :=
  .next (jobsGo (partitionForm c s))

end Sys2Proof.Machine
end

