-- ==== Sys2Proof/Machine/ExecHost.lean ====
section
/-! DEFINITION. The meanings of the commands of host attachment. -/

namespace Sys2Proof.Machine

/-- COMPLETION_POST (R369). -/
def execCompletionPost (f : FnId) (q : BitVec 2) (s : State) : Host.Outcome State Fault Refusal :=
  .next (completionPost f q.toNat s)

/-- HOST_READ_TIMEOUT (R354). -/
def execHostReadTimeout (c : CmdId) (s : State) : Host.Outcome State Fault Refusal :=
  .next (hostReadTimeout c s)

/-- NOP_COMMAND (R370). -/
def execNopCommand (c : CmdId) (s : State) : Host.Outcome State Fault Refusal :=
  .next (nopCommand c s)

/-- FENCE_COMMAND (R372). -/
def execFenceCommand (c : CmdId) (s : State) : Host.Outcome State Fault Refusal :=
  .next (fenceCommand c s)

/-- COPY_IN (R370). -/
def execCopyIn (c : CmdId) (data : Bytes) (s : State) : Host.Outcome State Fault Refusal :=
  .next (copyIn c data s)

/-- COPY_OUT (R370). -/
def execCopyOut (c : CmdId) (s : State) : Host.Outcome State Fault Refusal :=
  .next (copyOut c s)

/-- BAR2_READ (R359). -/
def execBar2Read (f : FnId) (off : BitVec 36) (len : Nat) (s : State) : Host.Outcome State Fault Refusal :=
  .next (bar2Read f off.toNat len s)

/-- BAR2_WRITE (R360). -/
def execBar2Write (f : FnId) (off : BitVec 36) (data : Bytes) (s : State) : Host.Outcome State Fault Refusal :=
  .next (bar2Write f off.toNat data s)

/-- DIAG_APERTURE_READ (R361). -/
def execDiagApertureRead (p : PDie) (r : DiagAccess) (s : State) : Host.Outcome State Fault Refusal :=
  .next (diagApertureRead p r.off.toNat r.wide s)

/-- TELEMETRY_SNAPSHOT (R362). -/
def execTelemetrySnapshot (s : State) : Host.Outcome State Fault Refusal :=
  .next (telemetrySnapshot s)

/-- RESULT_RETURN (R374). -/
def execResultReturn (f : FnId) (hi : BitVec 32) (s : State) : Host.Outcome State Fault Refusal :=
  .next (resultReturn f hi.toNat s)

/-- INPUT_DESCRIPTOR (R377). -/
def execInputDescriptor (f : FnId) (ring : BitVec 3) (desc : Bytes) (data : Bytes)
    (s : State) : Host.Outcome State Fault Refusal :=
  .next (inputDescriptor f ring.toNat desc data s)

/-- INPUT_CONSUMED (R378). -/
def execInputConsumed (p : PDie) (w : Writer) (b : BitVec 2) (v : BitVec 32)
    (s : State) : Host.Outcome State Fault Refusal :=
  .next (s.onDie p (dieInputConsumed (decide (w = .mgmt)) (decide (w = .hostIf)) (s.formed p) b.toNat v.toNat))

/-- REGISTER_RING (R381). -/
def execRegisterRing (f : FnId) (s : State) : Host.Outcome State Fault Refusal :=
  .next (registerRing f s)

/-- UNREGISTER_RING (R381). -/
def execUnregisterRing (f : FnId) (s : State) : Host.Outcome State Fault Refusal :=
  .next (unregisterRing f s)

/-- MAP_WINDOW (R358). -/
def execMapWindow (f : FnId) (s : State) : Host.Outcome State Fault Refusal :=
  .next (mapWindow f s)

/-- UNMAP_WINDOW (R358). -/
def execUnmapWindow (f : FnId) (s : State) : Host.Outcome State Fault Refusal :=
  .next (unmapWindow f s)

/-- QUERY_UNDELIVERED (R383). -/
def execQueryUndelivered (f : FnId) (s : State) : Host.Outcome State Fault Refusal :=
  .next (queryUndelivered f s)

/-- REDELIVER (R383). -/
def execRedeliver (f : FnId) (s : State) : Host.Outcome State Fault Refusal :=
  .next (redeliver f s)

/-- DISCARD_UNDELIVERED (R383). -/
def execDiscardUndelivered (f : FnId) (s : State) : Host.Outcome State Fault Refusal :=
  .next (discardUndelivered f s)

/-- READ_REG (R381). -/
def execReadReg (f : FnId) (s : State) : Host.Outcome State Fault Refusal :=
  .next (readReg f s)

/-- ELS_RELEASE (R381). -/
def execElsRelease (f : FnId) (s : State) : Host.Outcome State Fault Refusal :=
  .next (elsRelease f s)

/-- RECOVERY_SET (R456). -/
def execRecoverySet (f : FnId) (s : State) : Host.Outcome State Fault Refusal :=
  .next (recoverySet f s)

/-- HOST_LINK_DOWN (R382). -/
def execHostLinkDown (s : State) : Host.Outcome State Fault Refusal :=
  .next (hostLinkDown s)

/-- FUNCTION_LEVEL_RESET (R382). -/
def execFunctionLevelReset (f : FnId) (s : State) : Host.Outcome State Fault Refusal :=
  .next (functionLevelReset f s)

/-- BUS_MASTER_DISABLE (R382). -/
def execBusMasterDisable (f : FnId) (s : State) : Host.Outcome State Fault Refusal :=
  .next (busMasterDisable f s)

/-- WORLD_ASSIGN (R390). -/
def execWorldAssign (c : CmdId) (s : State) : Host.Outcome State Fault Refusal :=
  .next (worldAssign c s)

end Sys2Proof.Machine
end

