-- ==== Sys2Proof/Machine/ExecJob.lean ====
section
/-! DEFINITION. The meanings of the commands of partitions, jobs and the power budget. -/

namespace Sys2Proof.Machine

/-- PARTITION_DISSOLVE (R413). -/
def execPartitionDissolve (c : CmdId) (s : State) : Host.Outcome State Fault Refusal :=
  .next (jobsGo (partitionDissolve c s))

/-- JOB_LOAD (R416). -/
def execJobLoad (c : CmdId) (s : State) : Host.Outcome State Fault Refusal :=
  .next (jobsGo (jobLoad c s))

/-- JOB_UNLOAD (R422). -/
def execJobUnload (c : CmdId) (s : State) : Host.Outcome State Fault Refusal :=
  .next (jobsGo (jobUnload c s))

/-- JOB_START (R421). -/
def execJobStart (c : CmdId) (s : State) : Host.Outcome State Fault Refusal :=
  .next (jobsGo (jobStart c s))

/-- JOB_PAUSE (R420). -/
def execJobPause (c : CmdId) (s : State) : Host.Outcome State Fault Refusal :=
  .next (jobsGo (jobPause c s))

/-- JOB_RESUME (R420). -/
def execJobResume (c : CmdId) (s : State) : Host.Outcome State Fault Refusal :=
  .next (jobsGo (jobResume c s))

/-- JOB_STOP_DRAIN (R422). -/
def execJobStopDrain (c : CmdId) (s : State) : Host.Outcome State Fault Refusal :=
  .next (jobsGo (jobStopDrain c s))

/-- JOB_STOP_ABORT (R422). -/
def execJobStopAbort (c : CmdId) (s : State) : Host.Outcome State Fault Refusal :=
  .next (jobsGo (jobStopAbort c s))

/-- JOB_DRAIN_TIMEOUT (R419). -/
def execJobDrainTimeout (j : BitVec 4) (s : State) : Host.Outcome State Fault Refusal :=
  .next (jobsGo (jobDrainTimeout j.toNat s))

/-- JOB_SHARE (R418). -/
def execJobShare (c : CmdId) (s : State) : Host.Outcome State Fault Refusal :=
  .next (jobsGo (jobShare c s))

/-- EVAL_RUN (R427). -/
def execEvalRun (c : CmdId) (s : State) : Host.Outcome State Fault Refusal :=
  .next (jobsGo (evalRun c s))

/-- AUTO_EVAL (R428). -/
def execAutoEval (j : BitVec 4) (s : State) : Host.Outcome State Fault Refusal :=
  .next (autoEval j.toNat s)

/-- AUTO_EVAL_TIMEOUT (R428). -/
def execAutoEvalTimeout (j : BitVec 4) (s : State) : Host.Outcome State Fault Refusal :=
  .next (autoEvalTimeout j.toNat s)

/-- KERNEL_SUBMIT (R426). -/
def execKernelSubmit (c : CmdId) (s : State) : Host.Outcome State Fault Refusal :=
  .next (jobsGo (kernelSubmit c s))

/-- JOB_QUERY (R418). -/
def execJobQuery (c : CmdId) (s : State) : Host.Outcome State Fault Refusal :=
  .next (jobsGo (jobQuery c s))

/-- BUCKET_REFILL (R424). -/
def execBucketRefill (p : PDie) (s : State) : Host.Outcome State Fault Refusal :=
  .next (s.onDie p (dieBucketRefill))

/-- POWER_ESTIMATE (R430). -/
def execPowerEstimate (p : PDie) (s : State) : Host.Outcome State Fault Refusal :=
  .next (powerEstimate p s)

/-- POWER_REQUEST (R431). -/
def execPowerRequest (p : PDie) (src : PDie) (h : BitVec 256) (s : State) : Host.Outcome State Fault Refusal :=
  .next (powerRequest p src h s)

/-- POWER_GRANT (R431). -/
def execPowerGrant (p : PDie) (h : BitVec 256) (s : State) : Host.Outcome State Fault Refusal :=
  .next (powerGrant p h s)

/-- TOKEN_AUDIT (R431). -/
def execTokenAudit (s : State) : Host.Outcome State Fault Refusal :=
  .next (tokenAudit s)

/-- TOKEN_AUDIT_READ (R431). -/
def execTokenAuditRead (s : State) : Host.Outcome State Fault Refusal :=
  .next (tokenAuditRead s)

/-- CENTRAL_DIVISION (R432). -/
def execCentralDivision (s : State) : Host.Outcome State Fault Refusal :=
  .next (centralDivision s)

/-- SETPOINT_RAISE_RETRY (R433). -/
def execSetpointRaiseRetry (row : BitVec 3) (pRow : Nat) (total : Nat)
    (s : State) : Host.Outcome State Fault Refusal :=
  .next (setpointRaiseRetry row.toNat pRow total s)

/-- WATCHDOG (R438). -/
def execWatchdog (p : PDie) (s : State) : Host.Outcome State Fault Refusal :=
  .next (watchdog p s)

/-- RECKONER_KICK (R439). -/
def execReckonerKick (s : State) : Host.Outcome State Fault Refusal :=
  .next (reckonerKick s)

end Sys2Proof.Machine
end

