-- ==== Sys2Proof/Machine/ExecLaser.lean ====
section
/-! DEFINITION. The meanings of the commands of laser bays and light engines. -/

namespace Sys2Proof.Machine

/-- MODULE_LOSS (R350). -/
def execModuleLoss (bay : BitVec 3) (cause : LossCause) (s : State) : Host.Outcome State Fault Refusal :=
  .next (s.powered (fun s => moduleLoss bay.toNat cause s))

/-- ELS_USAGE_POLL (R347). -/
def execElsUsagePoll (readings : List (BitVec 16 × BitVec 8)) (s : State) : Host.Outcome State Fault Refusal :=
  .next (s.powered (fun s => elsUsagePoll readings s))

/-- ELS_USAGE_WRITE (R347). -/
def execElsUsageWrite (bay : BitVec 3) (ok : Bool) (s : State) : Host.Outcome State Fault Refusal :=
  .next (s.powered (fun s => elsUsageWrite bay.toNat ok s))

/-- ELS_RELEASE_BAY (R349). -/
def execElsReleaseBay (w : Writer) (r : BayRelease) (s : State) : Host.Outcome State Fault Refusal :=
  .next (elsCtlWrite (decide (w = .mgmt)) r.ok (r.bay.toNat + 8) s)

/-- ELS_ACCEPT (R346). -/
def execElsAccept (c : CmdId) (s : State) : Host.Outcome State Fault Refusal :=
  .next (elsAccept c s)

/-- ENGINE_LIGHT_LOSS (R340). -/
def execEngineLightLoss (e : BitVec 3) (s : State) : Host.Outcome State Fault Refusal :=
  .next (s.powered (fun s => engineLightLoss e.toNat s))

/-- ENGINE_PROBE (R340). -/
def execEngineProbe (e : BitVec 3) (s : State) : Host.Outcome State Fault Refusal :=
  .next (s.powered (fun s => engineProbe e.toNat s))

/-- DOORBELL (R364). -/
def execDoorbell (f : FnId) (ring : BitVec 4) (idx : BitVec 32) (s : State) : Host.Outcome State Fault Refusal :=
  .next (doorbell f ring.toNat idx.toNat s)

/-- COMMAND_FETCH (R367). -/
def execCommandFetch (f : FnId) (q : BitVec 2) (entry : Bytes) (payload : Option Bytes)
    (s : State) : Host.Outcome State Fault Refusal :=
  .next (commandFetch f q entry payload s)

end Sys2Proof.Machine
end

