-- ==== Sys2Proof/Machine/ExecMemory.lean ====
section
/-! DEFINITION. The meanings of the commands of the memory controllers. -/

namespace Sys2Proof.Machine

/-- WRITE_BATCH_DRAIN (R294). -/
def execWriteBatchDrain (p : PDie) (mc : Bool) (ch : BitVec 2) (s : State) : Host.Outcome State Fault Refusal :=
  .next (s.onDie p (dieWriteBatchDrain mc ch.toNat))

/-- MC_ECC_WRITE_BACK (R282). -/
def execMcEccWriteBack (p : PDie) (mc : Bool) (s : State) : Host.Outcome State Fault Refusal :=
  .next (s.onDie p (dieMcEccWriteBack mc))

/-- PATROL_SCRUB (R285). -/
def execPatrolScrub (p : PDie) (mc : Bool) (s : State) : Host.Outcome State Fault Refusal :=
  .next (s.onDie p (diePatrolScrub mc))

/-- REFRESH (R298). -/
def execRefresh (p : PDie) (mc : Bool) (ch : BitVec 2) (s : State) : Host.Outcome State Fault Refusal :=
  .next (s.onDie p (dieRefresh mc ch.toNat))

/-- TEMP_READOUT (R298). -/
def execTempReadout (p : PDie) (mc : Bool) (celsius : BitVec 8) (s : State) : Host.Outcome State Fault Refusal :=
  .next (s.onDie p (dieTempReadout mc celsius.toNat))

/-- TG_START (R302). -/
def execTgStart (p : PDie) (w : Writer) (mc : Bool) (ch : BitVec 2) (v : BitVec 32)
    (s : State) : Host.Outcome State Fault Refusal :=
  .next (s.onDie p (dieTgStart (decide (w = .mgmt)) (s.formed p) mc ch.toNat v.toNat))

/-- TG_PASS_DONE (R302). -/
def execTgPassDone (p : PDie) (mc : Bool) (ch : BitVec 2) (ticks : BitVec 48)
    (s : State) : Host.Outcome State Fault Refusal :=
  .next (s.onDie p (dieTgPassDone mc ch.toNat ticks.toNat))

/-- REGION_SET (R291). -/
def execRegionSet (c : CmdId) (s : State) : Host.Outcome State Fault Refusal :=
  .next (regionSet c s)

/-- LINK_TRANSMIT (R323). -/
def execLinkTransmit (p : PDie) (s : State) : Host.Outcome State Fault Refusal :=
  .next (s.sendPort p dieLinkTransmit)

/-- DATA_RECEIVE (R318). -/
def execDataReceive (p : PDie) (pkt : Bytes) (s : State) : Host.Outcome State Fault Refusal :=
  .next (s.onDie p (dieDataReceive pkt))

end Sys2Proof.Machine
end

