-- ==== Sys2Proof/Machine/ExecMessage.lean ====
section
/-! DEFINITION. The meanings of the commands of messaging ops, beads and routers. -/

namespace Sys2Proof.Machine

/-- SEND (R207). -/
def execSend (p : PDie) (t : ThreadId) (w : OpWord) (s : State) : Host.Outcome State Fault Refusal :=
  .next (s.onDie p (dieSend t w))

/-- RECV (R210). -/
def execRecv (p : PDie) (t : ThreadId) (w : OpWord) (s : State) : Host.Outcome State Fault Refusal :=
  .next (s.onDie p (dieRecv t w))

/-- PEEK (R210). -/
def execPeek (p : PDie) (t : ThreadId) (w : OpWord) (s : State) : Host.Outcome State Fault Refusal :=
  .next (s.onDie p (diePeek t w))

/-- PEEK_RECV_TIMEOUT (R210). -/
def execPeekRecvTimeout (p : PDie) (op : Nat) (s : State) : Host.Outcome State Fault Refusal :=
  .next (s.onDie p (diePeekRecvTimeout op))

/-- OPEN (R212). -/
def execOpenOp (p : PDie) (t : ThreadId) (w : OpWord) (s : State) : Host.Outcome State Fault Refusal :=
  .next (s.onDie p (dieOpen t w))

/-- CLOSE (R213). -/
def execCloseOp (p : PDie) (t : ThreadId) (w : OpWord) (s : State) : Host.Outcome State Fault Refusal :=
  .next (s.onDie p (dieClose t w))

/-- ROUTER_FORWARD (R215). -/
def execRouterForward (p : PDie) (out : Fin 8) (f : Frame) (s : State) : Host.Outcome State Fault Refusal :=
  .next (routerForward p out.val f s)

/-- BEAD_ARRIVAL (R205). -/
def execBeadArrival (p : PDie) (h : BitVec 256) (payload : Bytes) (payloadUe : Bool)
    (s : State) : Host.Outcome State Fault Refusal :=
  .next (s.onDie p (fun d => if arrivalWaits h payload d then d
    else fromInbox (isData h) (.bead h payload) (dieBeadArrival h payload payloadUe) d))

/-- OPEN_BEAD (R200). -/
def execOpenBead (p : PDie) (h : BitVec 256) (s : State) : Host.Outcome State Fault Refusal :=
  .next (s.onDie p (fromInbox (isKind h 3) (.bead h []) (dieOpenBead h)))

/-- CLOSE_BEAD (R201). -/
def execCloseBead (p : PDie) (h : BitVec 256) (s : State) : Host.Outcome State Fault Refusal :=
  .next (s.onDie p (fromInbox (isKind h 4) (.bead h []) (dieCloseBead h)))

/-- CREDIT (R202). -/
def execCredit (p : PDie) (h : BitVec 256) (s : State) : Host.Outcome State Fault Refusal :=
  .next (s.onDie p (fromInbox (isControl h 1) (.bead h []) (dieCredit h)))

/-- DELIVERED (R208). -/
def execDelivered (p : PDie) (h : BitVec 256) (s : State) : Host.Outcome State Fault Refusal :=
  .next (s.onDie p (fromInbox (isControl h 0) (.bead h []) (dieDelivered h)))

/-- NAK (R208). -/
def execNak (p : PDie) (h : BitVec 256) (s : State) : Host.Outcome State Fault Refusal :=
  .next (s.atActive p (fun s => s.fromInbox p (isKind h 2) (.bead h [])
    (fun s => lehrNak p h (s.modDie p (dieNak h)))))

/-- ANSWER_TIMEOUT (R209). -/
def execAnswerTimeout (p : PDie) (handle : BitVec 10) (s : State) : Host.Outcome State Fault Refusal :=
  .next (s.onDie p (dieAnswerTimeout handle.toNat))

/-- STALL (R221). -/
def execStall (p : PDie) (t : ThreadId) (s : State) : Host.Outcome State Fault Refusal :=
  .next (s.onDie p (dieStall t))

/-- VER_USE_BIND (R231). -/
def execVerUseBind (p : PDie) (t : ThreadId) (w : OpWord) (s : State) : Host.Outcome State Fault Refusal :=
  .next (s.onDie p (dieVerUseBind t w))

end Sys2Proof.Machine
end

