-- ==== Sys2Proof/Machine/ExecMove.lean ====
section
/-! DEFINITION. The meanings of the commands of movement ops. -/

namespace Sys2Proof.Machine

/-- DMA (R178). -/
def execDma (p : PDie) (t : ThreadId) (w : OpWord) (s : State) : Host.Outcome State Fault Refusal :=
  .next (s.onDie p (dieDma t w))

/-- SKEWCOPY (R180). -/
def execSkewcopy (p : PDie) (t : ThreadId) (w : OpWord) (s : State) : Host.Outcome State Fault Refusal :=
  .next (s.onDie p (dieSkewcopy t w))

/-- GATHER (R182). -/
def execGather (p : PDie) (t : ThreadId) (w : OpWord) (s : State) : Host.Outcome State Fault Refusal :=
  .next (s.onDie p (dieGather t w))

/-- SCATTER (R182). -/
def execScatter (p : PDie) (t : ThreadId) (w : OpWord) (s : State) : Host.Outcome State Fault Refusal :=
  .next (s.onDie p (dieScatter t w))

/-- WIDEN (R181). -/
def execWiden (p : PDie) (t : ThreadId) (w : OpWord) (s : State) : Host.Outcome State Fault Refusal :=
  .next (s.onDie p (dieWiden t w))

end Sys2Proof.Machine
end

