-- ==== Sys2Proof/Machine/ExecPort.lean ====
section
/-! DEFINITION. The meanings of the commands of the Wilkel ports. -/

namespace Sys2Proof.Machine

/-- IDLE_RECEIVE (R320). -/
def execIdleReceive (p : PDie) (pkt : Bytes) (s : State) : Host.Outcome State Fault Refusal :=
  .next (s.onDie p (dieIdleReceive pkt))

/-- VC_BUFFER_RELEASE (R322). -/
def execVcBufferRelease (p : PDie) (vc : BitVec 2) (s : State) : Host.Outcome State Fault Refusal :=
  .next (s.onDie p (dieVcBufferRelease (s.portSecure p) vc.toNat))

/-- LINK_IDLE_TIMER (R320). -/
def execLinkIdleTimer (p : PDie) (s : State) : Host.Outcome State Fault Refusal :=
  .next (s.sendPort p dieLinkIdleTimer)

/-- GAP_TIMEOUT (R319). -/
def execGapTimeout (p : PDie) (s : State) : Host.Outcome State Fault Refusal :=
  .next (s.onDie p (dieGapTimeout))

/-- REPLAY_TIMEOUT (R321). -/
def execReplayTimeout (p : PDie) (s : State) : Host.Outcome State Fault Refusal :=
  .next (s.onDie p (dieReplayTimeout))

/-- REPLAY_REQ (R321). -/
def execReplayReq (p : PDie) (pkt : Bytes) (s : State) : Host.Outcome State Fault Refusal :=
  .next (s.onDie p (dieReplayReq pkt))

/-- LANE_LOSS_OF_LOCK (R324). -/
def execLaneLossOfLock (p : PDie) (lane : Fin 18) (s : State) : Host.Outcome State Fault Refusal :=
  .next (s.onDie p (dieLaneLossOfLock lane))

/-- LANE_WINDOW_END (R324). -/
def execLaneWindowEnd (p : PDie) (csym : List Nat) (ucw : List Nat) (s : State) : Host.Outcome State Fault Refusal :=
  .next (s.onDie p (dieLaneWindowEnd csym ucw))

/-- LANE_FAIL (R325). -/
def execLaneFail (p : PDie) (pkt : Bytes) (s : State) : Host.Outcome State Fault Refusal :=
  .next (s.onDie p (dieLaneFail pkt))

/-- LANE_FAIL_REPEAT (R325). -/
def execLaneFailRepeat (p : PDie) (s : State) : Host.Outcome State Fault Refusal :=
  .next (s.onDie p (dieLaneFailRepeat))

/-- LANE_ACK (R325). -/
def execLaneAck (p : PDie) (pkt : Bytes) (s : State) : Host.Outcome State Fault Refusal :=
  .next (s.onDie p (dieLaneAck pkt))

/-- RESUME (R326). -/
def execLinkResume (p : PDie) (pkt : Bytes) (s : State) : Host.Outcome State Fault Refusal :=
  .next (s.onDie p (dieLinkResume pkt))

/-- RESET (R328). -/
def execLinkReset (p : PDie) (pkt : Bytes) (s : State) : Host.Outcome State Fault Refusal :=
  .next (s.onDie p (dieLinkReset pkt))

/-- RESET_ACK (R328). -/
def execLinkResetAck (p : PDie) (pkt : Bytes) (s : State) : Host.Outcome State Fault Refusal :=
  .next (s.onDie p (dieLinkResetAck pkt))

/-- LINK_TRAINING_DONE (R326). -/
def execLinkTrainingDone (p : PDie) (goodTx : BitVec 18) (goodRx : BitVec 18) (rttNs : BitVec 20)
    (s : State) : Host.Outcome State Fault Refusal :=
  .next (s.onDie p (dieLinkTrainingDone goodTx goodRx rttNs.toNat))

/-- LINK_TRAINING_FAIL (R326). -/
def execLinkTrainingFail (p : PDie) (s : State) : Host.Outcome State Fault Refusal :=
  .next (s.onDie p (dieLinkTrainingFail))

/-- LINK_DOWN_RETRY (R326). -/
def execLinkDownRetry (p : PDie) (s : State) : Host.Outcome State Fault Refusal :=
  .next (s.onDie p (dieLinkDownRetry (s.role (wlkPort (s.die p)))))

/-- RETRAIN_REQ (R334). -/
def execRetrainReq (p : PDie) (w : Writer) (s : State) : Host.Outcome State Fault Refusal :=
  .next (s.onDie p (dieRetrainReq (decide (w = .mgmt))))

/-- DISABLE (R326). -/
def execPortDisable (p : PDie) (w : Writer) (s : State) : Host.Outcome State Fault Refusal :=
  .next (s.onDie p (diePortDisable (decide (w = .mgmt))))

/-- RELAY_FAILOVER (R330). -/
def execRelayFailover (p : PDie) (alternateOk : Bool) (s : State) : Host.Outcome State Fault Refusal :=
  .next (s.onDie p (dieRelayFailover alternateOk))

/-- MODULE_INSERT (R345). -/
def execModuleInsert (bay : BitVec 3) (view : ModuleView) (s : State) : Host.Outcome State Fault Refusal :=
  .next (moduleInsert bay.toNat view s)

/-- MODULE_LOCK (R349). -/
def execModuleLock (bay : BitVec 3) (s : State) : Host.Outcome State Fault Refusal :=
  .next (s.powered (fun s => moduleLock bay.toNat s))

end Sys2Proof.Machine
end

