-- ==== Sys2Proof/Machine/ExecPower.lean ====
section
/-! DEFINITION. The meanings of the commands of rails, pacing, temperature and clocks. -/

namespace Sys2Proof.Machine

/-- SETPOINT_CHANGE (R41). -/
def execSetpointChange (row : BitVec 3) (mv : BitVec 10) (pRow : Nat) (total : Nat)
    (s : State) : Host.Outcome State Fault Refusal :=
  .next (s.powered (fun s => setpointChange row.toNat mv.toNat pRow total s))

/-- AVS_FRAME_FAIL (R43). -/
def execAvsFrameFail (s : State) : Host.Outcome State Fault Refusal :=
  .next (s.powered (fun s => avsFrameFail s))

/-- AVS_RETRY (R43). -/
def execAvsRetry (r : AvsTrial) (s : State) : Host.Outcome State Fault Refusal :=
  .next (s.powered (fun s => avsRetry r.rail.val r.what r.ok s))

/-- ROW_OVER_VOLTAGE (R44). -/
def execRowOverVoltage (m : RowVolts) (s : State) : Host.Outcome State Fault Refusal :=
  .next (s.powered (fun s => rowOverVoltage m.row.toNat m.uv s))

/-- OVER_VOLTAGE_RELEASE (R44). -/
def execOverVoltageRelease (m : RowVolts) (s : State) : Host.Outcome State Fault Refusal :=
  .next (s.powered (fun s => overVoltageRelease m.row.toNat m.uv s))

/-- ROW_OVER_CURRENT (R44). -/
def execRowOverCurrent (m : RowAmps) (s : State) : Host.Outcome State Fault Refusal :=
  .next (s.powered (fun s => rowOverCurrent m.row.toNat m.ma s))

/-- PACKAGE_EXCURSION (R44). -/
def execPackageExcursion (m : PackageAmps) (s : State) : Host.Outcome State Fault Refusal :=
  .next (s.powered (fun s => packageExcursion m.imon m.sram m.long s))

/-- PACE_LOWER_TICK (R44). -/
def execPaceLowerTick (src : PaceSource) (s : State) : Host.Outcome State Fault Refusal :=
  .next (s.powered (fun s => paceLowerTick src s))

/-- PACE_RAISE_TICK (R44). -/
def execPaceRaiseTick (src : PaceSource) (s : State) : Host.Outcome State Fault Refusal :=
  .next (s.powered (fun s => paceRaiseTick src s))

/-- ISSUE_RAMP_STEP (R94). -/
def execIssueRampStep (p : PDie) (s : State) : Host.Outcome State Fault Refusal :=
  .next (s.onDie p (dieRampStep))

/-- THERMAL_THROTTLE (R434). -/
def execThermalThrottle (p : PDie) (celsius : BitVec 8) (s : State) : Host.Outcome State Fault Refusal :=
  .next (s.powered (fun s => thermalThrottle p celsius s))

/-- THROTTLE_REMOVAL (R434). -/
def execThrottleRemoval (p : PDie) (s : State) : Host.Outcome State Fault Refusal :=
  .next (s.powered (fun s => throttleRemoval p s))

/-- THROTTLE_SETPOINT_LOWER (R434). -/
def execThrottleSetpointLower (row : BitVec 3) (s : State) : Host.Outcome State Fault Refusal :=
  .next (s.powered (fun s => throttleSetpointLower row.toNat s))

/-- THROTTLE_RECOVER (R434). -/
def execThrottleRecover (row : BitVec 3) (pRow : Nat) (total : Nat) (s : State) : Host.Outcome State Fault Refusal :=
  .next (s.powered (fun s => throttleRecover row.toNat pRow total s))

/-- THERMAL_CLAMP (R52). -/
def execThermalClamp (p : PDie) (celsius : BitVec 8) (s : State) : Host.Outcome State Fault Refusal :=
  .next (s.powered (fun s => thermalClamp p celsius s))

/-- THERMAL_CLAMP_RELEASE (R52). -/
def execThermalClampRelease (p : PDie) (celsius : BitVec 8) (s : State) : Host.Outcome State Fault Refusal :=
  .next (s.powered (fun s => thermalClampRelease p celsius s))

/-- THERMAL_HALT (R52). -/
def execThermalHalt (p : PDie) (celsius : BitVec 8) (s : State) : Host.Outcome State Fault Refusal :=
  .next (s.powered (fun s => thermalHalt p celsius s))

/-- THERMTRIP (R52). -/
def execThermtrip (p : PDie) (celsius : BitVec 8) (s : State) : Host.Outcome State Fault Refusal :=
  .next (s.powered (fun s => thermtrip p celsius s))

/-- REFCLK_LOSS (R49). -/
def execRefclkLoss (s : State) : Host.Outcome State Fault Refusal :=
  .next (s.powered (fun s => refclkLoss s))

/-- ROWCLK_LOSS (R49). -/
def execRowclkLoss (row : BitVec 3) (s : State) : Host.Outcome State Fault Refusal :=
  .next (s.powered (fun s => rowclkLoss row.toNat s))

/-- LECLK_LOSS (R49). -/
def execLeclkLoss (e : BitVec 3) (s : State) : Host.Outcome State Fault Refusal :=
  .next (s.powered (fun s => leclkLoss e.toNat s))

/-- MGTCLK_LOSS (R49). -/
def execMgtclkLoss (s : State) : Host.Outcome State Fault Refusal :=
  .next (s.powered (fun s => mgtclkLoss s))

/-- CLOCK_RESTORED (R49). -/
def execClockRestored (c : Clock) (s : State) : Host.Outcome State Fault Refusal :=
  .next (s.powered (fun s => clockRestored c s))

end Sys2Proof.Machine
end

