-- ==== Sys2Proof/Machine/ExecRecovery.lean ====
section
/-! DEFINITION. The meanings of the commands of hang detection, recovery and the Lehr. -/

namespace Sys2Proof.Machine

/-- RECKONER_WDOG (R439). -/
def execReckonerWdog (s : State) : Host.Outcome State Fault Refusal :=
  .next (reckonerWdog s)

/-- PARTITION_RESET (R442). -/
def execPartitionReset (part : BitVec 3) (late : BitVec 72) (s : State) : Host.Outcome State Fault Refusal :=
  .next (jobsGo (partitionReset part.toNat ((List.range 72).filter (fun p => late.getLsbD p)) s))

/-- ESCALATION (R441). -/
def execEscalation (part : BitVec 3) (s : State) : Host.Outcome State Fault Refusal :=
  .next (escalation part.toNat s)

/-- RESET_PARTITION (R441). -/
def execResetPartition (c : CmdId) (s : State) : Host.Outcome State Fault Refusal :=
  .next (jobsGo (resetPartition c s))

/-- RESET_DEVICE (R441). -/
def execResetDevice (c : CmdId) (s : State) : Host.Outcome State Fault Refusal :=
  .next (resetDevice c s)

/-- SPARING (R445). -/
def execSparing (p : PDie) (retrained : Bool) (s : State) : Host.Outcome State Fault Refusal :=
  .next (sparing p retrained s)

/-- BIND (R441). -/
def execBindTimeout (p : PDie) (s : State) : Host.Outcome State Fault Refusal :=
  .next (bindTimeout p s)

/-- JOB_RECOVERY (R450). -/
def execJobRecovery (part : BitVec 3) (s : State) : Host.Outcome State Fault Refusal :=
  .next (jobsGo (jobRecovery part.toNat s))

/-- REPLICA_RESTORE (R452). -/
def execReplicaRestore (p : PDie) (j : BitVec 4) (s : State) : Host.Outcome State Fault Refusal :=
  .next (s.atActive p (replicaRestore p j.toNat))

/-- LEHR_REQUEST (R452). -/
def execLehrRequest (p : PDie) (h : BitVec 256) (s : State) : Host.Outcome State Fault Refusal :=
  .next (s.atActive p (lehrRequest p h))

/-- LEHR_PART_RECEIVE (R452). -/
def execLehrPartReceive (p : PDie) (s : State) : Host.Outcome State Fault Refusal :=
  .next (s.atActive p (lehrPartReceive p))

/-- CAPTURE (R447). -/
def execCapture (p : PDie) (_w : Writer) (v : BitVec 32) (s : State) : Host.Outcome State Fault Refusal :=
  .next (s.onDie p (lhrOpWrite (lhrOp 0 v.toNat)))

/-- LEHR_RESTORE (R448). -/
def execLehrRestore (p : PDie) (_w : Writer) (v : BitVec 32) (s : State) : Host.Outcome State Fault Refusal :=
  .next (s.onDie p (lhrOpWrite (lhrOp 1 v.toNat)))

/-- SHARD_READY (R453). -/
def execShardReady (p : PDie) (_w : Writer) (v : BitVec 32) (s : State) : Host.Outcome State Fault Refusal :=
  .next (s.onDie p (lhrOpWrite (lhrOp 2 v.toNat)))

/-- PARISON_UNPIN (R454). -/
def execParisonUnpin (p : PDie) (j : BitVec 4) (s : State) : Host.Outcome State Fault Refusal :=
  .next (s.atActive p (parisonUnpin p j.toNat))

/-- LEDGER_RESUME (R451). -/
def execLedgerResume (p : PDie) (w : Writer) (v : BitVec 32) (s : State) : Host.Outcome State Fault Refusal :=
  .next (s.onDie p (ldgResumeWrite (decide (w = .mgmt)) (putBits v.toNat 31 31 1)))

/-- EXPORT_SLOT (R454). -/
def execExportSlot (c : CmdId) (s : State) : Host.Outcome State Fault Refusal :=
  .next (exportSlot c s)

/-- EXPORT_OBJECT (R454). -/
def execExportObject (c : CmdId) (s : State) : Host.Outcome State Fault Refusal :=
  .next (exportObject c s)

/-- RESTORE (R455). -/
def execRestore (c : CmdId) (objects : List Bytes) (s : State) : Host.Outcome State Fault Refusal :=
  .next (jobsGo (restore c objects s))

/-- TEARDOWN_TIMEOUT (R422). -/
def execTeardownTimeout (j : BitVec 4) (s : State) : Host.Outcome State Fault Refusal :=
  .next (teardownTimeout j.toNat s)

/-- RECEIVED_LIGHT_RETURN (R340). -/
def execReceivedLightReturn (e : BitVec 3) (s : State) : Host.Outcome State Fault Refusal :=
  .next (s.powered (fun s => receivedLightReturn e.toNat s))

end Sys2Proof.Machine
end

