-- ==== Sys2Proof/Machine/ExecReduce.lean ====
section
/-! DEFINITION. The meanings of the commands of remote accumulation, tallies and the step ledger. -/

namespace Sys2Proof.Machine

/-- RAP_ARRIVAL (R254). -/
def execRapArrival (p : PDie) (h : BitVec 512) (payload : Bytes) (s : State) : Host.Outcome State Fault Refusal :=
  .next (s.onDie p (fun d => if rapWaits h payload d then d else fromInbox true (.rap h payload) (dieRapArrival h payload) d))

/-- SWEEP_COMPLETE (R253). -/
def execSweepComplete (p : PDie) (mc : Bool) (ctx : BitVec 11) (s : State) : Host.Outcome State Fault Refusal :=
  .next (s.onDie p (dieSweepComplete mc ctx.toNat))

/-- TALLY_ADD (R265). -/
def execTallyAdd (p : PDie) (t : ThreadId) (w : OpWord) (s : State) : Host.Outcome State Fault Refusal :=
  .next (s.onDie p (dieTallyAdd t w))

/-- TALLY_COMBINE (R264). -/
def execTallyCombine (p : PDie) (dir : BitVec 3) (egress : Option (BitVec 3)) (h : BitVec 256)
    (s : State) : Host.Outcome State Fault Refusal :=
  .next (tallyCombine p dir.toNat egress h s)

/-- TALLY_COMBINE_RELEASE (R264). -/
def execTallyCombineRelease (p : PDie) (dir : BitVec 3) (h : BitVec 256)
    (s : State) : Host.Outcome State Fault Refusal :=
  .next (tallyRelease p dir h s)

/-- COLLECTOR_TALLY (R266). -/
def execCollectorTally (p : PDie) (h : BitVec 256) (s : State) : Host.Outcome State Fault Refusal :=
  .next (s.onDie p (fromInbox (isCollectorTally h) (.bead h []) (dieCollectorTally h)))

/-- LEDGER_TALLY (R267). -/
def execLedgerTally (p : PDie) (h : BitVec 256) (s : State) : Host.Outcome State Fault Refusal :=
  .next (s.onDie p (fromInbox (isLedgerTally h) (.bead h []) (dieLedgerTally h)))

/-- LEDGER_DEADLINE (R267). -/
def execLedgerDeadline (p : PDie) (s : State) : Host.Outcome State Fault Refusal :=
  .next (s.onDie p (dieLedgerDeadline))

/-- NOTICE_RESEND (R268). -/
def execNoticeResend (p : PDie) (s : State) : Host.Outcome State Fault Refusal :=
  .next (s.onDie p (dieNoticeResend))

/-- COMMIT (R269). -/
def execCommitNotice (p : PDie) (h : BitVec 256) (s : State) : Host.Outcome State Fault Refusal :=
  .next (s.atActive p (fun s => s.fromInbox p (isControl h 3) (.bead h []) (commitNotice p h)))

/-- REPEAT (R269). -/
def execRepeatNotice (p : PDie) (h : BitVec 256) (s : State) : Host.Outcome State Fault Refusal :=
  .next (s.atActive p (fun s => s.fromInbox p (isControl h 4) (.bead h []) (repeatNotice p h)))

/-- STOP (R269). -/
def execStopNotice (p : PDie) (h : BitVec 256) (s : State) : Host.Outcome State Fault Refusal :=
  .next (s.atActive p (fun s => s.fromInbox p (isControl h 5) (.bead h []) (stopNotice p h)))

/-- LEDGER_DONE_DONE (R271). -/
def execLedgerDoneDone (p : PDie) (t : ThreadId) (w : OpWord) (s : State) : Host.Outcome State Fault Refusal :=
  .next (s.onDie p (dieLedgerDoneDone t w))

/-- LEDGER_DONE_WAITCTX (R271). -/
def execLedgerDoneWaitctx (p : PDie) (t : ThreadId) (w : OpWord) (s : State) : Host.Outcome State Fault Refusal :=
  .next (s.onDie p (dieLedgerDoneWaitctx t w))

/-- LEDGER_DONE_RELEASE (R271). -/
def execLedgerDoneRelease (p : PDie) (t : ThreadId) (w : OpWord) (s : State) : Host.Outcome State Fault Refusal :=
  .next (s.onDie p (dieLedgerDoneRelease t w))

/-- LEDGER_DONE_TIMEOUT (R271). -/
def execLedgerDoneTimeout (p : PDie) (op : Nat) (s : State) : Host.Outcome State Fault Refusal :=
  .next (s.onDie p (dieLedgerDoneTimeout op))

/-- LDG_ENABLE (R277). -/
def execLdgEnable (p : PDie) (w : Writer) (v : BitVec 32) (s : State) : Host.Outcome State Fault Refusal :=
  .next (s.onDie p (dieLdgEnable (decide (w = .mgmt)) v.toNat))

/-- LDG_DISABLE (R277). -/
def execLdgDisable (p : PDie) (w : Writer) (v : BitVec 32) (s : State) : Host.Outcome State Fault Refusal :=
  .next (s.onDie p (dieLdgDisable (decide (w = .mgmt)) v.toNat))

/-- CONTEXT_CONFIG (R251). -/
def execContextConfig (p : PDie) (w : Writer) (mc : Bool) (ctx : BitVec 11) (word : BitVec 2) (v : BitVec 32)
    (s : State) : Host.Outcome State Fault Refusal :=
  .next (s.onDie p (dieContextConfig (decide (w = .mgmt)) mc ctx.toNat word.toNat v.toNat))

/-- COLLECTOR_ENABLE (R278). -/
def execCollectorEnable (p : PDie) (w : Writer) (c : BitVec 8) (v : BitVec 32)
    (s : State) : Host.Outcome State Fault Refusal :=
  .next (s.onDie p (dieCollectorEnable (decide (w = .mgmt)) c.toNat v.toNat))

/-- RESHARD (R273). -/
def execReshard (c : CmdId) (s : State) : Host.Outcome State Fault Refusal :=
  .next (reshard c s)

/-- MC_REQUEST (R290). -/
def execMcRequest (p : PDie) (r : McReq) (s : State) : Host.Outcome State Fault Refusal :=
  .next (s.onDie p (dieMcRequest r))

/-- MC_READ_RETURN (R283). -/
def execMcReadReturn (p : PDie) (mc : Bool) (i : Nat) (s : State) : Host.Outcome State Fault Refusal :=
  .next (s.onDie p (dieMcReadReturn mc i))

end Sys2Proof.Machine
end

