-- ==== Sys2Proof/Machine/ExecVector.lean ====
section
/-! DEFINITION. The meanings of the commands of vector ops and the generators. -/

namespace Sys2Proof.Machine

/-- CONVERT (R133). -/
def execConvert (p : PDie) (t : ThreadId) (w : OpWord) (s : State) : Host.Outcome State Fault Refusal :=
  .next (s.onDie p (dieConvert t w))

/-- RNG_DRAW (R145). -/
def execRngDraw (p : PDie) (t : ThreadId) (w : OpWord) (s : State) : Host.Outcome State Fault Refusal :=
  .next (s.onDie p (dieRngDraw t w))

/-- VADD (R186). -/
def execVadd (p : PDie) (t : ThreadId) (w : OpWord) (s : State) : Host.Outcome State Fault Refusal :=
  .next (s.onDie p (dieVec 0x20 t w))

/-- VSUB (R186). -/
def execVsub (p : PDie) (t : ThreadId) (w : OpWord) (s : State) : Host.Outcome State Fault Refusal :=
  .next (s.onDie p (dieVec 0x21 t w))

/-- VMUL (R186). -/
def execVmul (p : PDie) (t : ThreadId) (w : OpWord) (s : State) : Host.Outcome State Fault Refusal :=
  .next (s.onDie p (dieVec 0x22 t w))

/-- VFMA (R186). -/
def execVfma (p : PDie) (t : ThreadId) (w : OpWord) (s : State) : Host.Outcome State Fault Refusal :=
  .next (s.onDie p (dieVec 0x23 t w))

/-- VDIV (R186). -/
def execVdiv (p : PDie) (t : ThreadId) (w : OpWord) (s : State) : Host.Outcome State Fault Refusal :=
  .next (s.onDie p (dieVec 0x24 t w))

/-- VSQRT (R186). -/
def execVsqrt (p : PDie) (t : ThreadId) (w : OpWord) (s : State) : Host.Outcome State Fault Refusal :=
  .next (s.onDie p (dieVec 0x25 t w))

/-- VMIN (R186). -/
def execVmin (p : PDie) (t : ThreadId) (w : OpWord) (s : State) : Host.Outcome State Fault Refusal :=
  .next (s.onDie p (dieVec 0x26 t w))

/-- VMAX (R186). -/
def execVmax (p : PDie) (t : ThreadId) (w : OpWord) (s : State) : Host.Outcome State Fault Refusal :=
  .next (s.onDie p (dieVec 0x27 t w))

/-- VMINNUM (R186). -/
def execVminnum (p : PDie) (t : ThreadId) (w : OpWord) (s : State) : Host.Outcome State Fault Refusal :=
  .next (s.onDie p (dieVec 0x28 t w))

/-- VMAXNUM (R186). -/
def execVmaxnum (p : PDie) (t : ThreadId) (w : OpWord) (s : State) : Host.Outcome State Fault Refusal :=
  .next (s.onDie p (dieVec 0x29 t w))

/-- VCMP (R186). -/
def execVcmp (p : PDie) (t : ThreadId) (w : OpWord) (s : State) : Host.Outcome State Fault Refusal :=
  .next (s.onDie p (dieVec 0x2A t w))

/-- VSEL (R186). -/
def execVsel (p : PDie) (t : ThreadId) (w : OpWord) (s : State) : Host.Outcome State Fault Refusal :=
  .next (s.onDie p (dieVec 0x2B t w))

/-- VEXP2 (R130). -/
def execVexp2 (p : PDie) (t : ThreadId) (w : OpWord) (s : State) : Host.Outcome State Fault Refusal :=
  .next (s.onDie p (dieVec 0x2C t w))

/-- VLOG2 (R130). -/
def execVlog2 (p : PDie) (t : ThreadId) (w : OpWord) (s : State) : Host.Outcome State Fault Refusal :=
  .next (s.onDie p (dieVec 0x2D t w))

/-- VRCP (R130). -/
def execVrcp (p : PDie) (t : ThreadId) (w : OpWord) (s : State) : Host.Outcome State Fault Refusal :=
  .next (s.onDie p (dieVec 0x2E t w))

/-- VRSQRT (R130). -/
def execVrsqrt (p : PDie) (t : ThreadId) (w : OpWord) (s : State) : Host.Outcome State Fault Refusal :=
  .next (s.onDie p (dieVec 0x2F t w))

/-- VCVT (R186). -/
def execVcvt (p : PDie) (t : ThreadId) (w : OpWord) (s : State) : Host.Outcome State Fault Refusal :=
  .next (s.onDie p (dieVec 0x30 t w))

/-- VREDUCE (R187). -/
def execVreduce (p : PDie) (t : ThreadId) (w : OpWord) (s : State) : Host.Outcome State Fault Refusal :=
  .next (s.onDie p (dieVec 0x31 t w))

/-- VLOAD (R186). -/
def execVload (p : PDie) (t : ThreadId) (w : OpWord) (s : State) : Host.Outcome State Fault Refusal :=
  .next (s.onDie p (dieVec 0x32 t w))

/-- VSTORE (R186). -/
def execVstore (p : PDie) (t : ThreadId) (w : OpWord) (s : State) : Host.Outcome State Fault Refusal :=
  .next (s.onDie p (dieVec 0x33 t w))

/-- VSPLAT (R186). -/
def execVsplat (p : PDie) (t : ThreadId) (w : OpWord) (s : State) : Host.Outcome State Fault Refusal :=
  .next (s.onDie p (dieVec 0x34 t w))

/-- VGET (R189). -/
def execVget (p : PDie) (t : ThreadId) (w : OpWord) (s : State) : Host.Outcome State Fault Refusal :=
  .next (s.onDie p (dieVec 0x35 t w))

/-- VREG_WRITE (R189). -/
def execVregWrite (p : PDie) (t : ThreadId) (w : OpWord) (s : State) : Host.Outcome State Fault Refusal :=
  .next (s.onDie p (dieVec 0x3A t w))

/-- VREG_READ (R189). -/
def execVregRead (p : PDie) (t : ThreadId) (w : OpWord) (s : State) : Host.Outcome State Fault Refusal :=
  .next (s.onDie p (dieVec 0x3B t w))

end Sys2Proof.Machine
end

