-- ==== Sys2Proof/Machine/ExecVersion.lean ====
section
/-! DEFINITION. The meanings of the commands of the version registry. -/

namespace Sys2Proof.Machine

/-- VER_USE_BY_NUMBER (R232). -/
def execVerUseByNumber (p : PDie) (t : ThreadId) (w : OpWord) (s : State) : Host.Outcome State Fault Refusal :=
  .next (s.onDie p (dieVerUseByNumber t w))

/-- VER_USE_LOOKUP (R238). -/
def execVerUseLookup (p : PDie) (t : ThreadId) (w : OpWord) (s : State) : Host.Outcome State Fault Refusal :=
  .next (s.onDie p (dieVerUseLookup t w))

/-- VER_USE_TIMEOUT (R239). -/
def execVerUseTimeout (p : PDie) (op : Nat) (s : State) : Host.Outcome State Fault Refusal :=
  .next (s.onDie p (dieVerUseTimeout op))

/-- VER_NEW_ALLOC (R234). -/
def execVerNewAlloc (p : PDie) (t : ThreadId) (w : OpWord) (s : State) : Host.Outcome State Fault Refusal :=
  .next (s.onDie p (dieVerNewAlloc t w))

/-- VER_NEW_SEAL (R234). -/
def execVerNewSeal (p : PDie) (t : ThreadId) (w : OpWord) (s : State) : Host.Outcome State Fault Refusal :=
  .next (s.onDie p (dieVerNewSeal t w))

/-- VER_NEW_INITIAL (R234). -/
def execVerNewInitial (p : PDie) (t : ThreadId) (w : OpWord) (s : State) : Host.Outcome State Fault Refusal :=
  .next (s.onDie p (dieVerNewInitial t w))

/-- VER_PIN (R236). -/
def execVerPin (p : PDie) (t : ThreadId) (w : OpWord) (s : State) : Host.Outcome State Fault Refusal :=
  .next (s.onDie p (dieVerPin t w))

/-- VER_RELEASE_REF (R233). -/
def execVerReleaseRef (p : PDie) (t : ThreadId) (w : OpWord) (s : State) : Host.Outcome State Fault Refusal :=
  .next (s.onDie p (dieVerReleaseRef t w))

/-- VER_RELEASE_UNPIN (R233). -/
def execVerReleaseUnpin (p : PDie) (t : ThreadId) (w : OpWord) (s : State) : Host.Outcome State Fault Refusal :=
  .next (s.onDie p (dieVerReleaseUnpin t w))

/-- VER_RELEASE_DISCARD (R234). -/
def execVerReleaseDiscard (p : PDie) (t : ThreadId) (w : OpWord) (s : State) : Host.Outcome State Fault Refusal :=
  .next (s.onDie p (dieVerReleaseDiscard t w))

/-- ACCUM_PUSH (R258). -/
def execAccumPush (p : PDie) (t : ThreadId) (w : OpWord) (s : State) : Host.Outcome State Fault Refusal :=
  .next (s.onDie p (dieAccumPush t w))

end Sys2Proof.Machine
end

