-- ==== Sys2Proof/Machine/Dispatch.lean ====
section
/-! DEFINITION. The dispatch: one arm per command, each a direct call of its meaning. -/

namespace Sys2Proof.Machine

/-- What a command does to everything but the queue. -/
def exec (i : Instr) (s : State) : Host.Outcome State Fault Refusal :=
  match i with
  | .registerWrite space w off v => Sys2Proof.Machine.execRegisterWrite space w off v s
  | .vddAonApply => Sys2Proof.Machine.execVddAonApply s
  | .sysRstRelease => Sys2Proof.Machine.execSysRstRelease s
  | .sysRstAssert => Sys2Proof.Machine.execSysRstAssert s
  | .sysPwrokDeassert => Sys2Proof.Machine.execSysPwrokDeassert s
  | .perst asserted => Sys2Proof.Machine.execPerst asserted s
  | .imageVerify => Sys2Proof.Machine.execImageVerify s
  | .diesBoot answered passed router => Sys2Proof.Machine.execDiesBoot answered passed router s
  | .dieAnswerTimeout p => Sys2Proof.Machine.execDieAnswerTimeout p s
  | .memoryBoot trained readouts => Sys2Proof.Machine.execMemoryBoot trained readouts s
  | .engineBringup e vendor device caps primary alternate => Sys2Proof.Machine.execEngineBringup e vendor device caps primary alternate s
  | .bootDoorbell packet => Sys2Proof.Machine.execBootDoorbell packet s
  | .firmwareLoad image => Sys2Proof.Machine.execFirmwareLoad image s
  | .provision => Sys2Proof.Machine.execProvision s
  | .imageWrite boot c image => Sys2Proof.Machine.execImageWrite boot c image s
  | .fwStart => Sys2Proof.Machine.execFwStart s
  | .linksBoot views => Sys2Proof.Machine.execLinksBoot views s
  | .ready => Sys2Proof.Machine.execReady s
  | .autostart manifest programs objects => Sys2Proof.Machine.execAutostart manifest programs objects s
  | .autostartPortTimeout => Sys2Proof.Machine.execAutostartPortTimeout s
  | .deviceReset retrained primary alternate => Sys2Proof.Machine.execDeviceReset retrained primary alternate s
  | .setpointChange row mv pRow total => Sys2Proof.Machine.execSetpointChange row mv pRow total s
  | .avsFrameFail => Sys2Proof.Machine.execAvsFrameFail s
  | .avsRetry r => Sys2Proof.Machine.execAvsRetry r s
  | .rowOverVoltage m => Sys2Proof.Machine.execRowOverVoltage m s
  | .overVoltageRelease m => Sys2Proof.Machine.execOverVoltageRelease m s
  | .rowOverCurrent m => Sys2Proof.Machine.execRowOverCurrent m s
  | .packageExcursion m => Sys2Proof.Machine.execPackageExcursion m s
  | .paceLowerTick src => Sys2Proof.Machine.execPaceLowerTick src s
  | .paceRaiseTick src => Sys2Proof.Machine.execPaceRaiseTick src s
  | .issueRampStep p => Sys2Proof.Machine.execIssueRampStep p s
  | .thermalThrottle p celsius => Sys2Proof.Machine.execThermalThrottle p celsius s
  | .throttleRemoval p => Sys2Proof.Machine.execThrottleRemoval p s
  | .throttleSetpointLower row => Sys2Proof.Machine.execThrottleSetpointLower row s
  | .throttleRecover row pRow total => Sys2Proof.Machine.execThrottleRecover row pRow total s
  | .thermalClamp p celsius => Sys2Proof.Machine.execThermalClamp p celsius s
  | .thermalClampRelease p celsius => Sys2Proof.Machine.execThermalClampRelease p celsius s
  | .thermalHalt p celsius => Sys2Proof.Machine.execThermalHalt p celsius s
  | .thermtrip p celsius => Sys2Proof.Machine.execThermtrip p celsius s
  | .refclkLoss => Sys2Proof.Machine.execRefclkLoss s
  | .rowclkLoss row => Sys2Proof.Machine.execRowclkLoss row s
  | .leclkLoss e => Sys2Proof.Machine.execLeclkLoss e s
  | .mgtclkLoss => Sys2Proof.Machine.execMgtclkLoss s
  | .clockRestored c => Sys2Proof.Machine.execClockRestored c s
  | .mma p t w => Sys2Proof.Machine.execMma p t w s
  | .loada p t w => Sys2Proof.Machine.execLoada p t w s
  | .loadb p t w => Sys2Proof.Machine.execLoadb p t w s
  | .swap p t w => Sys2Proof.Machine.execSwap p t w s
  | .drain p t w => Sys2Proof.Machine.execDrain p t w s
  | .drainStart p => Sys2Proof.Machine.execDrainStart p s
  | .zeroAcc p t w => Sys2Proof.Machine.execZeroAcc p t w s
  | .accFileAccess p off len data => Sys2Proof.Machine.execAccFileAccess p off len data s
  | .opCompletion p op => Sys2Proof.Machine.execOpCompletion p op s
  | .convert p t w => Sys2Proof.Machine.execConvert p t w s
  | .rngDraw p t w => Sys2Proof.Machine.execRngDraw p t w s
  | .vadd p t w => Sys2Proof.Machine.execVadd p t w s
  | .vsub p t w => Sys2Proof.Machine.execVsub p t w s
  | .vmul p t w => Sys2Proof.Machine.execVmul p t w s
  | .vfma p t w => Sys2Proof.Machine.execVfma p t w s
  | .vdiv p t w => Sys2Proof.Machine.execVdiv p t w s
  | .vsqrt p t w => Sys2Proof.Machine.execVsqrt p t w s
  | .vmin p t w => Sys2Proof.Machine.execVmin p t w s
  | .vmax p t w => Sys2Proof.Machine.execVmax p t w s
  | .vminnum p t w => Sys2Proof.Machine.execVminnum p t w s
  | .vmaxnum p t w => Sys2Proof.Machine.execVmaxnum p t w s
  | .vcmp p t w => Sys2Proof.Machine.execVcmp p t w s
  | .vsel p t w => Sys2Proof.Machine.execVsel p t w s
  | .vexp2 p t w => Sys2Proof.Machine.execVexp2 p t w s
  | .vlog2 p t w => Sys2Proof.Machine.execVlog2 p t w s
  | .vrcp p t w => Sys2Proof.Machine.execVrcp p t w s
  | .vrsqrt p t w => Sys2Proof.Machine.execVrsqrt p t w s
  | .vcvt p t w => Sys2Proof.Machine.execVcvt p t w s
  | .vreduce p t w => Sys2Proof.Machine.execVreduce p t w s
  | .vload p t w => Sys2Proof.Machine.execVload p t w s
  | .vstore p t w => Sys2Proof.Machine.execVstore p t w s
  | .vsplat p t w => Sys2Proof.Machine.execVsplat p t w s
  | .vget p t w => Sys2Proof.Machine.execVget p t w s
  | .vregWrite p t w => Sys2Proof.Machine.execVregWrite p t w s
  | .vregRead p t w => Sys2Proof.Machine.execVregRead p t w s
  | .nop p t w => Sys2Proof.Machine.execNop p t w s
  | .waitOp p t w => Sys2Proof.Machine.execWaitOp p t w s
  | .waitTimeout p t => Sys2Proof.Machine.execWaitTimeout p t s
  | .signal p t w => Sys2Proof.Machine.execSignal p t w s
  | .branch p t w => Sys2Proof.Machine.execBranch p t w s
  | .loopOp p t w => Sys2Proof.Machine.execLoopOp p t w s
  | .endOp p t w => Sys2Proof.Machine.execEndOp p t w s
  | .yieldOp p t w => Sys2Proof.Machine.execYieldOp p t w s
  | .fence p t w => Sys2Proof.Machine.execFence p t w s
  | .seti p t w => Sys2Proof.Machine.execSeti p t w s
  | .alu p t w => Sys2Proof.Machine.execAlu p t w s
  | .sload p t w => Sys2Proof.Machine.execSload p t w s
  | .sstore p t w => Sys2Proof.Machine.execSstore p t w s
  | .rdtime p t w => Sys2Proof.Machine.execRdtime p t w s
  | .launch p w v => Sys2Proof.Machine.execLaunch p w v s
  | .progLoad p w v => Sys2Proof.Machine.execProgLoad p w v s
  | .progLoadComplete p => Sys2Proof.Machine.execProgLoadComplete p s
  | .scratchpadClear p => Sys2Proof.Machine.execScratchpadClear p s
  | .spdWriteBack p => Sys2Proof.Machine.execSpdWriteBack p s
  | .dma p t w => Sys2Proof.Machine.execDma p t w s
  | .skewcopy p t w => Sys2Proof.Machine.execSkewcopy p t w s
  | .gather p t w => Sys2Proof.Machine.execGather p t w s
  | .scatter p t w => Sys2Proof.Machine.execScatter p t w s
  | .widen p t w => Sys2Proof.Machine.execWiden p t w s
  | .send p t w => Sys2Proof.Machine.execSend p t w s
  | .recv p t w => Sys2Proof.Machine.execRecv p t w s
  | .peek p t w => Sys2Proof.Machine.execPeek p t w s
  | .peekRecvTimeout p op => Sys2Proof.Machine.execPeekRecvTimeout p op s
  | .openOp p t w => Sys2Proof.Machine.execOpenOp p t w s
  | .closeOp p t w => Sys2Proof.Machine.execCloseOp p t w s
  | .routerForward p out f => Sys2Proof.Machine.execRouterForward p out f s
  | .beadArrival p h payload payloadUe => Sys2Proof.Machine.execBeadArrival p h payload payloadUe s
  | .openBead p h => Sys2Proof.Machine.execOpenBead p h s
  | .closeBead p h => Sys2Proof.Machine.execCloseBead p h s
  | .credit p h => Sys2Proof.Machine.execCredit p h s
  | .delivered p h => Sys2Proof.Machine.execDelivered p h s
  | .nak p h => Sys2Proof.Machine.execNak p h s
  | .answerTimeout p handle => Sys2Proof.Machine.execAnswerTimeout p handle s
  | .stall p t => Sys2Proof.Machine.execStall p t s
  | .verUseBind p t w => Sys2Proof.Machine.execVerUseBind p t w s
  | .verUseByNumber p t w => Sys2Proof.Machine.execVerUseByNumber p t w s
  | .verUseLookup p t w => Sys2Proof.Machine.execVerUseLookup p t w s
  | .verUseTimeout p op => Sys2Proof.Machine.execVerUseTimeout p op s
  | .verNewAlloc p t w => Sys2Proof.Machine.execVerNewAlloc p t w s
  | .verNewSeal p t w => Sys2Proof.Machine.execVerNewSeal p t w s
  | .verNewInitial p t w => Sys2Proof.Machine.execVerNewInitial p t w s
  | .verPin p t w => Sys2Proof.Machine.execVerPin p t w s
  | .verReleaseRef p t w => Sys2Proof.Machine.execVerReleaseRef p t w s
  | .verReleaseUnpin p t w => Sys2Proof.Machine.execVerReleaseUnpin p t w s
  | .verReleaseDiscard p t w => Sys2Proof.Machine.execVerReleaseDiscard p t w s
  | .accumPush p t w => Sys2Proof.Machine.execAccumPush p t w s
  | .rapArrival p h payload => Sys2Proof.Machine.execRapArrival p h payload s
  | .sweepComplete p mc ctx => Sys2Proof.Machine.execSweepComplete p mc ctx s
  | .tallyAdd p t w => Sys2Proof.Machine.execTallyAdd p t w s
  | .tallyCombine p dir egress h => Sys2Proof.Machine.execTallyCombine p dir egress h s
  | .tallyCombineRelease p dir h => Sys2Proof.Machine.execTallyCombineRelease p dir h s
  | .collectorTally p h => Sys2Proof.Machine.execCollectorTally p h s
  | .ledgerTally p h => Sys2Proof.Machine.execLedgerTally p h s
  | .ledgerDeadline p => Sys2Proof.Machine.execLedgerDeadline p s
  | .noticeResend p => Sys2Proof.Machine.execNoticeResend p s
  | .commitNotice p h => Sys2Proof.Machine.execCommitNotice p h s
  | .repeatNotice p h => Sys2Proof.Machine.execRepeatNotice p h s
  | .stopNotice p h => Sys2Proof.Machine.execStopNotice p h s
  | .ledgerDoneDone p t w => Sys2Proof.Machine.execLedgerDoneDone p t w s
  | .ledgerDoneWaitctx p t w => Sys2Proof.Machine.execLedgerDoneWaitctx p t w s
  | .ledgerDoneRelease p t w => Sys2Proof.Machine.execLedgerDoneRelease p t w s
  | .ledgerDoneTimeout p op => Sys2Proof.Machine.execLedgerDoneTimeout p op s
  | .ldgEnable p w v => Sys2Proof.Machine.execLdgEnable p w v s
  | .ldgDisable p w v => Sys2Proof.Machine.execLdgDisable p w v s
  | .contextConfig p w mc ctx word v => Sys2Proof.Machine.execContextConfig p w mc ctx word v s
  | .collectorEnable p w c v => Sys2Proof.Machine.execCollectorEnable p w c v s
  | .reshard c => Sys2Proof.Machine.execReshard c s
  | .mcRequest p r => Sys2Proof.Machine.execMcRequest p r s
  | .mcReadReturn p mc idx => Sys2Proof.Machine.execMcReadReturn p mc idx s
  | .writeBatchDrain p mc ch => Sys2Proof.Machine.execWriteBatchDrain p mc ch s
  | .mcEccWriteBack p mc => Sys2Proof.Machine.execMcEccWriteBack p mc s
  | .patrolScrub p mc => Sys2Proof.Machine.execPatrolScrub p mc s
  | .refresh p mc ch => Sys2Proof.Machine.execRefresh p mc ch s
  | .tempReadout p mc celsius => Sys2Proof.Machine.execTempReadout p mc celsius s
  | .tgStart p w mc ch v => Sys2Proof.Machine.execTgStart p w mc ch v s
  | .tgPassDone p mc ch ticks => Sys2Proof.Machine.execTgPassDone p mc ch ticks s
  | .regionSet c => Sys2Proof.Machine.execRegionSet c s
  | .linkTransmit p => Sys2Proof.Machine.execLinkTransmit p s
  | .dataReceive p pkt => Sys2Proof.Machine.execDataReceive p pkt s
  | .idleReceive p pkt => Sys2Proof.Machine.execIdleReceive p pkt s
  | .vcBufferRelease p vc => Sys2Proof.Machine.execVcBufferRelease p vc s
  | .linkIdleTimer p => Sys2Proof.Machine.execLinkIdleTimer p s
  | .gapTimeout p => Sys2Proof.Machine.execGapTimeout p s
  | .replayTimeout p => Sys2Proof.Machine.execReplayTimeout p s
  | .replayReq p pkt => Sys2Proof.Machine.execReplayReq p pkt s
  | .laneLossOfLock p lane => Sys2Proof.Machine.execLaneLossOfLock p lane s
  | .laneWindowEnd p csym ucw => Sys2Proof.Machine.execLaneWindowEnd p csym ucw s
  | .laneFail p pkt => Sys2Proof.Machine.execLaneFail p pkt s
  | .laneFailRepeat p => Sys2Proof.Machine.execLaneFailRepeat p s
  | .laneAck p pkt => Sys2Proof.Machine.execLaneAck p pkt s
  | .linkResume p pkt => Sys2Proof.Machine.execLinkResume p pkt s
  | .linkReset p pkt => Sys2Proof.Machine.execLinkReset p pkt s
  | .linkResetAck p pkt => Sys2Proof.Machine.execLinkResetAck p pkt s
  | .linkTrainingDone p goodTx goodRx rttNs => Sys2Proof.Machine.execLinkTrainingDone p goodTx goodRx rttNs s
  | .linkTrainingFail p => Sys2Proof.Machine.execLinkTrainingFail p s
  | .linkDownRetry p => Sys2Proof.Machine.execLinkDownRetry p s
  | .retrainReq p w => Sys2Proof.Machine.execRetrainReq p w s
  | .portDisable p w => Sys2Proof.Machine.execPortDisable p w s
  | .relayFailover p alternateOk => Sys2Proof.Machine.execRelayFailover p alternateOk s
  | .moduleInsert bay view => Sys2Proof.Machine.execModuleInsert bay view s
  | .moduleLock bay => Sys2Proof.Machine.execModuleLock bay s
  | .moduleLoss bay cause => Sys2Proof.Machine.execModuleLoss bay cause s
  | .elsUsagePoll readings => Sys2Proof.Machine.execElsUsagePoll readings s
  | .elsUsageWrite bay ok => Sys2Proof.Machine.execElsUsageWrite bay ok s
  | .elsReleaseBay w r => Sys2Proof.Machine.execElsReleaseBay w r s
  | .elsAccept c => Sys2Proof.Machine.execElsAccept c s
  | .engineLightLoss e => Sys2Proof.Machine.execEngineLightLoss e s
  | .engineProbe e => Sys2Proof.Machine.execEngineProbe e s
  | .doorbell f ring idx => Sys2Proof.Machine.execDoorbell f ring idx s
  | .commandFetch f q entry payload => Sys2Proof.Machine.execCommandFetch f q entry payload s
  | .completionPost f q => Sys2Proof.Machine.execCompletionPost f q s
  | .hostReadTimeout c => Sys2Proof.Machine.execHostReadTimeout c s
  | .nopCommand c => Sys2Proof.Machine.execNopCommand c s
  | .fenceCommand c => Sys2Proof.Machine.execFenceCommand c s
  | .copyIn c data => Sys2Proof.Machine.execCopyIn c data s
  | .copyOut c => Sys2Proof.Machine.execCopyOut c s
  | .bar2Read f off len => Sys2Proof.Machine.execBar2Read f off len s
  | .bar2Write f off data => Sys2Proof.Machine.execBar2Write f off data s
  | .diagApertureRead p r => Sys2Proof.Machine.execDiagApertureRead p r s
  | .telemetrySnapshot => Sys2Proof.Machine.execTelemetrySnapshot s
  | .resultReturn f hi => Sys2Proof.Machine.execResultReturn f hi s
  | .inputDescriptor f ring desc data => Sys2Proof.Machine.execInputDescriptor f ring desc data s
  | .inputConsumed p w b v => Sys2Proof.Machine.execInputConsumed p w b v s
  | .registerRing f => Sys2Proof.Machine.execRegisterRing f s
  | .unregisterRing f => Sys2Proof.Machine.execUnregisterRing f s
  | .mapWindow f => Sys2Proof.Machine.execMapWindow f s
  | .unmapWindow f => Sys2Proof.Machine.execUnmapWindow f s
  | .queryUndelivered f => Sys2Proof.Machine.execQueryUndelivered f s
  | .redeliver f => Sys2Proof.Machine.execRedeliver f s
  | .discardUndelivered f => Sys2Proof.Machine.execDiscardUndelivered f s
  | .readReg f => Sys2Proof.Machine.execReadReg f s
  | .elsRelease f => Sys2Proof.Machine.execElsRelease f s
  | .recoverySet f => Sys2Proof.Machine.execRecoverySet f s
  | .hostLinkDown => Sys2Proof.Machine.execHostLinkDown s
  | .functionLevelReset f => Sys2Proof.Machine.execFunctionLevelReset f s
  | .busMasterDisable f => Sys2Proof.Machine.execBusMasterDisable f s
  | .worldAssign c => Sys2Proof.Machine.execWorldAssign c s
  | .keyRotate c => Sys2Proof.Machine.execKeyRotate c s
  | .debugUnlock c => Sys2Proof.Machine.execDebugUnlock c s
  | .attest c writeOk => Sys2Proof.Machine.execAttest c writeOk s
  | .attestPubkey c => Sys2Proof.Machine.execAttestPubkey c s
  | .attestCert c => Sys2Proof.Machine.execAttestCert c s
  | .partitionForm c => Sys2Proof.Machine.execPartitionForm c s
  | .partitionDissolve c => Sys2Proof.Machine.execPartitionDissolve c s
  | .jobLoad c => Sys2Proof.Machine.execJobLoad c s
  | .jobUnload c => Sys2Proof.Machine.execJobUnload c s
  | .jobStart c => Sys2Proof.Machine.execJobStart c s
  | .jobPause c => Sys2Proof.Machine.execJobPause c s
  | .jobResume c => Sys2Proof.Machine.execJobResume c s
  | .jobStopDrain c => Sys2Proof.Machine.execJobStopDrain c s
  | .jobStopAbort c => Sys2Proof.Machine.execJobStopAbort c s
  | .jobDrainTimeout j => Sys2Proof.Machine.execJobDrainTimeout j s
  | .jobShare c => Sys2Proof.Machine.execJobShare c s
  | .evalRun c => Sys2Proof.Machine.execEvalRun c s
  | .autoEval j => Sys2Proof.Machine.execAutoEval j s
  | .autoEvalTimeout j => Sys2Proof.Machine.execAutoEvalTimeout j s
  | .kernelSubmit c => Sys2Proof.Machine.execKernelSubmit c s
  | .jobQuery c => Sys2Proof.Machine.execJobQuery c s
  | .bucketRefill p => Sys2Proof.Machine.execBucketRefill p s
  | .powerEstimate p => Sys2Proof.Machine.execPowerEstimate p s
  | .powerRequest p src h => Sys2Proof.Machine.execPowerRequest p src h s
  | .powerGrant p h => Sys2Proof.Machine.execPowerGrant p h s
  | .tokenAudit => Sys2Proof.Machine.execTokenAudit s
  | .tokenAuditRead => Sys2Proof.Machine.execTokenAuditRead s
  | .centralDivision => Sys2Proof.Machine.execCentralDivision s
  | .setpointRaiseRetry row pRow total => Sys2Proof.Machine.execSetpointRaiseRetry row pRow total s
  | .watchdog p => Sys2Proof.Machine.execWatchdog p s
  | .reckonerKick => Sys2Proof.Machine.execReckonerKick s
  | .reckonerWdog => Sys2Proof.Machine.execReckonerWdog s
  | .partitionReset part late => Sys2Proof.Machine.execPartitionReset part late s
  | .escalation part => Sys2Proof.Machine.execEscalation part s
  | .resetPartition c => Sys2Proof.Machine.execResetPartition c s
  | .resetDevice c => Sys2Proof.Machine.execResetDevice c s
  | .sparing p retrained => Sys2Proof.Machine.execSparing p retrained s
  | .bindTimeout p => Sys2Proof.Machine.execBindTimeout p s
  | .jobRecovery part => Sys2Proof.Machine.execJobRecovery part s
  | .replicaRestore p j => Sys2Proof.Machine.execReplicaRestore p j s
  | .lehrRequest p h => Sys2Proof.Machine.execLehrRequest p h s
  | .lehrPartReceive p => Sys2Proof.Machine.execLehrPartReceive p s
  | .capture p w v => Sys2Proof.Machine.execCapture p w v s
  | .lehrRestore p w v => Sys2Proof.Machine.execLehrRestore p w v s
  | .shardReady p w v => Sys2Proof.Machine.execShardReady p w v s
  | .parisonUnpin p j => Sys2Proof.Machine.execParisonUnpin p j s
  | .ledgerResume p w v => Sys2Proof.Machine.execLedgerResume p w v s
  | .exportSlot c => Sys2Proof.Machine.execExportSlot c s
  | .exportObject c => Sys2Proof.Machine.execExportObject c s
  | .restore c objects => Sys2Proof.Machine.execRestore c objects s
  | .teardownTimeout j => Sys2Proof.Machine.execTeardownTimeout j s
  | .receivedLightReturn e => Sys2Proof.Machine.execReceivedLightReturn e s

end Sys2Proof.Machine
end

