-- ==== Sys2Proof/Safety.lean ====
section
/-! DEFINITION. What a safe step is: the block answers every command with a next state (R13, R14), and its plain-data
stores keep their canonical form. Then the words in which the statements say when an op passes its checks and
what a command at a die leaves. -/

namespace Sys2Proof.Machine

/-- A step ends in a next state. -/
def StepsOn (s : State) : Prop := ∃ s', step s = .next s'

/-- A state that a command leads to. -/
def Follows (s s' : State) : Prop := step s = .next s'

/-- States that the block reaches from `s`. -/
inductive Reaches (s : State) : State → Prop where
  | refl : Reaches s s
  | tail (t u : State) : Reaches s t → Follows t u → Reaches s u

/-! ## Ops of a thread -/

/-- Thread `t` can issue the op: it may issue (R159, R161), every token of `WAIT` is ready and `SERIAL` holds
nothing (R152, R153), and no reserved bit is set (R156). -/
abbrev Passes (d : Die) (t : ThreadId) (opcode : Nat) (w : OpWord) (fields : List (Nat × Nat)) : Prop :=
  canIssue d t = true ∧ preStall d t opcode w = false ∧ reservedSet w fields = false

/-- The op's unit takes it at once: its queue has room or a send handle is free (R112, R183, R207), its token does
not stand at 15 (R163), and no scheduling rule holds it back (R424, R425). -/
abbrev HasRoom (d : Die) (t : ThreadId) (opcode : Nat) (w : OpWord) : Prop :=
  queueFull d opcode w.x = false ∧ tokenFull (d.thread t) w = false ∧ gated d t opcode = false

/-- The die with a thread's context changed. -/
def Die.modThread (d : Die) (t : ThreadId) (f : Thread → Thread) : Die := d.setThread t (f (d.thread t))

/-- The block after a command whose own effect on die `p` is `g`: the patrol period moves on first, and what waited
on the die follows (Machine/Hook.lean). -/
def State.ran (s : State) (p : PDie) (g : Die → Die) : State :=
  let s' := s.modDie p patrolNow
  afterDie p (s'.die p) (s'.modDie p g)

/-- The block after a command whose own effect at die `p` is `f`. -/
def State.ranAt (s : State) (p : PDie) (f : State → State) : State :=
  let s' := s.modDie p patrolNow
  afterDie p (s'.die p) (f s')

end Sys2Proof.Machine
end

