-- ==== Sys2Proof/Certificates/Slice0/Obligations.lean ====
section
/-! DEFINITION. The statements for the provers. Each names the rules of spec/ that it rests on. Where a statement says
what a command leaves, `State.ran` and `State.ranAt` of Safety.lean add what follows at the die. -/

section
open Sys2Proof Sys2Proof.Machine

/-! ## Threads and scalar ops (06_stage_execution.md) -/

/-- Issue (R159, R161, R192): the thread moves to the next op word and is READY, `SEQ_ISSUED` counts the op, and
nothing else of the die changes. -/
def Obligations.IssueAdvancesThread : Prop :=
  ∀ (d : Die) (t : ThreadId),
    ((issued d t).thread t).pc = (d.thread t).pc + 1 ∧ ((issued d t).thread t).st = .ready ∧
    ((issued d t).thread t).s = (d.thread t).s ∧
    ((issued d t).thread t).counts = (d.thread t).counts ∧
    ((issued d t).thread t).tokSt = (d.thread t).tokSt ∧
    (∀ u, u ≠ t → (issued d t).thread u = d.thread u) ∧
    (issued d t).reg48 0x30030 = (d.reg48 0x30030 + 1) % 2 ^ 48 ∧
    (∀ o, o ≠ 0x30030 → o ≠ 0x30034 → (issued d t).reg o = d.reg o) ∧
    issued d t = { d with threads := (issued d t).threads, regs := (issued d t).regs, lastIssued := t }

/-- SETI, ALU, RDTIME, SLOAD and SSTORE that pass their checks (R167, R168): what each writes. Model's choices: log
47, 54. -/
def Obligations.ScalarOpsComplete : Prop :=
  ∀ (p : PDie) (t : ThreadId) (w : OpWord) (s : State),
    let r := opField w.x 28 6
    let a := opField w.x 28 6 + (oregOff ((s.die p).thread t) w).toNat
    (Passes (s.die p) t 0x08 w [(4, 0), (95, 32)] →
      exec (.seti p t w) s = .next (s.ran p fun d => (issued d t).modThread t fun th =>
        th.setS (opField w.x 4 0) (w.x.extractLsb' 32 64))) ∧
    (Passes (s.die p) t 0x09 w [(19, 0), (95, 64)] → opField w.x 19 16 ≤ 0xB →
      exec (.alu p t w) s = .next (s.ran p fun d => (issued d t).modThread t fun th =>
        th.setS (opField w.x 4 0) (aluFn (opField w.x 19 16) (th.sreg (opField w.x 9 5))
          (if bitOf w.x.toNat 15 then (w.x.extractLsb' 64 32).signExtend 64
           else th.sreg (opField w.x 14 10))))) ∧
    (Passes (s.die p) t 0x0C w [(4, 0)] →
      exec (.rdtime p t w) s = .next (s.ran p fun d => (issued d t).modThread t fun th =>
        th.setS (opField w.x 4 0) (d.rrc.setWidth 64))) ∧
    (Passes (s.die p) t 0x0A w [(28, 0)] → bitOf w.x.toNat 5 = true → inBlocks (4 * r) = true →
      exec (.sload p t w) s = .next (s.ran p fun d => (issued d t).modThread t fun th =>
        th.setS (opField w.x 4 0) (BitVec.ofNat 64 (dieRead (issued d t) (4 * r))))) ∧
    (Passes (s.die p) t 0x0A w [(28, 0)] → bitOf w.x.toNat 5 = false → 8 * a + 8 ≤ spdBytes →
      spdBad (s.die p) (8 * a) 8 = [] →
      exec (.sload p t w) s = .next (s.ran p fun d => (spdGrant 4 1 (issued d t)).modThread t fun th =>
        th.setS (opField w.x 4 0) (BitVec.ofNat 64 (leNat (tabSlice zeroByte d.spd (8 * a) 8))))) ∧
    (Passes (s.die p) t 0x0B w [(28, 0)] → bitOf w.x.toNat 5 = true → inBlocks (4 * r) = true →
      exec (.sstore p t w) s = .next (s.ran p fun d => dieWrite false false false (4 * r)
        (((d.thread t).sreg (opField w.x 4 0)).toNat % 2 ^ 32) (issued d t))) ∧
    (Passes (s.die p) t 0x0B w [(28, 0)] → bitOf w.x.toNat 5 = false → 8 * a + 8 ≤ spdBytes →
      exec (.sstore p t w) s = .next (s.ran p fun d =>
        let d' := spdGrant 4 1 (issued d t)
        { d' with spdMarks := tabDrop d.spdMarks (2 * a) (2 * a + 2)
                  spd := tabPut zeroByte d.spd (8 * a)
                    (leBytes 8 ((d.thread t).sreg (opField w.x 4 0)).toNat) }))

/-- The ALU functions of R167, by number, as arithmetic on 64-bit numbers. -/
def Obligations.AluFunctions : Prop :=
  ∀ (a b : Word64),
    (aluFn 0x0 a b).toNat = (a.toNat + b.toNat) % 2 ^ 64 ∧
    (aluFn 0x1 a b).toNat = (a.toNat + (2 ^ 64 - b.toNat)) % 2 ^ 64 ∧
    (∀ i : Fin 64, (aluFn 0x2 a b).getLsbD i = (a.getLsbD i && b.getLsbD i)) ∧
    (∀ i : Fin 64, (aluFn 0x3 a b).getLsbD i = (a.getLsbD i || b.getLsbD i)) ∧
    (∀ i : Fin 64, (aluFn 0x4 a b).getLsbD i = (a.getLsbD i ^^ b.getLsbD i)) ∧
    (aluFn 0x5 a b).toNat = a.toNat * 2 ^ (b.toNat % 64) % 2 ^ 64 ∧
    (aluFn 0x6 a b).toNat = a.toNat / 2 ^ (b.toNat % 64) ∧
    (aluFn 0x7 a b).toInt = a.toInt / 2 ^ (b.toNat % 64) ∧
    (aluFn 0x8 a b).toNat = a.toNat * b.toNat % 2 ^ 64 ∧
    (aluFn 0x9 a b).toInt = min a.toInt b.toInt ∧
    (aluFn 0xA a b).toInt = max a.toInt b.toInt ∧
    (aluFn 0xB a b).toNat = if a.toNat < b.toNat then 1 else 0

/-- NOP, YIELD, BRANCH, LOOP, END, WAIT, FENCE and SIGNAL that pass their checks (R161, R166, R167). Model's choices:
log 54. -/
def Obligations.ThreadOpsComplete : Prop :=
  ∀ (p : PDie) (t : ThreadId) (w : OpWord) (s : State),
    let u : ThreadId := BitVec.ofNat 11 (opField w.x 10 0)
    let k := opField w.x 14 11
    let target : BitVec 17 := BitVec.ofNat 17 (opField w.x 16 0)
    let sa := opField w.x 21 17
    (Passes (s.die p) t 0x00 w [] → exec (.nop p t w) s = .next (s.ran p fun d => (issued d t).modThread t fun th => th)) ∧
    (Passes (s.die p) t 0x06 w [] → exec (.yieldOp p t w) s = .next (s.ran p fun d => (issued d t).modThread t fun th => th)) ∧
    (Passes (s.die p) t 0x03 w [(24, 0)] → opField w.x 24 22 ≤ 4 →
      exec (.branch p t w) s = .next (s.ran p fun d => (issued d t).modThread t fun th =>
        if branchTaken (opField w.x 24 22) (th.sreg sa) then { th with pc := target } else th)) ∧
    (Passes (s.die p) t 0x04 w [(21, 0)] →
      exec (.loopOp p t w) s = .next (s.ran p fun d => (issued d t).modThread t fun th =>
        let th' := th.setS sa (th.sreg sa - 1)
        if th.sreg sa = 1 then th' else { th' with pc := target })) ∧
    (Passes (s.die p) t 0x05 w [] →
      exec (.endOp p t w) s = .next (s.ran p fun d => (issued d t).modThread t fun th =>
        { th with st := if d.opsOf t = [] then .free else .ending })) ∧
    (Passes (s.die p) t 0x01 w [(25, 0)] → ((s.die p).thread t).tokensReady w.wait = true →
      exec (.waitOp p t w) s = .next (s.ran p fun d => (issued d t).modThread t fun th =>
        finishWait th (BitVec.ofNat 5 (opField w.x 4 0)) (bitOf w.x.toNat 5) w.wait)) ∧
    (Passes (s.die p) t 0x01 w [(25, 0)] → ((s.die p).thread t).tokensReady w.wait = false →
      exec (.waitOp p t w) s = .next (s.ran p fun d => (issued d t).modThread t fun th =>
        { th with st := .waitToken
                  hold := .wait (BitVec.ofNat 5 (opField w.x 4 0)) (bitOf w.x.toNat 5) (wHoe w)
                    (BitVec.ofNat 20 (opField w.x 25 6)) d.rrc w.wait })) ∧
    (Passes (s.die p) t 0x07 w [(0, 0)] →
      exec (.fence p t w) s = .next (s.ran p fun d => (issued d t).modThread t fun th =>
        if d.opsOf t = [] then th else { th with st := .waitToken, hold := .fence })) ∧
    (Passes (s.die p) t 0x02 w [(15, 0)] → bitOf w.x.toNat 15 = false →
      ((s.die p).thread u).st ≠ .free → ((s.die p).thread u).st ≠ .ending →
      ((s.die p).thread u).cnt k ≠ 15 →
      exec (.signal p t w) s = .next (s.ran p fun d => settle ((issued d t).modThread u fun th =>
        th.setCnt k (th.cnt k + 1)))) ∧
    (Passes (s.die p) t 0x02 w [(15, 0)] → bitOf w.x.toNat 15 = true →
      ((s.die p).thread u).st ≠ .free → ((s.die p).thread u).st ≠ .ending →
      ((s.die p).thread u).cnt k ≠ 0 →
      exec (.signal p t w) s = .next (s.ran p fun d => settle ((issued d t).modThread u fun th =>
        th.setCnt k (th.cnt k - 1))))

/-- An op word that R156 turns away is rejected (R156 to R158): `LAST_STATUS` holds the status and the thread moves
on, or faults where the op has `HOE`; shown for a reserved bit of a NOP, a reserved `COND` of BRANCH and a reserved
`FN` of ALU. Model's choices: log 54. -/
def Obligations.RejectedOpsReport : Prop :=
  ∀ (p : PDie) (t : ThreadId) (w : OpWord) (s : State),
    let no (opcode : Nat) (d : Die) : Die :=
      let d' := (issued d t).modThread t fun th => { th with last := .malformed }
      if wHoe w then threadFault t .malformed opcode d' else d'
    (canIssue (s.die p) t = true → preStall (s.die p) t 0x00 w = false → w.x ≠ 0 →
      exec (.nop p t w) s = .next (s.ran p (no 0x00))) ∧
    (Passes (s.die p) t 0x03 w [(24, 0)] → 4 < opField w.x 24 22 →
      exec (.branch p t w) s = .next (s.ran p (no 0x03))) ∧
    (Passes (s.die p) t 0x09 w [(19, 0), (95, 64)] → 0xB < opField w.x 19 16 →
      exec (.alu p t w) s = .next (s.ran p (no 0x09)))

/-- WAIT_TIMEOUT, STALL, LAUNCH, PROG_LOAD, PROG_LOAD_COMPLETE, SCRATCHPAD_CLEAR and SPD_WRITE_BACK (R157, R160, R162,
R167, R175, R176, R221): the held WAIT finishes with `TIMEOUT`; a wait for credit that outlasts its limit raises
`STALL`; `GO` makes the threads ready with their index in s0, or raises the error flag; a started load fills the
program store; the clearing pass leaves zeros with valid check bits; the corrected word is written back. Model's
choices: log 9, 15, 54, 57. -/
def Obligations.ThreadEventsComplete : Prop :=
  (∀ (p : PDie) (t : ThreadId) (s : State),
    (∀ sd collect limit since mask, (s.die p).run = .active →
      ((s.die p).thread t).hold = .wait sd collect false limit since mask → limit ≠ 0 →
      paused (s.die p) ((s.die p).threadJob t).toNat = false →
      exec (.waitTimeout p t) s = .next (s.ran p fun d => d.modThread t fun th =>
        let th' := if collect then th.setS sd.toNat (collectWord th mask true) else th
        { th' with st := .ready, hold := .none, last := .timeout })) ∧
    ((s.die p).run = .active → rodUnitOn (s.die p) = true →
      ((s.die p).thread t).st = .waitCredit → (s.die p).flag (blockedReg t.toNat) 31 = true →
      (s.die p).reg (ccBase ((s.die p).get ⟨blockedReg t.toNat, 24, 16⟩) + 20) ≠ 0 →
      (s.die p).flag 0x50008 0 = false →
      exec (.stall p t) s = .next (s.ran p fun d =>
        ((d.setReg 0x5000C t.toNat).setFlag 0x50008 0).event 0x50000))) ∧
  (∀ (p : PDie) (s : State) (v : BitVec 32), (s.die p).run = .active →
    (bitsOf v.toNat 30 17 = 0 → bitOf v.toNat 31 = true →
      threadsFree (s.die p) ((s.die p).get ⟨0x30010, 10, 0⟩) ((s.die p).get ⟨0x30010, 21, 11⟩ + 1) = true →
      exec (.launch p .mgmt v) s = .next (s.ran p fun d =>
        launchThreads (d.get ⟨0x30010, 10, 0⟩) (d.get ⟨0x30010, 21, 11⟩ + 1)
          (BitVec.ofNat 17 (bitsOf v.toNat 16 0)) (d.put ⟨0x30014, 16, 0⟩ v.toNat))) ∧
    (bitsOf v.toNat 30 17 = 0 → bitOf v.toNat 31 = true →
      threadsFree (s.die p) ((s.die p).get ⟨0x30010, 10, 0⟩) ((s.die p).get ⟨0x30010, 21, 11⟩ + 1) = false →
      exec (.launch p .mgmt v) s = .next (s.ran p fun d => (d.put ⟨0x30014, 16, 0⟩ v.toNat).setFlag 0x30004 1)) ∧
    (bitsOf v.toNat 30 18 = 0 → bitsOf v.toNat 17 0 ≤ 131072 → bitOf v.toNat 31 = true →
      progRefused (s.die p) ((s.die p).get ⟨0x30024, 16, 0⟩) (bitsOf v.toNat 17 0) = false →
      exec (.progLoad p .mgmt v) s = .next (s.ran p fun d =>
        let d' := d.put ⟨0x30028, 17, 0⟩ (bitsOf v.toNat 17 0)
        { d' with progLoad := some ⟨64 * d.get ⟨0x30020, 28, 0⟩, d.get ⟨0x30024, 16, 0⟩, bitsOf v.toNat 17 0⟩ })) ∧
    (∀ l, (s.die p).progLoad = some l → lpServes false l.src (16 * l.count) (s.die p) = true →
      (unitsOk (s.die p) ⟨.dma, false, (s.die p).world, 0⟩ (ceilDiv l.count 4) l.src).2 = none →
      lpBad (s.die p) l.src (16 * l.count) = [] →
      exec (.progLoadComplete p) s = .next (s.ran p fun d =>
        ({ d with progLoad := none
                  prog := tabPut noOp d.prog l.dst (tabulate l.count fun i =>
                    BitVec.ofNat 128 (leNat (tabSlice zeroByte d.lpddr (l.src + 16 * i) 16))) } : Die).setFlag
          0x30004 3)) ∧
    (∀ w, w ≠ .mgmt → exec (.launch p w v) s = .next (s.ran p fun d => d.invalidWrite 0x30014)) ∧
    (∀ w, w ≠ .mgmt → exec (.progLoad p w v) s = .next (s.ran p fun d => d.invalidWrite 0x30028))) ∧
  (∀ (p : PDie) (s : State), (s.die p).run = .active →
    ((s.die p).clearing = true → (s.die p).clkLost = false →
      exec (.scratchpadClear p) s = .next (s.ran p fun d =>
        ({ d with spd := [], spdMarks := [], spdWb := none } : Die).put ⟨0x2000C, 0, 0⟩ 0)) ∧
    (∀ k, (s.die p).spdWb = some k → tabGet goodSpd (s.die p).spdMarks k = .single →
      exec (.spdWriteBack p) s = .next (s.ran p fun d =>
        { d with spdWb := none, spdMarks := tabSet goodSpd d.spdMarks k .good })))

/-! ## The cube array (05_arithmetic.md, 04_compute_units.md) -/

/-- The queued matrix ops (R112, R115 to R117): an MMA, SWAP, DRAIN or ZERO_ACC that passes and finds room enters the
array queue, an MMA is paid for from its job's bucket (R424), and the array works off what its order allows. LOADA and
LOADB (R113): a descriptor that keeps the rules is the thread's from the next op word on. DRAIN_START, OP_COMPLETION
and ACC_FILE_ACCESS (R104, R105, R163, R188): a drain whose marker is at the head runs and its marker leaves; a
finished op that may complete leaves its unit, and what waited for a drain to end takes effect (R108); an access to
the accumulator file takes its turn, or is answered MALFORMED where it breaks a rule of R104. Model's choices: log 12,
54, 61. -/
def Obligations.MatrixComplete : Prop :=
  (∀ (p : PDie) (t : ThreadId) (w : OpWord) (s : State),
    (Passes (s.die p) t 0x10 w mmaFields → HasRoom (s.die p) t 0x10 w →
      mmaChk w (s.die p) ((s.die p).thread t) = none →
      exec (.mma p t w) s = .next (s.ran p fun d =>
        let o := newOp d t 0x10 w .array
        arrayGo (payBucket (d.threadJob t).toNat
          (4 * mmaSteps (d.thread t).descA.fmt.toNat (mmaF w.x)) (accept d t o)))) ∧
    (Passes (s.die p) t 0x13 w swapFields → HasRoom (s.die p) t 0x13 w →
      exec (.swap p t w) s = .next (s.ran p fun d => arrayGo (accept d t (newOp d t 0x13 w .array)))) ∧
    (Passes (s.die p) t 0x14 w drainFields → HasRoom (s.die p) t 0x14 w →
      drainChk w (s.die p) ((s.die p).thread t) = none →
      exec (.drain p t w) s = .next (s.ran p fun d => arrayGo (accept d t (newOp d t 0x14 w .array)))) ∧
    (Passes (s.die p) t 0x15 w zeroFields → HasRoom (s.die p) t 0x15 w →
      exec (.zeroAcc p t w) s = .next (s.ran p fun d => arrayGo (accept d t (newOp d t 0x15 w .array))))) ∧
  ((∀ (p : PDie) (t : ThreadId) (w : OpWord) (s : State),
    let base := opField w.x 16 0 + (oregOff ((s.die p).thread t) w).toNat
    let ok := opField w.x 39 36 ≤ 12 ∧ base < spdWords ∧
      blockWords (opField w.x 39 36) (opField w.x 41 40 + 1) ≤ opField w.x 35 20
    let de (skew : Nat) : Desc := ⟨BitVec.ofNat 17 base, BitVec.ofNat 16 (opField w.x 35 20),
      BitVec.ofNat 4 (opField w.x 39 36), BitVec.ofNat 2 (opField w.x 41 40), BitVec.ofNat 2 skew⟩
    (Passes (s.die p) t 0x11 w (loadFields true) → ok →
      exec (.loada p t w) s = .next (s.ran p fun d => (issued d t).modThread t fun th =>
        { th with descA := de (opField w.x 43 42) })) ∧
    (Passes (s.die p) t 0x12 w (loadFields false) → ok →
      exec (.loadb p t w) s = .next (s.ran p fun d => (issued d t).modThread t fun th =>
        { th with descB := de 0 }))) ∧
  (∀ (p : PDie) (s : State), (s.die p).run = .active →
    (∀ mk id o, (s.die p).halted = false → (s.die p).clearing = false → arrBusy (s.die p) 0x14 = false →
      headMarker (s.die p).ops = some (mk, id) → (s.die p).op? id = some o →
      exec (.drainStart p) s = .next (s.ran p fun d =>
        let r := runDrain o d
        settle (arrayGo (vecGo
          (({ r.2 with ops := r.2.ops.filter (fun q => decide (q.id ≠ mk)) } : Die).opDone id r.1))))) ∧
    (∀ id o st, (s.die p).op? id = some o → o.phase = .done st → o.kind = .op →
      mayComplete (s.die p) o = true → (s.die p).halted = false →
      exec (.opCompletion p id) s = .next (s.ran p fun d => settle (unitsGo (landGen (finishOp id st d))))) ∧
    (∀ (off : BitVec 41) (len : Nat), accAccessOk off.toNat len = true →
      exec (.accFileAccess p off len none) s = .next (s.ran p fun d =>
        arrayGo { d with ops := d.ops ++ [{ newOp d 0 0xFF ⟨0, 0, 0⟩ .array with
                                              kind := .access off len none }]
                         nextOp := d.nextOp + 1 })) ∧
    (∀ (off : BitVec 41) (len : Nat) (bs : Bytes), accAccessOk off.toNat bs.length = true →
      exec (.accFileAccess p off len (some bs)) s = .next (s.ran p fun d =>
        arrayGo { d with ops := d.ops ++ [{ newOp d 0 0xFF ⟨0, 0, 0⟩ .array with
                                              kind := .access off bs.length (some bs) }]
                         nextOp := d.nextOp + 1 })) ∧
    (∀ (off : BitVec 41) (len : Nat), accAccessOk off.toNat len = false →
      exec (.accFileAccess p off len none) s = .next (s.ran p fun d =>
        { d with accOut := d.accOut ++ [(.malformed, [])] }))))

/-- ZERO_ACC and SWAP in their turn (R106, R115, R117): the selected tiles of the half become +0 with their flags and
marks clear, and every other tile keeps its elements; SWAP exchanges the halves and moves no element. A multiply
writes the tiles of its group alone (R95, R103): every other tile of the accumulator file keeps its elements, and the
die keeps its LPDDR, its vector registers and its program. Model's choices: log 61. -/
def Obligations.ArrayStepEffects : Prop :=
  ((∀ (o : LongOp) (d : Die) (tile : Nat), tile < 32 →
    let half := if bitOf o.x.toNat 21 then !activeHalf d else activeHalf d
    let hit := tile / 16 = bit half ∧ bitOf o.x.toNat (5 + tile % 16) = true
    tileCodes (runZeroAcc o d) tile = (if hit then List.replicate 1024 0 else tileCodes d tile) ∧
    (∀ f ∈ [0x10008, 0x1000C, 0x10010, 0x10014, 0x10018],
      (runZeroAcc o d).flag f tile = (if hit then false else d.flag f tile)) ∧
    runZeroAcc o d = { d with acc := (runZeroAcc o d).acc, regs := (runZeroAcc o d).regs }) ∧
  (∀ (o : LongOp) (d : Die), o.kind = .op → o.opcode = 0x13 →
    activeHalf (runArray o d) = !activeHalf d ∧ (runArray o d).acc = d.acc ∧
    (∀ f, f ≠ 0x10000 → (runArray o d).reg f = d.reg f))) ∧
  (∀ (o : LongOp) (d : Die) (tile : Nat), tile < 32 →
    let f := mmaF o.x
    groupOk f.acc f.m f.n = true → tile ∉ (groupTiles f.acc f.m f.n).map (physTile (activeHalf d)) →
    tileCodes (runMma o d) tile = tileCodes d tile ∧
    (runMma o d).lpddr = d.lpddr ∧ (runMma o d).vregs = d.vregs ∧ (runMma o d).prog = d.prog ∧
    (runMma o d).spd = d.spd ∧ (runMma o d).threads = d.threads ∧ (runMma o d).ops = d.ops)

/-- An INT8 multiply of one element over one K-slice (R98): the exact int32 sum with the accumulator, saturated, and
`OVERFLOW` where it saturates. -/
def Obligations.Int8SumsSaturate : Prop :=
  ∀ (acc : Nat) (as bs : List (Fin 256)), as.length = bs.length →
    let elt (c : Fin 256) : Elt := ⟨elemNum 7 c, false⟩
    let sum := signedOf 32 acc + (List.zipWith (fun a b => signedOf 8 a.val * signedOf 8 b.val) as bs).sum
    let r := accInt (some acc) (as.map elt) (bs.map elt)
    ∃ c, r.1 = some c ∧ c < 2 ^ 32 ∧
      signedOf 32 c = max (-2147483648) (min 2147483647 sum) ∧
      r.2 = { ov := decide (sum < -2147483648 ∨ 2147483647 < sum) }

/-- Completion of a long op towards its thread (R157, R158, R163): its token counts down and keeps the first status
that is not `OK`, `LAST_STATUS` keeps the last one, its result is written, and `HOE` faults the thread. -/
def Obligations.CompletionSignalsThread : Prop :=
  ∀ (o : LongOp) (st : Status) (d : Die), o.kind = .op →
    let th := d.thread o.thread
    let th' := (signalOp o st d).thread o.thread
    (o.sig = true → th'.cnt o.token = th.cnt o.token - 1) ∧
    (∀ k, o.sig = false ∨ k ≠ o.token → th'.cnt k = th.cnt k ∧ th'.tok k = th.tok k) ∧
    (o.sig = true → th'.tok o.token = if th.tok o.token = .ok then st else th.tok o.token) ∧
    th'.last = (if st = .ok then th.last else st) ∧
    (∀ r v, o.result = some (r, v) → th'.sreg r.toNat = v) ∧
    (∀ r, (∀ q, o.result.map (·.1) = some q → q.toNat ≠ r) → th'.sreg r = th.sreg r) ∧
    ((st = .ok ∨ o.flags.getLsbD 0 = false) → th'.st = th.st) ∧
    (st ≠ .ok → o.flags.getLsbD 0 = true → th'.st = .faulted) ∧
    (∀ u, u ≠ o.thread → (signalOp o st d).thread u = d.thread u)

/-! ## The vector unit (05_arithmetic.md, 06_stage_execution.md) -/

/-- Every vector op (R143, R145, R185 to R189): one that passes and finds room takes its scalar operand at issue, is
paid for from its job's bucket (R424), enters the vector queue, and the queue runs in order up to a marker. Model's
choices: log 2, 12, 54, 62. -/
def Obligations.VectorOpsComplete : Prop :=
  ∀ (p : PDie) (t : ThreadId) (w : OpWord) (s : State),
    let ok (opcode : Nat) (fields : List (Nat × Nat)) (chk : Die → Thread → Option Status) : Prop :=
      Passes (s.die p) t opcode w fields ∧ HasRoom (s.die p) t opcode w ∧
        chk (s.die p) ((s.die p).thread t) = none
    let done (opcode : Nat) : Host.Outcome State Fault Refusal := .next (s.ran p fun d =>
      vecGo (payBucket (d.threadJob t).toNat (3 * vecHs opcode w.x) (accept d t
        { newOp d t opcode w .vector with sval := (d.thread t).sreg (opField w.x 49 45) })))
    let reg (opcode : Nat) : Prop := ok opcode (vecFields opcode) (vecChk opcode w)
    (reg 0x20 → exec (.vadd p t w) s = done 0x20) ∧ (reg 0x21 → exec (.vsub p t w) s = done 0x21) ∧
    (reg 0x22 → exec (.vmul p t w) s = done 0x22) ∧ (reg 0x23 → exec (.vfma p t w) s = done 0x23) ∧
    (reg 0x24 → exec (.vdiv p t w) s = done 0x24) ∧ (reg 0x25 → exec (.vsqrt p t w) s = done 0x25) ∧
    (reg 0x26 → exec (.vmin p t w) s = done 0x26) ∧ (reg 0x27 → exec (.vmax p t w) s = done 0x27) ∧
    (reg 0x28 → exec (.vminnum p t w) s = done 0x28) ∧ (reg 0x29 → exec (.vmaxnum p t w) s = done 0x29) ∧
    (reg 0x2A → exec (.vcmp p t w) s = done 0x2A) ∧ (reg 0x2B → exec (.vsel p t w) s = done 0x2B) ∧
    (reg 0x2C → exec (.vexp2 p t w) s = done 0x2C) ∧ (reg 0x2D → exec (.vlog2 p t w) s = done 0x2D) ∧
    (reg 0x2E → exec (.vrcp p t w) s = done 0x2E) ∧ (reg 0x2F → exec (.vrsqrt p t w) s = done 0x2F) ∧
    (reg 0x30 → exec (.vcvt p t w) s = done 0x30) ∧ (reg 0x31 → exec (.vreduce p t w) s = done 0x31) ∧
    (reg 0x32 → exec (.vload p t w) s = done 0x32) ∧ (reg 0x33 → exec (.vstore p t w) s = done 0x33) ∧
    (reg 0x34 → exec (.vsplat p t w) s = done 0x34) ∧ (reg 0x35 → exec (.vget p t w) s = done 0x35) ∧
    (reg 0x3A → exec (.vregWrite p t w) s = done 0x3A) ∧
    (reg 0x3B → exec (.vregRead p t w) s = done 0x3B) ∧
    (ok 0x38 [(22, 0), (40, 24), (57, 41), (74, 58), (90, 75)] (cvtChk w) →
      exec (.convert p t w) s = done 0x38) ∧
    (ok 0x39 [(6, 0), (40, 24), (90, 75)] (fun _ _ => none) → opField w.x 6 5 ≤ 1 →
      inSpd (512 * (opField w.x 40 24 + (oregOff ((s.die p).thread t) w).toNat)) (128 * opField w.x 90 75) = true →
      exec (.rngDraw p t w) s = done 0x39)

/-- The per-value vector ops of R186, VADD to VRSQRT: every value of every register of the destination range is the
op's result on the values the sources held before, and no other register changes. Model's choices: log 12, 13. -/
def Obligations.VectorValuesFrame : Prop :=
  ∀ (opcode : Nat) (o : LongOp) (d : Die), 0x20 ≤ opcode → opcode ≤ 0x2F →
    let f := vecF o.x
    let n := if f.f64 then 32 else 64
    let sv := if f.f64 then o.sval.toNat else o.sval.toNat % 2 ^ 32
    let at_ (r i j : Nat) : Nat := (vvals f.f64 (vreg d (r + i))).getD j 0
    let b (i j : Nat) : Nat := if f.sb then sv else at_ f.vb i j
    rangesOk opcode f = true →
    (∀ i j, i ≤ f.len → j < n →
      (vvals f.f64 (vreg (runValues opcode o d) (f.vd + i))).getD j 0 =
        (vecVal opcode o.x (at_ f.va i j) (b i j) (at_ f.vc i j)).1 % 2 ^ (if f.f64 then 64 else 32)) ∧
    (∀ r, r < f.vd ∨ f.vd + f.len < r → vreg (runValues opcode o d) r = vreg d r) ∧
    (∀ k, k ≠ 0x40000 → (runValues opcode o d).reg k = d.reg k) ∧
    runValues opcode o d = { d with vregs := (runValues opcode o d).vregs, regs := (runValues opcode o d).regs }

/-- VSPLAT, VGET, VLOAD and VSTORE (R186): lanes take the scalar; a lane goes to the scalar register; registers and
scratchpad exchange their bytes, lane by lane, little-endian. Model's choices: log 12. -/
def Obligations.VectorMovesValues : Prop :=
  ∀ (o : LongOp) (d : Die),
    let f := vecF o.x
    f.vd + f.len ≤ 127 →
    (o.opcode = 0x34 → f.f64 = false → ∀ i j, i ≤ f.len → j < 64 →
      (vreg (runVec o d).2.2 (f.vd + i)).getD j 0 = o.sval.toNat % 2 ^ 32) ∧
    (o.opcode = 0x35 → f.f64 = false →
      (runVec o d).2.1 = some (BitVec.ofNat 5 f.sreg, BitVec.ofNat 64 ((vreg d f.va).getD (opField o.x 31 26) 0))) ∧
    (o.opcode = 0x32 → spdBad d (256 * o.addr 29 12) (256 * (f.len + 1)) = [] →
      (runVec o d).1 = .ok ∧ ∀ i j, i ≤ f.len → j < 64 →
        (vreg (runVec o d).2.2 (f.vd + i)).getD j 0 =
          leNat (tabSlice zeroByte d.spd (256 * (o.addr 29 12 + i) + 4 * j) 4)) ∧
    (o.opcode = 0x33 → ∀ i j, i ≤ f.len → j < 64 →
      leNat (tabSlice zeroByte (runVec o d).2.2.spd (256 * (o.addr 29 12 + i) + 4 * j) 4) =
        (vreg d (f.vd + i)).getD j 0) ∧
    (o.opcode = 0x33 → ∀ a, a < 256 * o.addr 29 12 ∨ 256 * (o.addr 29 12 + f.len + 1) ≤ a →
      tabGet zeroByte (runVec o d).2.2.spd a = tabGet zeroByte d.spd a)

/-- The rounding directions of R131 on a magnitude `m·2^e` below the grid `2^l`: toward zero, upward, downward, and to the
nearest with ties to even; inexact exactly where the value changed. Every code of a floating-point format of R121 that
is not a NaN stands for a value that rounds back to that code, exactly and without an exception (R122, R134). -/
def Obligations.NumberFormats : Prop :=
  (∀ (m : Nat) (e l : Int), e < l →
    let u := 2 ^ (l - e).toNat
    let q (r : Rnd) (neg : Bool) : Nat := (roundAt r neg m e l false).q
    (∀ neg, q .rtz neg * u ≤ m ∧ m < (q .rtz neg + 1) * u) ∧
    (m ≤ q .rup false * u ∧ q .rup false * u < m + u) ∧ (m ≤ q .rdn true * u ∧ q .rdn true * u < m + u) ∧
    q .rup true = q .rtz true ∧ q .rdn false = q .rtz false ∧
    (∀ neg, 2 * (q .rne neg * u) ≤ 2 * m + u ∧ 2 * m ≤ 2 * (q .rne neg * u) + u ∧
      ((2 * (q .rne neg * u) = 2 * m + u ∨ 2 * m = 2 * (q .rne neg * u) + u) → q .rne neg % 2 = 0)) ∧
    (∀ r neg, (roundAt r neg m e l false).ix = decide (m % u ≠ 0))) ∧
  (∀ f ∈ [fmtE4M3, fmtE5M2, fmtE3M2, fmtE2M3, fmtE2M1, fmtBF16, fmtFP16, fmtB32, fmtB64],
    ∀ c, c < 2 ^ (1 + f.eb + f.mb) → (∀ sg, decodeF f c ≠ .nan sg) → ∀ r : Rnd, (∀ x, r ≠ .stoch x) →
      packF f r false (decodeF f c) false = (c, fl0))

/-! ## Movement (06_stage_execution.md) -/

/-- DMA, SKEWCOPY, GATHER, SCATTER and WIDEN (R178 to R183): one that passes its checks and finds room enters the DMA
queue, and the engine starts what it may. Model's choices: log 12, 54. -/
def Obligations.MovementOpsComplete : Prop :=
  ∀ (p : PDie) (t : ThreadId) (w : OpWord) (s : State),
    let off := (oregOff ((s.die p).thread t) w).toNat
    let n := opField w.x 68 52
    let done (opcode : Nat) : Host.Outcome State Fault Refusal :=
      .next (s.ran p fun d => dmaGo (accept d t (newOp d t opcode w .dma)))
    let ok (opcode : Nat) (fields : List (Nat × Nat)) (chk : Die → Thread → Option Status) : Prop :=
      Passes (s.die p) t opcode w fields ∧ HasRoom (s.die p) t opcode w ∧
        chk (s.die p) ((s.die p).thread t) = none
    (ok 0x40 [(68, 0)] (fun _ _ => none) → opField w.x 22 6 + off + n ≤ spdWords →
      64 * (opField w.x 51 23 + off) + 512 * n ≤ 2 ^ 35 → exec (.dma p t w) s = done 0x40) ∧
    (ok 0x41 [(92, 0)] (skewChk w) → exec (.skewcopy p t w) s = done 0x41) ∧
    (ok 0x42 [(4, 0), (84, 5)] (needleChk w) → exec (.gather p t w) s = done 0x42) ∧
    (ok 0x43 [(4, 0), (84, 5)] (needleChk w) → exec (.scatter p t w) s = done 0x43) ∧
    (ok 0x44 [(75, 0)] (widenChk w) → exec (.widen p t w) s = done 0x44)

/-- DMA (R178): one whose extent leaves the scratchpad or LPDDR is rejected with `MALFORMED`. One that runs moves the
units before the first that the region table refuses, and ends with that unit's status, or `OK`; the destination then
holds the source's bytes, and every other byte of the scratchpad and of LPDDR is as before. Model's choices: log 48,
53, 54, 64. -/
def Obligations.DmaCopiesBytes : Prop :=
  (∀ (p : PDie) (t : ThreadId) (w : OpWord) (s : State),
    let off := (oregOff ((s.die p).thread t) w).toNat
    let n := opField w.x 68 52
    Passes (s.die p) t 0x40 w [(68, 0)] →
    (spdWords < opField w.x 22 6 + off + n ∨ 2 ^ 35 < 64 * (opField w.x 51 23 + off) + 512 * n) →
    exec (.dma p t w) s = .next (s.ran p fun d =>
      let d' := (issued d t).modThread t fun th => { th with last := .malformed }
      if wHoe w then threadFault t .malformed 0x40 d' else d')) ∧
  (∀ (o : LongOp) (d : Die),
    let toLp := bitOf o.x.toNat 5
    let spw := 512 * o.addr 22 6
    let mem := 64 * o.addr 51 23
    let units := 8 * opField o.x 68 52
    let u := unitsOk d (dmaReq d o toLp) units mem
    let n := 64 * u.1
    let r := runDma o d
    (u.2 = none → u.1 = units) ∧
    (∀ st, u.2 = some st → u.1 < units ∧ regionChk d (dmaReq d o toLp) (mem + 64 * u.1) 64 = some st) ∧
    (∀ i, i < u.1 → regionChk d (dmaReq d o toLp) (mem + 64 * i) 64 = none) ∧
    (toLp = false → lpBad d mem n = [] →
      r.1 = u.2.getD .ok ∧ r.2.lpddr = d.lpddr ∧
      ∀ a, tabGet zeroByte r.2.spd a =
        if spw ≤ a ∧ a < spw + n then tabGet zeroByte d.lpddr (mem + (a - spw)) else tabGet zeroByte d.spd a) ∧
    (toLp = true → spdBad d spw n = [] →
      r.1 = u.2.getD .ok ∧ r.2.spd = d.spd ∧
      ∀ a, tabGet zeroByte r.2.lpddr a =
        if mem ≤ a ∧ a < mem + n then tabGet zeroByte d.spd (spw + (a - mem)) else tabGet zeroByte d.lpddr a))

/-! ## Rods and beads (07_rods_beads.md) -/

/-- SEND, RECV, PEEK, OPEN and CLOSE that pass their checks (R207, R210, R212, R213). Model's choices: log 2, 24, 54.
-/
def Obligations.MessageOpsComplete : Prop :=
  ∀ (p : PDie) (t : ThreadId) (w : OpWord) (s : State),
    let n := opField w.x 16 5
    let th := (s.die p).thread t
    let off := (oregOff th w).toNat
    (Passes (s.die p) t 0x52 w [(42, 0)] → HasRoom (s.die p) t 0x52 w →
      exec (.peek p t w) s = .next (s.ran p fun d =>
        serveRod n (accept d t { newOp d t 0x52 w .msg with phase := .running }))) ∧
    (Passes (s.die p) t 0x51 w [(55, 36), (34, 0)] → HasRoom (s.die p) t 0x51 w →
      (bitOf w.x.toNat 17 = true → opField w.x 34 18 + off ≤ 98303) →
      exec (.recv p t w) s = .next (s.ran p fun d =>
        serveRod n (accept d t { newOp d t 0x51 w .msg with phase := .running }))) ∧
    (Passes (s.die p) t 0x53 w [(46, 0)] → HasRoom (s.die p) t 0x53 w → openChk w (s.die p) th = none →
      exec (.openOp p t w) s = .next (s.ran p fun d =>
        let o := { newOp d t 0x53 w .msg with phase := .running, sval := (d.thread t).sreg (opField w.x 21 17) }
        openGo w.x o (accept d t o))) ∧
    (Passes (s.die p) t 0x54 w [(23, 0)] → HasRoom (s.die p) t 0x54 w →
      (bitOf w.x.toNat 18 = true → badWriter (th.sreg (opField w.x 23 19)) = false) →
      exec (.closeOp p t w) s = .next (s.ran p fun d =>
        let o := { newOp d t 0x54 w .msg with phase := .running, sval := (d.thread t).sreg (opField w.x 23 19) }
        closeGo w.x o (accept d t o))) ∧
    (∀ e, Passes (s.die p) t 0x50 w [(70, 0)] → sendChk w (s.die p) th = none →
      sendEntry (s.die p) (th.sreg (opField w.x 9 5)) = some e → sendUnits w.x ≤ ccAvail (s.die p) e →
      (s.die p).sendsOut < 1024 → tokenFull th w = false →
      exec (.send p t w) s = .next (s.ran p fun d =>
        let d' := unblock t.toNat d
        let o := { newOp d' t 0x50 w .msg with
                     phase := .running, sval := (d.thread t).sreg (opField w.x 9 5)
                     sval2 := (d.thread t).sreg (opField w.x 14 10) }
        sendGo e o (accept d' t o))) ∧
    (∀ e, Passes (s.die p) t 0x50 w [(70, 0)] → sendChk w (s.die p) th = none →
      sendEntry (s.die p) (th.sreg (opField w.x 9 5)) = some e → ccAvail (s.die p) e < sendUnits w.x →
      exec (.send p t w) s = .next (s.ran p (stallCredit t e w)))

/-- PEEK_RECV_TIMEOUT and ANSWER_TIMEOUT (R209, R210): a waiting op ends with `TIMEOUT`, a PEEK with 0; a handle whose
answer limit expires is freed, `TIMEOUT` is raised, and the entry of a SEND becomes STALE. VER_USE_TIMEOUT and
LEDGER_DONE_TIMEOUT (R238, R239, R271): a waiting op ends with `TIMEOUT`. Model's choices: log 9, 29, 54. -/
def Obligations.OpTimersComplete : Prop :=
  (∀ (p : PDie) (s : State), (s.die p).run = .active →
    (∀ id o, (s.die p).op? id = some o → o.unit = .msg → o.opcode = 0x51 ∨ o.opcode = 0x52 →
      rodTimeoutOf o ≠ 0 → paused (s.die p) o.job.toNat = false →
      exec (.peekRecvTimeout p id) s = .next (s.ran p fun d => finishOp id .timeout (zeroPeek o d))) ∧
    (∀ (k : BitVec 10) op e units epoch sq since,
      tabGet noHandle (s.die p).handles k.toNat = some ⟨op, .send e units, epoch, sq, since⟩ →
      ccEpoch (s.die p) e = epoch.toNat → ccState (s.die p) e = 0 →
      exec (.answerTimeout p k) s = .next (s.ran p fun d =>
        handleFreed (finishOp op .timeout (ccStale e (((dropHandle k.toNat d).setFlag 0x50008 2).event 0x50000)))))) ∧
  (∀ (p : PDie) (id : Nat) (o : LongOp) (s : State), (s.die p).run = .active → (s.die p).op? id = some o →
    o.phase = .running → paused (s.die p) o.job.toNat = false →
    (o.opcode = 0x70 → opField o.x 38 19 ≠ 0 →
      exec (.verUseTimeout p id) s = .next (s.ran p (finishOp id .timeout))) ∧
    (o.opcode = 0x62 → opField o.x 6 5 ≤ 1 → opField o.x 36 17 ≠ 0 →
      exec (.ledgerDoneTimeout p id) s = .next (s.ran p (finishOp id .timeout))))

/-- BEAD_ARRIVAL (R197, R205): a data bead at the front of the die's inbox that passes checks 1 to 7 and finds room in
its open rod's ring is stored, answered DELIVERED and offered to the ops that wait; one that fails is answered with
the NAK of its check. A bead for a ring whose scratchpad is being cleared waits. Model's choices: log 11, 25, 54. -/
def Obligations.BeadArrivalComplete : Prop :=
  ∀ (p : PDie) (h : BitVec 256) (payload : Bytes) (rest : List Frame) (s : State),
    let b := beadOf h
    let n := b.dstRod
    let took (d : Die) : Die := { d with inbox := rest }
    (s.die p).run = .active → (s.die p).inbox = .bead h payload :: rest → hdrOk h = true → b.kind ≤ 1 →
    (∀ ue at_, beadBad h = false → b.dstDie ≠ 127 → payload.length + 32 = 32 * b.length →
      worldOk b.world (rodWorld (s.die p) n) = true → b.epoch = rodEpoch (s.die p) n →
      rodOpen (s.die p) n = true → b.job = rodJob (s.die p) n →
      rodPlace (s.die p) n b.length = some (false, at_) →
      ((s.die p).clearing = false → exec (.beadArrival p h payload ue) s = .next (s.ran p fun d =>
        serveRod n (deliverBead b (storeBead n (heldHeader h ue) payload false at_ (took d))))) ∧
      ((s.die p).clearing = true → exec (.beadArrival p h payload ue) s = .next (s.ran p id))) ∧
    (∀ ue st, beadVerdict h payload (s.die p) = .error st →
      exec (.beadArrival p h payload ue) s = .next (s.ran p fun d =>
        nakBead b st (if st = .worldViolation then worldRefused (took d) else took d))) ∧
    ((beadBad h = true ∨ b.dstDie = 127 ∨ payload.length + 32 ≠ 32 * b.length) →
      beadVerdict h payload (s.die p) = .error .malformed) ∧
    (beadBad h = false → b.dstDie ≠ 127 → payload.length + 32 = 32 * b.length →
      (worldOk b.world (rodWorld (s.die p) n) = false →
        beadVerdict h payload (s.die p) = .error .worldViolation) ∧
      (worldOk b.world (rodWorld (s.die p) n) = true →
        (b.epoch ≠ rodEpoch (s.die p) n → beadVerdict h payload (s.die p) = .error .staleEpoch) ∧
        (b.epoch = rodEpoch (s.die p) n → rodOpen (s.die p) n = false ∨ b.job ≠ rodJob (s.die p) n →
          beadVerdict h payload (s.die p) = .error .closed) ∧
        (b.epoch = rodEpoch (s.die p) n → rodOpen (s.die p) n = true → b.job = rodJob (s.die p) n →
          rodPlace (s.die p) n b.length = none →
          beadVerdict h payload (s.die p) = .error .resourceExhausted)))

/-- OPEN and CLOSE beads, CREDIT, DELIVERED and NAK (R200 to R202, R204, R208) at the front of the inbox of the die they
are for. A CLOSE bead closes the entry of its rod and epoch with no credit, and changes nothing otherwise; DELIVERED
answers each. A CREDIT bead adds its units up to `GRANT` where the entry is OPEN and of its epoch, and is counted in
`ROD_LATE` otherwise. Model's choices: log 11, 23, 24, 54. -/
def Obligations.CreditBeadsComplete : Prop :=
  (∀ (p : PDie) (h : BitVec 256) (rest : List Frame) (e : Nat) (s : State),
    let b := beadOf h
    let src := ccFind (s.die p) b.srcPkg b.srcDie b.srcRod
    let took (d : Die) : Die := { d with inbox := rest }
    (s.die p).run = .active → (s.die p).inbox = .bead h [] :: rest → hdrOk h = true →
    (beadBad h = false →
    (b.kind = 3 → b.dstDie ≠ 127 → src = some e → ccState (s.die p) e = 0 → ccEpoch (s.die p) e = b.epoch →
      ccGrant (s.die p) e + b.credit ≤ 16777215 →
      exec (.openBead p h) s = .next (s.ran p fun d =>
        let d' := ((took d).setReg (ccBase e + 8) (ccAvail d e + b.credit)).setReg (ccBase e + 12)
          (ccGrant d e + b.credit)
        creditGo (deliverBead b ({ d' with ccWorld := tabSet (fun _ => false) d.ccWorld e b.world }.setReg
          (ccBase e + 20) b.tag)))) ∧
    (b.kind = 3 → b.dstDie ≠ 127 → src = some e → (ccState (s.die p) e ≠ 0 ∨ ccEpoch (s.die p) e ≠ b.epoch) →
      exec (.openBead p h) s = .next (s.ran p fun d => creditGo (deliverBead b (ccFill b e (took d))))) ∧
    (b.kind = 4 → b.dstDie ≠ 127 → src = some e → ccEpoch (s.die p) e = b.epoch →
      exec (.closeBead p h) s = .next (s.ran p fun d => deliverBead b (ccClose e (took d)))) ∧
    (b.kind = 4 → b.dstDie ≠ 127 → (src = none ∨ (src = some e ∧ ccEpoch (s.die p) e ≠ b.epoch)) →
      exec (.closeBead p h) s = .next (s.ran p fun d => deliverBead b (took d))) ∧
    (b.kind = 5 → b.csub = 1 → src = some e → ccState (s.die p) e = 0 → ccEpoch (s.die p) e = b.epoch →
      exec (.credit p h) s = .next (s.ran p fun d => ccReturn e b.credit (took d))) ∧
    (∀ hd u, b.kind = 5 → b.csub = 0 → handleFor (s.die p) b = some hd → hd.kind = .send e u →
      exec (.delivered p h) s = .next (s.ran p fun d =>
        handleFreed (finishOp hd.op (goodSend d hd.op) (dropHandle b.handle (took d))))) ∧
    (∀ hd u st, b.kind = 2 → statusOf b.status = some st → handleFor (s.die p) b = some hd →
      hd.kind = .send e u →
      exec (.nak p h) s = .next (s.ranAt p fun s => lehrNak p h (s.modDie p fun d =>
        handleFreed (finishOp hd.op st (nakEntry e u hd st (dropHandle b.handle (took d))))))) ∧
    (b.kind = 5 → b.csub = 0 → handleFor (s.die p) b = none →
      exec (.delivered p h) s = .next (s.ran p fun d => (took d).count 0x50018 1))) ∧
    (b.kind = 5 → b.csub = 1 → (beadBad h = true ∨ src = none ∨
        (src = some e ∧ (ccState (s.die p) e ≠ 0 ∨ ccEpoch (s.die p) e ≠ b.epoch))) →
      exec (.credit p h) s = .next (s.ran p fun d => (took d).count 0x50018 1)) ∧
    (beadBad h = true →
      (b.kind = 3 → exec (.openBead p h) s = .next (s.ran p fun d => nakBead b .malformed (took d))) ∧
      (b.kind = 4 → exec (.closeBead p h) s = .next (s.ran p fun d => nakBead b .malformed (took d))) ∧
      (b.kind = 5 → b.csub = 0 →
        exec (.delivered p h) s = .next (s.ran p fun d => nakBead b .malformed (took d))))) ∧
  (∀ (d : Die) (e units : Nat), e < 512 →
    ccState (ccClose e d) e = 1 ∧ ccAvail (ccClose e d) e = 0 ∧ ccGrant (ccClose e d) e = 0 ∧
    ccAvail (ccReturn e units d) e = min (ccGrant d e) (ccAvail d e + units) ∧
    ccGrant (ccReturn e units d) e = ccGrant d e ∧
    ∀ i, i < 512 → i ≠ e → ccAvail (ccReturn e units d) i = ccAvail d i ∧ ccState (ccClose e d) i = ccState d i)

/-- ROUTER_FORWARD (R205, R214, R215): the turn of an output is one segment of one input. Its inputs are served by
round-robin, and its lanes alternate when both have work. The segment goes into the die, or over the seam to the
neighbour of that direction; a frame that no output takes is refused, and one with a bad check is dropped and
counted. Model's choices: log 31, 63. -/
def Obligations.RouterForwardComplete : Prop :=
  ∀ (p : PDie) (out : Fin 8) (lane i k : Nat) (g : Seg) (w : Way) (s : State),
    let took := takeTurn p out.val lane i k s
    routerOn s p = true → dueTally s p out.val = none → turnOf s p out.val = some (lane, i, k, g, w) →
    (i, k, g, w) ∈ contenders s p out.val lane ∧
    (lane ≤ 1 → contenders s p out.val (1 - lane) ≠ [] → lane = 1 - tabGet (fun _ => 1) (s.die p).rtLane out.val) ∧
    (∀ c ∈ contenders s p out.val lane, tabGet (fun _ => 9) (s.die p).rtLast (2 * out.val + lane) < c.1 →
      tabGet (fun _ => 9) (s.die p).rtLast (2 * out.val + lane) < i ∧ i ≤ c.1) ∧
    (∀ l egress, w = .go out.val l egress → isTally g.frame = false →
      (out.val = 0 → g.cont = false → g.last = true → exec (.routerForward p out g.frame) s =
        .next (took.modDie p fun d => { d with inbox := d.inbox ++ [g.frame] })) ∧
      (∀ q, 1 ≤ out.val → out.val ≤ 4 → neighbour p out.val = some q → exec (.routerForward p out g.frame) s =
        .next ((took.modDie p fun d => { d with seamFlits := d.seamFlits + segFlits g }).modDie q
          (rtPush (2 * backDir out.val + l) [{ g with egress := egress, op := none }])))) ∧
    (∀ st, w = .refused st → exec (.routerForward p out g.frame) s =
      .next (refuse p g.frame st (took.modDie p (tallyLeft g.op.toList ∘ cutRest g)))) ∧
    (∀ h bs, w = .discard → g.frame = .bead h bs → exec (.routerForward p out g.frame) s =
      .next (took.modDie p fun d => hdrError (cutRest g d))) ∧
    (g.cont = false → (w = .discard ↔ frameOk g.frame = false))

/-- A bead's header (R195): packing the fields and reading them back gives the same fields, and `HCHK` is right and
no reserved bit is set in what is packed. -/
def Obligations.BeadHeaderRoundTrip : Prop :=
  ∀ (b : Bead), b.dstPkg < 2 ^ 12 → b.dstDie < 2 ^ 7 → b.dstRod < 2 ^ 12 → b.srcPkg < 2 ^ 12 → b.srcDie < 2 ^ 7 →
    b.srcRod < 2 ^ 12 → b.job < 16 → b.kind < 16 → b.csub < 16 → b.status < 256 → b.epoch < 2 ^ 16 →
    b.seq < 2 ^ 16 → b.handle < 2 ^ 10 → b.tag < 2 ^ 32 → b.version < 256 → b.length < 2 ^ 24 →
    b.credit < 2 ^ 24 →
    beadOf (packBead b) = b ∧ hdrOk (packBead b) = true ∧ hdrReserved (packBead b) = false

/-- Credit never exceeds its grant (R202, R208): where it held of an entry that `AVAIL` is at most `GRANT`, it holds
after a return of units, a close, a stale mark, and an OPEN bead's fill of that entry. -/
def Obligations.CreditWithinGrant : Prop :=
  ∀ (d : Die) (e e' units : Nat) (b : Bead), e < 512 → e' < 512 → ccAvail d e' ≤ ccGrant d e' →
    ccAvail (ccReturn e units d) e' ≤ ccGrant (ccReturn e units d) e' ∧
    ccAvail (ccClose e d) e' ≤ ccGrant (ccClose e d) e' ∧
    ccAvail (ccStale e d) e' ≤ ccGrant (ccStale e d) e' ∧
    ccAvail (ccFill b e d) e' ≤ ccGrant (ccFill b e d) e'

/-! ## Versions (08_versions.md) -/

/-- VER_USE in its three modes and its timeout (R231, R232, R238, R239): a LIVE version of the number that the window
or the register names gives a reference; LOOKUP reports it; a number that is still to come makes the op wait. Model's
choices: log 23, 54. -/
def Obligations.VersionUseComplete : Prop :=
  ∀ (p : PDie) (t : ThreadId) (v : OpWord) (s : State) (m : Nat), m < 3 →
    let w := withMode 8 7 v m
    let st := opField w.x 6 5
    let d := s.die p
    let sa := verSa w.x (d.thread t)
    let number := if m = 0 then windowNumber d st sa else sa
    let run : Instr := if m = 0 then .verUseBind p t v else if m = 1 then .verUseByNumber p t v
      else .verUseLookup p t v
    let o (d : Die) : LongOp := { newOp d t 0x70 w .ver with phase := .running, stamp := number }
    Passes d t 0x70 w [(38, 0)] → HasRoom d t 0x70 w → sa < 2 ^ (if m = 0 then 48 else 8) →
    verEnable d st = true → verJob d st = (d.threadJob t).toNat → (m = 0 → verStart d st ≤ sa) →
    (∀ k, m ≠ 2 → slotOf d st number = some k → slotState d st k = 4 → slotRefs d st k ≠ 65535 →
      exec run s = .next (s.ran p fun d => verTake st k (o d) (accept d t (o d)))) ∧
    (m ≠ 2 → ((slotOf d st number = none ∧ absentWaits d st number = true) ∨
        ∃ k, slotOf d st number = some k ∧ slotState d st k ≠ 4) →
      exec run s = .next (s.ran p fun d => accept d t (o d))) ∧
    (∀ k, m = 2 → slotOf d st number = some k →
      exec run s = .next (s.ran p fun d =>
        verDone d.nextOp .ok (some (verSd w.x, verWord d st k)) (accept d t (o d))))

/-- VER_NEW ALLOC, SEAL and INITIAL (R234, R238, R239): the lowest FREE slot takes the number; SEAL makes an OPEN slot
SEALED and an OPEN_COMMITTED one LIVE. Model's choices: log 23, 54. -/
def Obligations.VersionNewComplete : Prop :=
  ∀ (p : PDie) (t : ThreadId) (v : OpWord) (s : State) (m k : Nat), m < 3 →
    let w := withMode 8 7 v m
    let st := opField w.x 6 5
    let d := s.die p
    let sa := verSa w.x (d.thread t)
    let b := d.reg (verBase st + 4)
    let n := (sa + 1) % 256
    let o (d : Die) : LongOp := { newOp d t 0x71 w .ver with phase := .running, stamp := sa }
    Passes d t 0x71 w [(18, 0)] → HasRoom d t 0x71 w → sa < 2 ^ (if m = 1 then 8 else 48) →
    verEnable d st = true → verJob d st = (d.threadJob t).toNat →
    (m = 0 → bitsOf b 26 15 ≠ 0 → bitsOf b 14 0 + verSlots d st * bitsOf b 26 15 ≤ 32768 →
      slotOf d st n = none → freeSlot d st = some k →
      exec (.verNewAlloc p t v) s = .next (s.ran p fun d =>
        let d' := verAlloc st k n (if verCommitValid d st ∧ n = verLast d st then 3 else 1) (accept d t (o d))
        verDone d.nextOp .ok (some (verSd w.x, verWord d' st k)) d')) ∧
    (m = 1 → slotOf d st sa = some k → slotState d st k = 1 →
      exec (.verNewSeal p t v) s = .next (s.ran p fun d =>
        setSlotState st k 2 (verDone d.nextOp .ok none (accept d t (o d))))) ∧
    (m = 1 → slotOf d st sa = some k → slotState d st k = 3 →
      exec (.verNewSeal p t v) s = .next (s.ran p fun d =>
        verRetire st (verWake st sa (setSlotState st k 4 (verDone d.nextOp .ok none (accept d t (o d))))))) ∧
    (m = 2 → bitsOf b 26 15 ≠ 0 → bitsOf b 14 0 + verSlots d st * bitsOf b 26 15 ≤ 32768 →
      (∀ i, i < 8 → slotState d st i = 0) → sa = (verStart d st + 2 ^ 48 - 1) % 2 ^ 48 →
      freeSlot d st = some k →
      exec (.verNewInitial p t v) s = .next (s.ran p fun d =>
        let d' := verAlloc st k n 3 (accept d t (o d))
        verDone d.nextOp .ok none ((d'.put ⟨verBase st + 0x10, 23, 16⟩ n).setFlag (verBase st + 0x10) 24)))

/-- VER_PIN and VER_RELEASE in its three modes (R233, R234, R236, R238, R239, R241). Model's choices: log 23, 54. -/
def Obligations.VersionPinReleaseComplete : Prop :=
  ∀ (p : PDie) (t : ThreadId) (v : OpWord) (s : State) (m k : Nat), m < 3 →
    let w := withMode 8 7 v m
    let st := opField w.x 6 5
    let d := s.die p
    let sa := verSa w.x (d.thread t)
    let o (d : Die) : LongOp := { newOp d t 0x73 w .ver with phase := .running, stamp := sa }
    let done (d : Die) : Die := verDone d.nextOp .ok none (accept d t (o d))
    let pst := opField v.x 6 5
    (Passes d t 0x72 v [(6, 0), (19, 9)] → HasRoom d t 0x72 v → bitOf v.x.toNat 19 = false →
      verSa v.x (d.thread t) < 256 → verEnable d pst = true → verJob d pst = (d.threadJob t).toNat →
      slotOf d pst (verSa v.x (d.thread t)) = some k → slotState d pst k = 4 → slotPins d pst k < 15 →
      exec (.verPin p t v) s = .next (s.ran p fun d =>
        let d' := setSlotPins pst k (slotPins d pst k + 1)
          (accept d t { newOp d t 0x72 v .ver with phase := .running, stamp := k })
        verDone d.nextOp .ok (some (verSd v.x, verWord d' pst k)) d')) ∧
    (Passes d t 0x73 w [(8, 0), (18, 14)] → HasRoom d t 0x73 w → sa < 256 →
      verEnable d st = true → verJob d st = (d.threadJob t).toNat → slotOf d st sa = some k →
      (m = 0 → slotRefs d st k ≠ 0 →
        exec (.verReleaseRef p t v) s = .next (s.ran p fun d =>
          let d' := setSlotRefs st k (slotRefs d st k - 1) (done d)
          let c := 0xA8028 + 0x40 * st
          verRetire st (d'.setReg c ((d'.reg c + 1) % 2 ^ 32)))) ∧
      (m = 1 → slotPins d st k ≠ 0 →
        exec (.verReleaseUnpin p t v) s = .next (s.ran p fun d =>
          verRetire st (setSlotPins st k (slotPins d st k - 1) (done d)))) ∧
      (m = 2 → (slotState d st k = 4 → slotRefs d st k = 0 ∧ slotPins d st k = 0) →
        exec (.verReleaseDiscard p t v) s = .next (s.ran p fun d => freeSlotOf st k (done d))))

/-- A new reference (R233): the slot's `REFS` rises by one, and `NEWEST_USED` takes the number where it is ahead or
none was in use; a slot retires exactly when it is LIVE with no reference and no pin and a newer version is in
use. -/
def Obligations.VersionReferenceCounts : Prop :=
  (∀ (d : Die) (t k : Nat) (o : LongOp), t < 4 → k < 8 → slotRefs d t k < 65535 →
    slotRefs (verTake t k o d) t k = slotRefs d t k + 1 ∧
    verUsedValid (verTake t k o d) t = true ∧
    verNewest (verTake t k o d) t =
      (if verUsedValid d t = false ∨ verAhead (slotNumber d t k) (verNewest d t) = true then slotNumber d t k
       else verNewest d t)) ∧
  (∀ (d : Die) (t k : Nat), t < 4 → k < 8 →
    slotState (verRetire t d) t k =
      (if slotState d t k = 4 ∧ slotRefs d t k = 0 ∧ slotPins d t k = 0 ∧ verUsedValid d t = true ∧
        verAhead (verNewest d t) (slotNumber d t k) = true then 0 else slotState d t k) ∧
    slotNumber (verRetire t d) t k = slotNumber d t k ∧ slotRefs (verRetire t d) t k = slotRefs d t k ∧
    slotPins (verRetire t d) t k = slotPins d t k)

/-! ## Remote accumulation (09_reduction.md) -/

/-- RAP_ARRIVAL (R254, R255): a whole packet at the front of the inbox, its accumulators on channels that serve, for an enabled context of its job, operation, range and generation. Of
the recorded pair it is added; the first of an arming of a clean range arms the context; where the range is not clean,
or its attempt is newer, it waits for a sweep; a newer step while armed poisons the context; an older pair is refused
`ATTEMPT_STALE`, and another generation `GEN_MISMATCH`. Model's choices: log 11, 27, 54. -/
def Obligations.PacketArrivalComplete : Prop :=
  ∀ (p : PDie) (h : BitVec 512) (payload : Bytes) (rest : List Frame) (s : State),
    let d0 := s.die p
    let r := rapOf h
    let b := ctxBase r.mc r.ctx
    let a := bitsOf r.target 40 0
    let k := accPerUnit r.op
    let took (d : Die) : Die := { d with inbox := rest }
    d0.run = .active → d0.inbox = .rap h payload :: rest → rapHdrOk h = true → sweeping d0 r.mc = false → rapBad h payload = false →
    lpServes false a (k * (r.len + 1)) d0 = true →
    worldOk r.world (ctxWorld d0 b) = true → ctxEnable d0 b = true → r.job = ctxJob d0 b → r.op = ctxOp d0 b →
    ctxRange d0 b ≤ a → (a - ctxRange d0 b) % k = 0 → a + k * (r.len + 1) ≤ ctxRange d0 b + k * ctxUnits d0 b →
    (r.gen ≠ ctxGen d0 b → exec (.rapArrival p h payload) s = .next (s.ran p fun d =>
      rapNak r .genMismatch (ctxWake b (ctxPoisoned b 4 r.step r.attempt (took d))))) ∧
    (r.gen = ctxGen d0 b →
      (pairLt r.step r.attempt (ctxStep d0 b) (ctxAttempt d0 b) = true →
        exec (.rapArrival p h payload) s = .next (s.ran p fun d =>
          rapNak r .attemptStale ((took d).count 0x90008 1))) ∧
      (r.step = ctxStep d0 b → r.attempt = ctxAttempt d0 b → ctxState d0 b ≠ 0 →
        exec (.rapArrival p h payload) s = .next (s.ran p fun d =>
          ctxWake b (rapAccept b r payload (took d)))) ∧
      (pairLt r.step r.attempt (ctxStep d0 b) (ctxAttempt d0 b) = false → ctxState d0 b = 0 → ctxClean d0 b = true →
        exec (.rapArrival p h payload) s = .next (s.ran p fun d =>
          ctxWake b (rapAccept b r payload (setCtxState b 2 (ctxArm b r (took d)))))) ∧
      (pairLt r.step r.attempt (ctxStep d0 b) (ctxAttempt d0 b) = false →
        ((ctxState d0 b = 0 ∧ ctxClean d0 b = false) ∨
          (ctxState d0 b ≠ 0 ∧ r.step = ctxStep d0 b ∧ ctxAttempt d0 b < r.attempt)) →
        exec (.rapArrival p h payload) s = .next (s.ran p fun d =>
          ctxWake b (rapWait r.mc h payload (setCtxState b 1 (ctxArm b r (took d)))))) ∧
      (ctxState d0 b ≠ 0 → ctxStep d0 b < r.step →
        exec (.rapArrival p h payload) s = .next (s.ran p fun d =>
          ctxWake b (rapAccept b r payload
            (ctxPoison3 b (setCtxState b 2 (ctxRecord b r.step r.attempt (took d))))))))

/-- An accepted packet (R250, R255): every payload unit is added into its accumulators, every other byte of LPDDR is
unchanged, and `RECEIVED` counts the units. The operations of R250 on one payload unit, element by element: TBI16 and
TBI32 add signed elements into 32-bit and 64-bit accumulators with wrap, U64 adds with wrap, and UMAX32 keeps the
larger number. Model's choices: log 27. -/
def Obligations.AcceptedPacketAdds : Prop :=
  (∀ (b : Nat) (r : Rap) (payload : Bytes) (d : Die) (mc : Bool) (c : Nat),
    let a := bitsOf r.target 40 0
    let n := r.len + 1
    let k := accPerUnit r.op
    let d' := rapAccept b r payload d
    c < 1536 → b = ctxBase mc c → Memory.wf d.lpddr = true → r.op < 4 → r.len < 64 → a % 64 = 0 →
    payload.length = 64 * n → ctxPoison d b = false → r.eb = ctxEb d b → r.lmaxe < 256 →
    ctxReceived d b + n ≤ ctxContrib d b * ctxUnits d b → ctxContrib d b * ctxUnits d b < 2 ^ 32 →
    (∀ i, i < k * n / 64 → regionChk d (ctxReq d b) (a + 64 * i) 64 = none) → lpBad d a (k * n) = [] →
    (∀ u, u < n → tabSlice zeroByte d'.lpddr (a + k * u) k =
      addUnit r.op (tabSlice zeroByte d.lpddr (a + k * u) k) (sliceB payload (64 * u) 64)) ∧
    (∀ x, (x < a ∨ a + k * n ≤ x) → tabGet zeroByte d'.lpddr x = tabGet zeroByte d.lpddr x) ∧
    Memory.wf d'.lpddr = true ∧ ctxReceived d' b = ctxReceived d b + n ∧
    ctxMaxe d' b = max (ctxMaxe d b) r.lmaxe) ∧
  (∀ (old pay : Bytes) (i : Nat),
    (i < 32 → old.length = 128 → pay.length = 64 →
      natAt (addUnit 0 old pay) (4 * i) 4 =
        wrapInt 32 (signedOf 32 (natAt old (4 * i) 4) + signedOf 16 (natAt pay (2 * i) 2))) ∧
    (i < 16 → old.length = 128 → pay.length = 64 →
      natAt (addUnit 1 old pay) (8 * i) 8 =
        wrapInt 64 (signedOf 64 (natAt old (8 * i) 8) + signedOf 32 (natAt pay (4 * i) 4))) ∧
    (i < 8 → old.length = 64 → pay.length = 64 →
      natAt (addUnit 2 old pay) (8 * i) 8 = (natAt old (8 * i) 8 + natAt pay (8 * i) 8) % 2 ^ 64) ∧
    (i < 16 → old.length = 64 → pay.length = 64 →
      natAt (addUnit 3 old pay) (4 * i) 4 = max (natAt old (4 * i) 4) (natAt pay (4 * i) 4)) ∧
    (old.length = 128 → pay.length = 64 → (addUnit 0 old pay).length = 128 ∧ (addUnit 1 old pay).length = 128) ∧
    (old.length = 64 → pay.length = 64 → (addUnit 2 old pay).length = 64 ∧ (addUnit 3 old pay).length = 64))

/-- ACCUM_PUSH, SWEEP_COMPLETE and CONTEXT_CONFIG (R251, R253, R255, R257, R258): a push enters with the job's
generation and step and sends its packets; a sweep leaves zeros and a clean, armed context; the management complex
configures a disabled context. Model's choices: log 17, 27, 54. -/
def Obligations.PushSweepConfigComplete : Prop :=
  ∀ (p : PDie) (s : State),
    (∀ (t : ThreadId) (w : OpWord), Passes (s.die p) t 0x60 w [(64, 0)] → HasRoom (s.die p) t 0x60 w →
      pushChk t w (s.die p) ((s.die p).thread t) = none →
      let j := ((s.die p).threadJob t).toNat
      exec (.accumPush p t w) s = .next (s.ran p fun d =>
        let o : LongOp := { newOp d t 0x60 w .red with
          phase := .running, sval := (d.thread t).sreg (opField w.x 9 5)
          sval2 := (d.thread t).sreg (opField w.x 14 10), stamp := redStep d j + redGen d j <<< 48 }
        pushGo o.id (ceilDiv (opField w.x 64 49) 64 + 1) (accept d t o))) ∧
    (∀ (mc : Bool) (c : BitVec 11),
      let b := ctxBase mc c.toNat
      let a := ctxRange (s.die p) b
      let n := accPerUnit (ctxOp (s.die p) b) * ctxUnits (s.die p) b / 64
      (s.die p).run = .active → c.toNat < 1536 → ctxState (s.die p) b = 1 →
      lpServes false a (accPerUnit (ctxOp (s.die p) b) * ctxUnits (s.die p) b) (s.die p) = true →
      (unitsOk (s.die p) (ctxReq (s.die p) b) n a).2 = none →
      (ledgerOps (s.die p) 2).find? (fun o => decide (scCtx o = b)) = none →
      exec (.sweepComplete p mc c) s = .next (s.ran p fun d =>
        let d' := ctxWake b (setCtxState b 2 ((lpStore (ctxReq d b) a (List.replicate (64 * n) 0) d).put ⟨b + 12, 6, 6⟩ 1))
        if sweeping d' mc then d' else rapReplay mc d')) ∧
    (∀ (mc : Bool) (c : BitVec 11) (word : BitVec 2) (v : BitVec 32),
      let d0 := s.die p
      let b := ctxBase mc c.toNat
      let cfg := if word = 0 then v.toNat else d0.reg b
      let units := bitsOf (if word = 2 then v.toNat else d0.reg (b + 8)) 19 0
      d0.run = .active → c.toNat < 1536 → word ≠ 3 →
      (ctxEnable d0 b = false → (word = 0 → bitsOf v.toNat 15 11 = 0) → (word = 1 → bitsOf v.toNat 31 29 = 0) →
        (bitOf cfg 1 = true → d0.world = true) → (bitOf cfg 0 = true → units ≠ 0) →
        ctxServed mc (if word = 1 then v.toNat else d0.reg (b + 4)) units (bitsOf cfg 7 6) = true →
        exec (.contextConfig p .mgmt mc c word v) s = .next (s.ran p fun d =>
          let d' := { (d.setReg (b + 4 * word.toNat) v.toNat).resetRegs (b + 12) (b + 32) with
            ctxTold := tabSet (fun _ => false) d.ctxTold (ctxKey b) false }
          if sweeping d' mc then d' else rapReplay mc d')) ∧
      (ctxEnable d0 b = true → word = 0 → v.toNat + 1 = d0.reg b → bitsOf v.toNat 15 11 = 0 →
        exec (.contextConfig p .mgmt mc c word v) s = .next (s.ran p fun d => ctxWake b (d.setReg b v.toNat))) ∧
      (∀ w, w ≠ .mgmt → exec (.contextConfig p w mc c word v) s = .next (s.ran p fun d =>
        d.invalidWrite (if mc then 0x80000 else 0x70000))))

/-- TALLY_ADD, TALLY_COMBINE, TALLY_COMBINE_RELEASE, COLLECTOR_TALLY and COLLECTOR_ENABLE (R264 to R266, R278): a user
tally goes to the router for the die that the scalar names, and its op ends when it leaves the die; tallies of one key
combine at an output, and their ops with them; a held tally leaves when its interval ends, or as soon after as its
output takes it; a collector entry adds the counts of its pair. Model's choices: log 11, 54. -/
def Obligations.TallyCommandsComplete : Prop :=
  ∀ (p : PDie) (s : State),
    (∀ (t : ThreadId) (w : OpWord), Passes (s.die p) t 0x61 w [(41, 0)] → HasRoom (s.die p) t 0x61 w →
      0x100 ≤ opField w.x 25 10 → opField w.x 41 26 ≠ 0 →
      badWriter (((s.die p).thread t).sreg (opField w.x 9 5)) = false →
      let j := ((s.die p).threadJob t).toNat
      exec (.tallyAdd p t w) s = .next (s.ran p fun d =>
        let v := (d.thread t).sreg (opField w.x 9 5)
        let d' := accept d t { newOp d t 0x61 w .red with phase := .running, sval := v }
        emitTally d.nextOp (packBead { tallyBead (bitsOf v.toNat 11 0) (bitsOf v.toNat 18 12) j
          (opField w.x 25 10) (opField w.x 41 26) (redAttempt d' j) (redStep d' j) with
            srcPkg := d'.pkg.toNat, srcDie := d'.logical.toNat, world := d'.world }) d')) ∧
    (∀ (dir : BitVec 3) (lane i k l : Nat) (g : Seg) (egress : Option (BitVec 3)) (h : BitVec 256),
      let took := takeTurn p dir.toNat lane i k s
      let new : HeldTally := ⟨dir, l, egress, h, (s.die p).rrc, g.op.toList, false⟩
      let key (e : HeldTally) : Bool :=
        !e.due && decide (e.dir = dir) && decide (tallyKey e.h = tallyKey h)
      routerOn s p = true → dueTally s p dir.toNat = none →
      turnOf s p dir.toNat = some (lane, i, k, g, .go dir.toNat l egress) → g.frame = .bead h [] → isTally g.frame = true →
      ((s.die p).held.find? key = none → exec (.tallyCombine p dir egress h) s =
        .next (took.modDie p fun d => { d with held := d.held ++ [new] })) ∧
      (∀ e, (s.die p).held.find? key = some e → (beadOf e.h).epoch + (beadOf h).epoch ≤ 65535 →
        exec (.tallyCombine p dir egress h) s = .next (took.modDie p fun d =>
          { d with held := d.held.map fun x => if x = e then
            { e with h := packBead { beadOf e.h with epoch := (beadOf e.h).epoch + (beadOf h).epoch }
                     ops := e.ops ++ g.op.toList } else x })) ∧
      (∀ e, (s.die p).held.find? key = some e → 65535 < (beadOf e.h).epoch + (beadOf h).epoch →
        exec (.tallyCombine p dir egress h) s = .next ((releaseTally p e took).modDie p fun d =>
          { d with held := d.held ++ [new] }))) ∧
    (∀ (dir : BitVec 3) (h : BitVec 256) e,
      let out (d : Die) : Die := { d with held := d.held.erase e }
      (s.die p).held.find? (fun e => decide (e.dir = dir) && decide (e.h = h)) = some e →
      (beyond s p dir.toNat = true → outputFree s p dir.toNat e.lane (heldSeg e) = true →
        exec (.tallyCombineRelease p dir h) s =
          .next ((leave p dir.toNat e.lane (heldSeg e) (s.modDie p out)).modDie p (tallyLeft e.ops))) ∧
      (beyond s p dir.toNat = true → outputFree s p dir.toNat e.lane (heldSeg e) = false →
        exec (.tallyCombineRelease p dir h) s = .next (s.modDie p fun d =>
          { d with held := d.held.map fun x => if x = e then { e with due := true } else x })) ∧
      (beyond s p dir.toNat = false → exec (.tallyCombineRelease p dir h) s =
        .next (refuse p (.bead h []) .unreachable (s.modDie p (tallyLeft e.ops ∘ out))))) ∧
    (∀ (h : BitVec 256) (rest : List Frame) (c : Nat),
      let b := beadOf h
      let o := colBase c
      let took (d : Die) : Die := { d with inbox := rest }
      let step := (s.die p).reg48 (o + 0x14)
      let att := (s.die p).get ⟨o + 0x18, 23, 16⟩
      (s.die p).run = .active → (s.die p).inbox = .bead h [] :: rest → hdrOk h = true → tallyOk h = true →
      0x100 ≤ b.seq → colFind (s.die p) b.job b.seq = some c →
      (b.handle = step % 1024 → b.version = att → exec (.collectorTally p h) s = .next (s.ran p fun d =>
        (took d).add48 (o + 4) b.epoch)) ∧
      (b.handle = step % 1024 → att < b.version → exec (.collectorTally p h) s = .next (s.ran p fun d =>
        (((took d).setReg48 (o + 4) (d.reg48 (o + 12))).put ⟨o + 0x18, 23, 16⟩ b.version).add48 (o + 4) b.epoch)) ∧
      (∀ k, 1 ≤ k → k ≤ 511 → b.handle = (step + k) % 1024 →
        exec (.collectorTally p h) s = .next (s.ran p fun d =>
          ((((took d).setReg48 (o + 12) (d.reg48 (o + 4))).setReg48 (o + 0x14) ((step + k) % 2 ^ 48)).put
            ⟨o + 0x18, 23, 16⟩ b.version).add48 (o + 4) b.epoch))) ∧
    (∀ (c : BitVec 8) (v : BitVec 32), (s.die p).run = .active → bitsOf v.toNat 30 20 = 0 →
      0x100 ≤ bitsOf v.toNat 19 4 →
      exec (.collectorEnable p .mgmt c v) s = .next (s.ran p fun d =>
        let o := colBase c.toNat
        let d' := ((d.put ⟨o, 19, 4⟩ (bitsOf v.toNat 19 4)).put ⟨o, 3, 0⟩ (bitsOf v.toNat 3 0)).put ⟨o, 31, 31⟩
          (bitsOf v.toNat 31 31)
        if bitOf v.toNat 31 then d'.resetRegs (o + 4) (o + 28) else d'))

/-- LEDGER_TALLY, LEDGER_DEADLINE, NOTICE_RESEND, LDG_ENABLE and LDG_DISABLE (R267, R268, R277). Model's choices: log
28, 54. -/
def Obligations.LedgerCommandsComplete : Prop :=
  ∀ (p : PDie) (s : State), (s.die p).run = .active →
    (∀ (h : BitVec 256) (rest : List Frame), (s.die p).inbox = .bead h [] :: rest → hdrOk h = true →
      isLedgerTally h = true →
      (tallyOk h = false ∨ ldgMatches (s.die p) (beadOf h) = false → exec (.ledgerTally p h) s = .next (s.ran p fun d =>
        { d with inbox := rest }.count 0x92060 1)) ∧
      (tallyOk h = true → ldgMatches (s.die p) (beadOf h) = true → exec (.ledgerTally p h) s = .next (s.ran p fun d =>
        let d' := { d with inbox := rest }
        let d' := if ldgRuns d' then d' else { d'.setFlag 0x92004 2 with ldgNotice := none }
        let d' := d'.count (0x9203C + 4 * (beadOf h).seq) (beadOf h).epoch
        match ldgDecides d' with
        | some dec => ldgDecide dec d'
        | none => d'))) ∧
    (ldgState (s.die p) = 1 → ldgRuns (s.die p) = true → paused (s.die p) (ldgJob (s.die p)) = false →
      exec (.ledgerDeadline p) s = .next (s.ran p (ldgDecide (1, 0x0E)))) ∧
    (exec (.noticeResend p) s = .next (s.ran p ldgAnnounce)) ∧
    (∀ (v : BitVec 32), (s.die p).flag 0x92000 0 = false → bitsOf v.toNat 12 5 ≠ 0 → bitsOf v.toNat 31 21 = 0 →
      exec (.ldgEnable p .mgmt v) s = .next (s.ran p fun d =>
        let d' := ldgClear (((d.put ⟨0x92000, 12, 5⟩ (bitsOf v.toNat 12 5)).put ⟨0x92000, 4, 0⟩
          (2 * bitsOf v.toNat 4 1 + 1)).put ⟨0x92000, 20, 13⟩ (bitsOf v.toNat 20 13))
        { (d'.put ⟨0x92004, 1, 0⟩ 1).put ⟨0x92004, 15, 8⟩ 0 with ldgNotice := none })) ∧
    (∀ (v : BitVec 32), (s.die p).flag 0x92000 0 = true → bitsOf v.toNat 20 1 = (s.die p).get ⟨0x92000, 20, 1⟩ →
      bitsOf v.toNat 31 21 = 0 →
      exec (.ldgDisable p .mgmt v) s = .next (s.ran p fun d =>
        { (ldgClear (d.put ⟨0x92000, 0, 0⟩ 0)).put ⟨0x92004, 1, 0⟩ 0 with ldgNotice := none })) ∧
    (∀ (v : BitVec 32) (w : Writer), w ≠ .mgmt →
      exec (.ldgEnable p w v) s = .next (s.ran p fun d => d.invalidWrite 0x90000) ∧
      exec (.ldgDisable p w v) s = .next (s.ran p fun d => d.invalidWrite 0x90000))

/-- The decision of the ledger (R267): the first row of the table that holds, and the cause it gives. What a decision
leaves of the unit (R267, R268, R274): the counts are cleared and the deadline stopped; COMMIT moves to the next
window's step at attempt 0, REPEAT to the next attempt of the same step, and a REPEAT past `REPEAT_LIMIT` is a STOP.
Model's choices: log 28. -/
def Obligations.LedgerDecides : Prop :=
  (∀ (d : Die),
    let c (i : Nat) : Nat := ldgCount d i
    let contexts := d.reg 0x92010
    let dies := d.reg 0x92014
    (0 < c 5 → ldgDecides d = some (2, 0x09)) ∧
    (c 5 = 0 → 0 < c 7 → ldgDecides d = some (1, 0x0A)) ∧
    (c 5 = 0 → c 7 = 0 → 0 < c 4 → ldgDecides d = some (1, 0x03)) ∧
    (c 5 = 0 → c 7 = 0 → c 4 = 0 → (0 < c 3 ∨ contexts < c 1 ∨ dies < c 6) → ldgDecides d = some (1, 0x0A)) ∧
    (c 5 = 0 → c 7 = 0 → c 4 = 0 → c 3 = 0 → c 1 = contexts → c 6 = dies → 0 < c 2 →
      ldgDecides d = some (1, 0x09)) ∧
    (c 5 = 0 → c 7 = 0 → c 4 = 0 → c 3 = 0 → c 1 = contexts → c 6 = dies → c 2 = 0 → ldgDecides d = some (0, 0)) ∧
    (c 5 = 0 → c 7 = 0 → c 4 = 0 → c 3 = 0 → c 1 ≤ contexts → c 6 ≤ dies → (c 1 < contexts ∨ c 6 < dies) →
      ldgDecides d = none)) ∧
  (∀ (d : Die) (kind cause : Nat), kind < 3 → cause < 256 → ldgState d = 1 →
    let d' := ldgDecide (kind, cause) d
    ldgRuns d' = false ∧ (∀ i, 1 ≤ i → i ≤ 7 → ldgCount d' i = 0) ∧
    (kind = 0 → ldgStep d' = (ldgStep d + ldgN d) % 2 ^ 48 ∧ ldgAttempt d' = 0 ∧ ldgState d' = 1) ∧
    (kind = 1 → ldgAttempt d < ldgLimit d →
      ldgStep d' = ldgStep d ∧ ldgAttempt d' = ldgAttempt d + 1 ∧ ldgState d' = 1 ∧ d'.get ⟨0x92004, 23, 16⟩ = cause) ∧
    ((kind = 2 ∨ (kind = 1 ∧ ldgLimit d ≤ ldgAttempt d)) →
      ldgStep d' = ldgStep d ∧ ldgAttempt d' = ldgAttempt d ∧ ldgState d' = 2 ∧ d'.get ⟨0x92004, 23, 16⟩ = cause))

/-- COMMIT, REPEAT and STOP notices (R269): a notice for the job's step and attempt is applied at a die that forwards
to none; any other is counted. Model's choices: log 11, 26, 54. -/
def Obligations.NoticesComplete : Prop :=
  ∀ (p : PDie) (h : BitVec 256) (rest : List Frame) (s : State),
    let b := beadOf h
    let took (d : Die) : Die := { d with inbox := rest }
    let w := redWindow (s.die p) b.job
    (s.die p).run = .active → (s.die p).inbox = .bead h [] :: rest → hdrOk h = true →
    (s.die p).get ⟨redBase b.job, 15, 9⟩ = 127 →
    (noticeApplies (s.die p) b = true →
      (noticeOk h 3 = true → exec (.commitNotice p h) s = .next (s.ranAt p fun s =>
        let s' := s.modDie p fun d => applyCommit b.job (took d)
        match s.logicalOf p with
        | some l => committed l p b.job w s'
        | none => s')) ∧
      (noticeOk h 4 = true → exec (.repeatNotice p h) s = .next (s.ranAt p fun s =>
        let s' := s.modDie p fun d => applyRepeat b.job b.handle (took d)
        match s.logicalOf p with
        | some l => (s'.jobBindings l b.job).foldl (fun s x => inputRewind p w true x s) s'
        | none => s')) ∧
      (noticeOk h 5 = true → exec (.stopNotice p h) s = .next (s.ranAt p fun s =>
        stopJob b.job b.handle (s.modDie p fun d => applyStop b.job b.handle (took d))))) ∧
    (noticeApplies (s.die p) b = false →
      (noticeOk h 3 = true → exec (.commitNotice p h) s = .next (s.ran p fun d => (took d).count 0x90004 1)) ∧
      (noticeOk h 4 = true → exec (.repeatNotice p h) s = .next (s.ran p fun d => (took d).count 0x90004 1)) ∧
      (noticeOk h 5 = true → exec (.stopNotice p h) s = .next (s.ran p fun d => (took d).count 0x90004 1)))

/-- LEDGER_DONE in its three modes (R271): DONE of the current attempt tells the ledger and waits, of an older one
completes at once; WAITCTX completes on a COMPLETE context of its pair; RELEASE begins a sweep. Model's choices: log
29, 54. -/
def Obligations.LedgerDoneComplete : Prop :=
  ∀ (p : PDie) (t : ThreadId) (v : OpWord) (s : State) (m : Nat), m < 3 →
    let w := withMode 6 5 v m
    let d0 := s.die p
    let j := (d0.threadJob t).toNat
    let sc := ((d0.thread t).sreg (opField w.x 16 12)).toNat
    let ss := ((d0.thread t).sreg (opField w.x 41 37)).toNat
    let o (d : Die) : LongOp := { newOp d t 0x62 w .red with
      phase := .running, sval := (d.thread t).sreg (opField w.x 16 12), sval2 := (d.thread t).sreg (opField w.x 41 37) }
    let b := ctxBase (bitOf sc 11) (bitsOf sc 10 0)
    let att := bitsOf sc 19 12
    Passes d0 t 0x62 w [(41, 0)] → HasRoom d0 t 0x62 w →
    (m = 0 → sc = redAttempt d0 j →
      exec (.ledgerDoneDone p t v) s = .next (s.ran p fun d =>
        let d' := accept d t (o d)
        ledgerSend j 6 (redAttempt d' j) (redStep d' j) d')) ∧
    (m = 0 → sc < redAttempt d0 j →
      exec (.ledgerDoneDone p t v) s = .next (s.ran p fun d =>
        let d' := accept d t (o d)
        finishOp d.nextOp .ok (d'.modOp d.nextOp fun o => { o with
          result := some (BitVec.ofNat 5 (opField o.x 11 7),
            doneWord 1 (redAttempt d' j) (d'.get ⟨redBase j + 0x1C, 15, 8⟩)) }))) ∧
    (m = 1 → sc < 2 ^ 20 → bitsOf sc 10 0 < 1536 → ss < 2 ^ 48 →
      pairLt (redStep d0 j) (redAttempt d0 j) ss att = false →
      exec (.ledgerDoneWaitctx p t v) s = .next (s.ran p fun d => waitctxTry (o d) (accept d t (o d)))) ∧
    (m = 2 → bitsOf sc 10 0 < 1536 → (ctxState d0 b = 3 ∨ ctxPoison d0 b = true) →
      exec (.ledgerDoneRelease p t v) s = .next (s.ran p fun d =>
        ctxWake b (setCtxState b 1 (accept d t (o d)))))
/-! ## Memory (10_memory.md) -/

/-- The rows of the memory controllers (R282 to R285, R290, R292, R294, R298, R299, R302): a permitted request enters,
a refused one is answered and recorded, the read that its channel serves next returns its data, queued writes that are
due drain, corrected halves are written back, the scrub and the refresh go on, a temperature sets its marks, and a traffic generator starts and ends. Model's
choices: log 18, 30, 54. -/
def Obligations.MemoryCommandsComplete : Prop :=
  ∀ (p : PDie) (mc : Bool) (ch : BitVec 2) (s : State),
    let d0 := s.die p
    let b := mcReg mc
    let o := tgReg mc ch.toNat
    d0.run = .active →
    (∀ r : McReq, mc = decide (2 ^ 34 ≤ r.addr.toNat) → mcOpen d0 mc = true → mcRoom d0 mc r = true →
      (regionChk d0 (mcReqOf r) r.addr.toNat (mcLen r) = none →
        exec (.mcRequest p r) s = .next (s.ran p fun d => mcGo mc (setMcSlots mc
          (mcSlots d mc ++ [⟨r, BitVec.ofNat 2 (mcChannel r.addr.toNat), false, d.rrc⟩]) d))) ∧
      (∀ st, regionChk d0 (mcReqOf r) r.addr.toNat (mcLen r) = some st →
        exec (.mcRequest p r) s = .next (s.ran p fun d =>
          let d' := regionRefused (mcReqOf r) r.addr.toNat st d
          { d' with mcOut := d'.mcOut ++ [(r.cls, st, [])] }))) ∧
    (∀ i q, (mcSlots d0 mc)[i]? = some q → q.req.write = false → mcServes d0 mc q.channel.toNat = true →
      drainDue d0 mc q.channel.toNat = false → nextRead d0 mc q.channel.toNat = some (q, i) →
      lpBad d0 q.req.addr.toNat (mcLen q.req) = [] →
      exec (.mcReadReturn p mc i) s = .next (s.ran p fun d =>
        let d' := openPageAt mc q.req.addr.toNat d
        let turn := tabSet (fun _ => false) d'.lastNeedle (4 * mcIx mc + q.channel.toNat) (isNeedle q)
        memGo mc (setMcSlots mc ((mcSlots d mc).eraseIdx i) { d' with
          lastNeedle := turn
          mcOut := d.mcOut ++
            [(q.req.cls, .ok, tabSlice zeroByte d.lpddr q.req.addr.toNat (mcLen q.req))] }))) ∧
    (mcServes d0 mc ch.toNat = true → drainDue d0 mc ch.toNat = true →
      exec (.writeBatchDrain p mc ch) s = .next (s.ran p fun d =>
        let q := (mcQueue d mc).filter fun q => decide (q.channel.toNat = ch.toNat)
        memGo mc (drainChannel mc ch.toNat (q.foldl (fun d q => openPageAt mc q.req.addr.toNat d) d)))) ∧
    (∀ h, channelIdle d0 mc (mcChannel (32 * h)) = true → tabGet (fun _ => none) d0.lpWb (mcIx mc) = some h → tabGet goodLp d0.lpMarks h = .single →
      exec (.mcEccWriteBack p mc) s = .next (s.ran p fun d =>
        { d with lpWb := tabSet (fun _ => none) d.lpWb (mcIx mc) none
                 lpMarks := tabSet goodLp d.lpMarks h .good })) ∧
    (∀ k, d0.flag (b + 4) 8 = true → tabGet (fun _ => 0) d0.scrubPos (mcIx mc) = k → k + 1 ≠ mcHalves →
      let h := (if mc then 2 ^ 29 else 0) + k
      channelIdle d0 mc (mcChannel (32 * h)) = true →
      exec (.patrolScrub p mc) s = .next (s.ran p fun d =>
        let d' := lpTouch d (h, tabGet goodLp d.lpMarks h)
        { d' with scrubPos := tabSet (fun _ => 0) d'.scrubPos (mcIx mc) (k + 1) })) ∧
    exec (.refresh p mc ch) s = .next (s.ran p id) ∧
    (∀ c : BitVec 8, c.toNat < 92 →
      exec (.tempReadout p mc c) s = .next (s.ran p fun d =>
        memGo mc (((d.put ⟨b, 15, 8⟩ c.toNat).put ⟨b, 2, 2⟩ 0).put ⟨b, 3, 3⟩ 0))) ∧
    (∀ c : BitVec 8, 95 ≤ c.toNat → c.toNat ≤ 100 → d0.flag b 2 = false →
      exec (.tempReadout p mc c) s = .next (s.ran p fun d =>
        memGo mc (((((d.put ⟨b, 15, 8⟩ c.toNat).put ⟨b, 2, 2⟩ 1).setFlag (b + 8) 1).event b).put ⟨b, 3, 3⟩ 0))) ∧
    (∀ v : BitVec 32, bitsOf v.toNat 2 0 ≤ 5 → bitsOf v.toNat 31 6 = 0 → bitOf v.toNat 4 = true →
      let ready (d : Die) : Die := (d.put ⟨o, 2, 0⟩ v.toNat).put ⟨o, 3, 3⟩ (bitsOf v.toNat 3 3)
      (s.formed p = false → tgBusy d0 mc ch.toNat = false → d0.reg (o + 4) + d0.reg (o + 8) ≤ 2 ^ 21 →
        exec (.tgStart p .mgmt mc ch v) s = .next (s.ran p fun d => ((ready d).put ⟨o, 5, 5⟩ 1).setReg (o + 0x24) 0)) ∧
      ((s.formed p = true ∨ tgBusy d0 mc ch.toNat = true) →
        exec (.tgStart p .mgmt mc ch v) s = .next (s.ran p fun d => ((ready d).setFlag (b + 8) 3).event b))) ∧
    (∀ ticks : BitVec 48, tgBusy d0 mc ch.toNat = true → d0.get ⟨o, 2, 0⟩ = 1 →
      exec (.tgPassDone p mc ch ticks) s = .next (s.ran p fun d =>
        let n := 30 * d.reg (o + 8)
        let d' := (tabulate n fun i => 30 * d.reg (o + 4) + i).foldl
          (fun d u => tgHalf mc ch.toNat true (2 * u + 1) (tgHalf mc ch.toNat true (2 * u) d))
          (d.setReg (o + 0x20) 0)
        let d' : Die := { d' with free := d'.free + n }
        memGo mc (((((d'.setReg48 (o + 0x10) (64 * n)).setReg48 (o + 0x18) ticks.toNat).put ⟨o, 5, 5⟩ 0).setFlag
          (b + 8) 2).event b)))

/-- The check of an access against the region table (R290), in its order: no valid entry that contains it gives
`MALFORMED`; a secure entry refuses a non-secure requester; an owned entry refuses another job, but not the host;
then the class, and the right to read or write, which accumulation needs neither of. A refusal moves no data; the
first is recorded with its address, and every one is counted. -/
def Obligations.RegionCheckOrder : Prop :=
  (∀ (d : Die) (r : Req) (a len : Nat),
    ((∀ k, k < 64 → regionHas d a len k = false) → regionChk d r a len = some .malformed) ∧
    (∀ k, k < 64 → regionHas d a len k = true → (∀ i, i < k → regionHas d a len i = false) →
      let hi := regionHi d k
      let other := r.cls ≠ .host ∧ bitOf hi 5 = false ∧ r.job ≠ 0 ∧ bitsOf hi 4 1 ≠ r.job
      let barred := bitOf hi (8 + classCode r.cls) = false ∨
        (r.cls ≠ .acc ∧ bitOf hi (if r.write then 7 else 6) = false)
      (r.secure = false → bitOf hi 0 = true → regionChk d r a len = some .worldViolation) ∧
      ((r.secure = true ∨ bitOf hi 0 = false) → (other ∨ barred) → regionChk d r a len = some .invalidState) ∧
      ((r.secure = true ∨ bitOf hi 0 = false) → ¬other → ¬barred → regionChk d r a len = none))) ∧
  (∀ (d : Die) (r : Req) (a : Nat) (st : Status), a < 2 ^ 35 →
    let d' := regionRefused r a st d
    d'.lpddr = d.lpddr ∧ d'.spd = d.spd ∧ d'.reg 0xC1208 = min (2 ^ 32 - 1) (d.reg 0xC1208 + 1) ∧
    (d.flag 0xC1200 31 = true → d'.reg 0xC1200 = d.reg 0xC1200 ∧ d'.reg 0xC1204 = d.reg 0xC1204) ∧
    (d.flag 0xC1200 31 = false → d'.get ⟨0xC1200, 7, 0⟩ = st.code ∧ d'.get ⟨0xC1200, 11, 8⟩ = classCode r.cls ∧
      d'.flag 0xC1200 31 = true ∧ 32 * d'.reg 0xC1204 ≤ a ∧ a < 32 * d'.reg 0xC1204 + 32))

/-- Storage of a die (R172, R281, R284): what is written to LPDDR or to the scratchpad is read back, every other byte
is unchanged, the list of bytes keeps its canonical form, and whole halves written carry valid check words. A write of
a requester of the device covers whole halves: it changes no byte past the end of its last one. Model's choices: log
52, 64. -/
def Obligations.StorageReadAfterWrite : Prop :=
  ∀ (d : Die) (r : Req) (client a : Nat) (bs : Bytes), Memory.wf d.lpddr = true → Memory.wf d.spd = true →
    let d1 := lpWrite a bs d
    let d2 := lpWritePart a bs d
    let d3 := spdWrite client a bs d
    let d4 := lpStore r a bs d
    Memory.wf d1.lpddr = true ∧ Memory.wf d2.lpddr = true ∧ Memory.wf d3.spd = true ∧
    (lpRead a bs.length d1).1 = bs ∧ (lpRead a bs.length d2).1 = bs ∧ (spdRead client a bs.length d3).1 = bs ∧
    (∀ x, (x < a ∨ a + bs.length ≤ x) →
      tabGet zeroByte d1.lpddr x = tabGet zeroByte d.lpddr x ∧
      tabGet zeroByte d2.lpddr x = tabGet zeroByte d.lpddr x ∧
      tabGet zeroByte d3.spd x = tabGet zeroByte d.spd x) ∧
    d1.spd = d.spd ∧ d2.spd = d.spd ∧ d3.lpddr = d.lpddr ∧
    (a % 32 = 0 → bs.length % 32 = 0 → tabWf goodLp d.lpMarks = true → lpBad d1 a bs.length = []) ∧
    Memory.wf d4.lpddr = true ∧ (lpRead a bs.length d4).1 = bs ∧ d4.spd = d.spd ∧
    (∀ x, (x < a ∨ a + roundUp bs.length 32 ≤ x) → tabGet zeroByte d4.lpddr x = tabGet zeroByte d.lpddr x) ∧
    (a % 32 = 0 → tabWf goodLp d.lpMarks = true → lpBad d4 a bs.length = [])
/-! ## Ports (11_wilkel.md) -/

/-- Packets received (R318 to R321, R325, R326, R328): a whole packet of the epoch has its `ACK` and its credits
applied; DATA in order is accepted, or discarded with every field of it where it contradicts its segment; DATA ahead is held, IDLE carries no more; REPLAY_REQ begins a replay; LANE_FAIL
changes the transmit lanes; LANE_ACK settles; RESUME, RESET and RESET_ACK bring the link back. A bad CRC is counted.
Model's choices: log 19 to 21, 54. -/
def Obligations.PortReceivesComplete : Prop :=
  ∀ (p : PDie) (pkt : Bytes) (s : State),
    let d0 := s.die p
    let type := ph pkt 27 26
    let code := pc pkt 7 0
    let heard (d : Die) : Die := applyCredit 3 (ph pkt 103 88) (applyCredit 2 (ph pkt 87 72)
      (applyCredit 1 (ph pkt 71 56) (applyCredit 0 (ph pkt 55 40) (applyAck (ph pkt 23 12) d))))
    d0.run = .active → wlkCarries d0 = true → 1 ≤ wlkState d0 → wlkState d0 ≤ 4 →
    (crcOk pkt = false → exec (.idleReceive p pkt) s = .next (s.ran p fun d => d.count 0xD0030 1)) ∧
    (crcOk pkt = true → pktBad pkt = true → exec (.dataReceive p pkt) s = .next (s.ran p fun d => d.count 0xD0034 1)) ∧
    (crcOk pkt = true → pktBad pkt = false →
      (ph pkt 111 104 = wlkEpoch d0 →
        (type = 1 → exec (.idleReceive p pkt) s = .next (s.ran p heard)) ∧
        (type = 0 → dataContradicts pkt d0 = true →
          exec (.dataReceive p pkt) s = .next (s.ran p fun d => gap (d.count 0xD0034 1))) ∧
        (type = 0 → wlkState d0 = 2 → ph pkt 11 0 = wlkNextRx d0 → dataContradicts pkt d0 = false →
          exec (.dataReceive p pkt) s = .next (s.ran p fun d =>
            let r := acceptData (dataOf pkt) (heard d)
            if r.1 then acceptHeld (r.2.wlk.held.length + 1) r.2 else r.2)) ∧
        (type = 0 → wlkState d0 = 2 → (∃ k, 1 ≤ k ∧ k ≤ 64 ∧ ph pkt 11 0 = (wlkNextRx d0 + k) % 4096) →
          (d0.wlk.held.any fun e => decide (e.1.seq = ph pkt 11 0)) = false →
          exec (.dataReceive p pkt) s = .next (s.ran p fun d =>
            modWlk (fun w => { w with held := w.held ++ [(dataOf pkt, d.rrc)] }) (heard d))) ∧
        (type = 2 → code = 3 → wlkState d0 = 2 →
          exec (.replayReq p pkt) s = .next (s.ran p fun d => startReplay (heard d))) ∧
        (type = 2 → code = 1 → wlkState d0 = 2 →
          let m := BitVec.ofNat 18 (pc pkt 25 8) ||| d0.wlk.txFailed
          laneCount m ≤ 10 →
          exec (.laneFail p pkt) s = .next (s.ran p fun d =>
            let d' := setTxLanes m (heard d)
            let d' := if wlkTxLanes d0 &&& m ≠ 0 then wlkEvent 0 d' else d'
            queueCtl 0x02 (wlkTxLanes d') 0 0 d')) ∧
        (type = 2 → code = 2 →
          let m := BitVec.ofNat 18 (pc pkt 25 8)
          exec (.laneAck p pkt) s = .next (s.ran p fun d =>
            let narrow := decide (laneCount m ≤ 8)
            let d' := if narrow && !d0.flag 0xD0000 6 then wlkEvent 1 (heard d) else heard d
            let d' := d'.put ⟨0xD0000, 6, 6⟩ (bit narrow)
            if m &&& d.wlk.unacked = 0 then modWlk (fun w => { w with unacked := 0 }) d' else d')) ∧
        (type = 2 → code = 4 → wlkState d0 = 3 →
          exec (.linkResume p pkt) s = .next (s.ran p fun d => tryResume (modWlk (fun w =>
            { w with farResume := some (ph pkt 111 104, pc pkt 43 32) }) (heard d))))) ∧
      (type = 2 → code = 5 → (wlkState d0 = 2 ∨ wlkState d0 = 3) →
        (wlkState d0 = 3 ∨ pc pkt 51 44 ≠ wlkEpoch d0 ∨ d0.wlk.history = false) →
        exec (.linkReset p pkt) s = .next (s.ran p fun d =>
          queueCtl 0x06 0 0 0 (freshLink (pc pkt 51 44) (modWlk (fun w => { w with ctl := [] }) d)))) ∧
      (type = 2 → code = 6 → wlkState d0 = 4 → ph pkt 111 104 = d0.wlk.proposed → d0.wlk.proposed ≠ wlkEpoch d0 →
        exec (.linkResetAck p pkt) s = .next (s.ran p fun d =>
          freshLink d.wlk.proposed (modWlk (fun w => { w with ctl := [] }) d))))

/-- The port's own events (R314, R316, R317, R319 to R326, R328, R330, R334): a replay, then a LINKCTL, then new data go
out, LANE_FAIL on every lane, and RESET again until it is answered; a port whose engine is dark sends nothing (R340); a
packet leaves its buffer and frees its credit; the timers, the lanes, training, the two controls and the failover.
Model's choices: log 9, 54. -/
def Obligations.PortEventsComplete : Prop :=
  ∀ (p : PDie) (s : State),
    let d0 := s.die p
    d0.run = .active → wlkCarries d0 = true →
    (s.darkDie p = true → exec (.linkTransmit p) s = .next s ∧ exec (.linkIdleTimer p) s = .next s) ∧
    (s.darkDie p = false →
    (∀ i q, wlkState d0 = 2 → d0.wlk.replay = some i → d0.wlk.cullet[i]? = some q →
      exec (.linkTransmit p) s = .next (s.ran p fun d => sendData q (modWlk (fun w =>
        { w with replay := if i + 1 < d.wlk.cullet.length then some (i + 1) else none }) d))) ∧
    (∀ b rest, 2 ≤ wlkState d0 → wlkState d0 ≤ 4 → d0.wlk.replay = none → d0.wlk.ctl = b :: rest →
      exec (.linkTransmit p) s = .next (s.ran p fun d =>
        let pkt := sealPkt (wlkNextTx d + 2 <<< 26 + hdrNow d) b
        let d' := modWlk (fun w => { w with ctl := rest }) d
        if natAt b 0 1 = 1 then sendEvery pkt d' else sendLine pkt d')) ∧
    (wlkState d0 = 4 → d0.wlk.replay = none → d0.wlk.ctl = [] →
      exec (.linkTransmit p) s = .next (s.ran p fun d =>
        sendLine (sealPkt (wlkNextTx d + 2 <<< 26 + hdrNow d) (ctlBody d 0x05 0 0 d.wlk.proposed)) d)) ∧
    (∀ v, wlkState d0 = 2 → d0.wlk.replay = none → d0.wlk.ctl = [] → d0.wlk.cullet.length < 2048 →
      ([1, 2, 3, 4].map fun k => (d0.wlk.lastVc + k) % 4).find? (vcReady d0) = some v →
      exec (.linkTransmit p) s = .next (s.ran p (sendNew v))) ∧
    (wlkState d0 = 2 → exec (.linkIdleTimer p) s = .next (s.ran p fun d =>
      modWlk (fun w => { w with busy := 0 }) (((List.range 18).filter fun i => !d.wlk.busy.getLsbD i).foldl (fun d' i =>
        sendOn i (sealPkt (wlkNextTx d + 1 <<< 26 + hdrNow d) []) d') d)))) ∧
    (∀ (v : BitVec 2) q rest sg, portRoom v.toNat d0 = true → tabGet (fun _ => []) d0.wlk.rx v.toNat = q :: rest →
      tabGet (fun _ => none) d0.wlk.seg v.toNat = some sg → q.unitsM1 + 1 < sg.left →
      exec (.vcBufferRelease p v) s = .next (s.ran p fun d =>
        let d' := modWlk (fun w => { w with rx := tabSet (fun _ => []) w.rx v.toNat rest }) d
        let d' := (d'.put ⟨0xD0084 + 8 * v.toNat, 15, 0⟩ (wlkCounter d v.toNat + 1)).put
          ⟨0xD0084 + 8 * v.toNat, 26, 16⟩ (wlkHeld d v.toNat - 1)
        modWlk (fun w => { w with seg := tabSet (fun _ => none) w.seg v.toNat (some { sg with
          bytes := sg.bytes ++ q.body.take (32 * (q.unitsM1 + 1)), left := sg.left - (q.unitsM1 + 1) }) }) d')) ∧
    (wlkState d0 = 2 →
      (d0.wlk.held ≠ [] → exec (.gapTimeout p) s = .next (s.ran p fun d =>
        askReplay (modWlk (fun w => { w with held := [] }) d))) ∧
      exec (.replayTimeout p) s = .next (s.ran p startReplay) ∧
      (∀ lane : Fin 18, exec (.laneLossOfLock p lane) s = .next (s.ran p
        (failRx (BitVec.ofNat 18 (2 ^ lane.val))))) ∧
      (d0.wlk.unacked ≠ 0 → exec (.laneFailRepeat p) s = .next (s.ran p fun d =>
        queueCtl 0x01 (wlkRxFailed d) 0 0 d)) ∧
      (d0.flag 0xD0004 1 = false → ∃ t, exec (.retrainReq p .mgmt) s = .next (s.ran p t) ∧
        ∀ d, wlkUp d = true → d.flag 0xD0004 1 = false → wlkState (t d) = 3 ∧ (t d).wlk.cullet = d.wlk.cullet ∧
          (t d).wlk.rx = d.wlk.rx ∧ wlkNextTx (t d) = wlkNextTx d ∧ wlkNextRx (t d) = wlkNextRx d)) ∧
    (∀ csym ucw, exec (.laneWindowEnd p csym ucw) s = .next (s.ran p fun d =>
      let d' := (List.range 18).foldl (fun d i =>
        (d.setReg (0xD0100 + 8 * i) (min (csym.getD i 0) (2 ^ 32 - 1))).count (0xD0104 + 8 * i) (ucw.getD i 0)) d
      failRx (laneMask ((List.range 18).filter fun i =>
        decide (d'.get ⟨0xD0024, 7, 0⟩ ≤ ucw.getD i 0) || decide (d'.get ⟨0xD0024, 31, 8⟩ ≤ csym.getD i 0))) d')) ∧
    (∀ (tx rx : BitVec 18) (rtt : BitVec 20), wlkState d0 = 1 → 8 ≤ laneCount tx → 8 ≤ laneCount rx →
      exec (.linkTrainingDone p tx rx rtt) s = .next (s.ran p fun d =>
        let d' := (d.put ⟨0xD0000, 5, 5⟩ 0).setReg 0xD0010 (~~~rx).toNat
        startReset (modWlk (fun w => { w with retrains := 0 })
          (setTxLanes (~~~tx) (modWlk (fun w => { w with rtt := rtt.toNat, unacked := 0 }) d'))))) ∧
    (wlkState d0 = 1 ∨ wlkState d0 = 3 → exec (.linkTrainingFail p) s = .next (s.ran p fun d =>
      let d' := modWlk (fun w => { w with retrains := d.wlk.retrains + 1, trained := false }) d
      if d.get ⟨0xD0004, 19, 16⟩ ≤ d.wlk.retrains + 1 then enterDown d' else d')) ∧
    (wlkState d0 = 5 → s.role (wlkPort d0) ≠ 0 → exec (.linkDownRetry p) s = .next (s.ran p fun d =>
      setWlkState 1 (modWlk (fun w => { w with retrains := 0 }) d))) ∧
    (∃ t, exec (.portDisable p .mgmt) s = .next (s.ran p t) ∧
      ∀ d, wlkState (t d) = 0 ∧ (t d).wlk.cullet = [] ∧ (t d).wlk.rx = [] ∧ (t d).wlk.tx = [] ∧
        (t d).reg 0xD000C = 0) ∧
    (∀ w, w ≠ .mgmt → exec (.portDisable p w) s = .next (s.ran p fun d => d.invalidWrite 0xD0000) ∧
      exec (.retrainReq p w) s = .next (s.ran p fun d => d.invalidWrite 0xD0000)) ∧
    (d0.flag 0xD0000 7 = false → exec (.relayFailover p true) s = .next (s.ran p fun d =>
      wlkEvent 5 ((d.put ⟨0xD0000, 4, 4⟩ 1).put ⟨0xD0000, 7, 7⟩ 1))) ∧
    (wlkState d0 ≠ 0 → wlkState d0 ≠ 5 → exec (.relayFailover p false) s = .next (s.ran p enterDown))

/-- Lanes in service (R325): sixteen, failed data lanes replaced by the lowest healthy spares, while the spares suffice and
the port is not narrow; else the eight lowest-numbered healthy lanes. No failed lane is in service. -/
def Obligations.LaneSparing : Prop :=
  ∀ (narrow : Bool) (failed : BitVec 18),
    let r := serviceLanes narrow failed
    let lostData := laneCount (failed &&& 0xFFFF)
    let spares := 2 - laneCount (failed &&& 0x30000)
    (r.2 &&& failed = 0) ∧
    (r.1 = true ↔ (narrow = true ∨ spares < lostData)) ∧
    (r.1 = false → laneCount r.2 = 16 ∧ (∀ i, i < 16 → failed.getLsbD i = false → r.2.getLsbD i = true)) ∧
    (r.1 = true → laneCount r.2 = min 8 (18 - laneCount failed) ∧
      ∀ i j, i < 18 → j < i → r.2.getLsbD i = true → failed.getLsbD j = false → r.2.getLsbD j = true)
/-! ## Laser sources (12_laser_sources.md) -/

/-- Laser bays and the light of the engines (R339, R340, R345 to R350): a module is checked, lit or refused, locks, is
read, written, released and lost; an engine darkens, probes and lights again. `EN` is the AND
of a bay's enable, of PRSNT# and of FAULT# high. Model's choices: log 2, 32, 58. -/
def Obligations.LaserCommandsComplete : Prop :=
  ∀ (k : BitVec 3) (s : State), s.pins.vddAon = true →
    let n := k.toNat
    (∀ v : ModuleView, s.flag (bayReg n) 3 = false →
      let seated := setBayBit n 3 true (s.setBay n { s.bay n with view := v, fault := v.fault })
      let t := if seated.bayWaits n then seated else setBayState n 1 seated
      (∀ st, moduleChk s.image (s.bay n).accepted (t.bayUsed n) v = some st → exec (.moduleInsert k v) s = .next
        (if t.bayWaits n then setBayCause n st t else setBayState n 2 (setBayCause n st t))) ∧
      (moduleChk s.image (s.bay n).accepted (t.bayUsed n) v = none →
        (t.bayChecks = false → exec (.moduleInsert k v) s = .next t) ∧
        (t.bayChecks = true → exec (.moduleInsert k v) s = .next
          (let b := t.bay n
           let u := (t.setReg (bayReg n + 4) (t.bayUsed n)).setBay n
             (if b.owner = some (moduleName v.eeprom) then b
              else { b with frac := 0, lit := 0, full := 0, writeFails := 0, owner := some (moduleName v.eeprom) })
           setpoint n 800 (setBayState n 3 (enableBay n true (lifeFlags n u))))))) ∧
    (s.bayState n = 3 → s.bayLit n = true → exec (.moduleLock k) s = .next
      (let t := (bayNeighbours n).foldl lowerBay (setBayState n 4 (setBayBit n 5 true s))
       if (bayNeighbours n).any (fun i => t.bayDark i) then raiseBay t n else t)) ∧
    (s.flag (bayReg n) 3 = true → (s.bayState n = 3 ∨ s.bayState n = 4) →
      let lost (t : State) : State :=
        let r := (wantPower n 0 (enableBay n false t)).draw
        engineFeeds ((n + 1) % 8) (engineFeeds n (raiseNeighbours n
          (setBayState n 6 (r.2.put ⟨bayReg n, 23, 16⟩ (r.1.toNat % 16)))))
      exec (.moduleLoss k .prsntRise) s = .next (lost (moduleLeaves n s)) ∧
      exec (.moduleLoss k .faultFall) s = .next (lost (gateBay n (s.setBay n { s.bay n with fault := true })))) ∧
    (∀ rs : List (BitVec 16 × BitVec 8), rs.length = 8 → (∀ i, i < 8 → i ≠ n → s.bayLit i = false) → s.bayLit n = true →
      ∃ r, rs[n]? = some r ∧ exec (.elsUsagePoll rs) s = .next (usageRead n r s)) ∧
    (s.bayLit n = true →
      exec (.elsUsageWrite k true) s = .next (writeUsage n s) ∧
      ((s.bay n).writeFails < 2 → exec (.elsUsageWrite k false) s = .next
        (s.setBay n { s.bay n with writeFails := (s.bay n).writeFails + 1 })) ∧
      ((s.bay n).writeFails = 2 → exec (.elsUsageWrite k false) s = .next
        (setBayBit n 9 true (s.setBay n { s.bay n with writeFails := 0 })))) ∧
    (∀ ok : Bool,
      let t := s.put ⟨0x20100, 2, 0⟩ n
      (releaseRefused n t = true → exec (.elsReleaseBay .mgmt ⟨k, ok⟩) s = .next t) ∧
      (releaseRefused n t = false → exec (.elsReleaseBay .mgmt ⟨k, ok⟩) s = .next
        (setBayState n 5 (enableBay n false (setpoint n 0 (endUsage n ok (raiseNeighbours n t))))))) ∧
    (∀ w ok, w ≠ .mgmt → exec (.elsReleaseBay w ⟨k, ok⟩) s = .next s.invalidWrite) ∧
    ((s.engine n).on = true → exec (.engineLightLoss k) s = .next (s.setEngine n { s.engine n with dark := true })) ∧
    ((s.engine n).on = true → (s.engine n).dark = true → s.engineFed n = true →
      exec (.engineProbe k) s = .next (s.output (.probe n))) ∧
    (s.engineFed n = true →
      exec (.receivedLightReturn k) s = .next (s.setEngine n { s.engine n with dark := false })) ∧
    (let t := gateBay n s
     (t.bayLit n = true ↔ ((s.bay n).enable = true ∧ s.flag (bayReg n) 3 = true ∧ (s.bay n).fault = false)) ∧
     (t.flag (bayReg n) 5 = true → t.bayLit n = true) ∧
     (∀ i, i < 8 → i ≠ n → t.reg (bayReg i) = s.reg (bayReg i)) ∧ t = { s with punty := t.punty })
/-! ## The host interface (13_host.md) -/

/-- The end of a command (R368, R369, R371): it is no longer in progress, its completion joins those of its queue, and
its result goes to host memory. The bytes of a completion entry (R369): two posted writes, bytes 4 to 31 before the 4
bytes of the index, then the interrupt where the command asks for one and the ring has a vector. Model's choices: log
59. -/
def Obligations.CommandCompletes : Prop :=
  (∀ (c : Cmd) (st : Status) (bs : Bytes) (extra : BitVec 64) (s : State), c.slot = none →
    let t := finish c st bs extra s
    t.cmds = s.cmds.filter (fun x => decide (x.id ≠ c.id)) ∧ t.dies = s.dies ∧ t.jobs = s.jobs ∧
    t.crucible = s.crucible ∧
    (c.boot = true → t.reg 0x2C = st.code ∧ t.fns = s.fns ∧ t.outputs = s.outputs) ∧
    (c.boot = false → t.punty = s.punty) ∧
    (c.boot = false → s.current c = true →
      t.outputs = s.outputs ++ (if bs = [] then [] else [.hostWrite c.fn c.result bs true]) ∧
      tabGet (fun _ => []) (t.fn c.fn).finished c.queue.toNat =
        tabGet (fun _ => []) (s.fn c.fn).finished c.queue.toNat ++
          [⟨c.cookie, c.opcode, st, c.irq, bs.length, extra, .none, c.attach, false, none⟩]) ∧
    (c.boot = false → s.current c = false → t.outputs = s.outputs)) ∧
  (∀ (f : FnId) (q : Nat) (x : Finished) (s : State), q < 4 →
    let y := s.fn f
    let at_ := (y.ring (4 + q)).base + y.devIdx (4 + q) % y.ringSize (4 + q) * 32
    let seq := (y.devIdx (4 + q) + 1) % 2 ^ 32
    let t := writeCpl f q x s
    (t.fn f).devIdx (4 + q) = seq ∧
    ∃ tail, tail.length = 28 ∧ natAt tail 0 2 = x.opcode % 65536 ∧ natAt tail 2 1 = x.status.code ∧ natAt tail 3 1 = q ∧
      natAt tail 4 8 = x.cookie.toNat ∧ natAt tail 12 4 = x.bytes % 2 ^ 32 ∧ natAt tail 20 8 = x.extra.toNat ∧
      t.outputs = s.outputs ++ [.hostWrite f (at_ + 4) tail false, .hostWrite f at_ (leBytes 4 seq) false] ++
        (match (y.ring (4 + q)).vector with
          | some v => if x.irq then [.msix f v] else []
          | none => []))

/-- DOORBELL, COMMAND_FETCH, COMPLETION_POST, HOST_READ_TIMEOUT, NOP, FENCE, COPY_IN and COPY_OUT (R354, R364, R367 to
R370, R372). Model's choices: log 42, 51, 59. -/
def Obligations.HostCommandsComplete : Prop :=
  ∀ (f : FnId) (q : BitVec 2) (s : State), s.hostOpen = true →
    (∀ (r : BitVec 4) (idx : BitVec 32),
      (((s.fn f).ringState r.toNat = 1 ∧ doorbellBad (s.fn f) r.toNat idx.toNat = true) →
        exec (.doorbell f r idx) s = .next (s.modFn f fun x => x.ringError r.toNat .malformed)) ∧
      (((s.fn f).ringState r.toNat ≠ 1 ∨ doorbellBad (s.fn f) r.toNat idx.toNat = false) →
        exec (.doorbell f r idx) s = .next (s.modFn f fun x => x.setReg (0x40 * r.toNat) idx.toNat))) ∧
    (∀ (bs payload : Bytes) (read : Option Bytes),
      let e := entryOf bs
      let moved (s : State) : State := s.modFn f fun x =>
        (x.setReg (0x40 * q.toNat + 4) ((x.devIdx q.toNat + 1) % 2 ^ 32)).setReg (0x40 * q.toNat + 12)
          ((x.devIdx q.toNat + 1) % 2 ^ 32)
      (s.fn f).ringState q.toNat = 1 → (s.fn f).hostIdx q.toNat ≠ (s.fn f).devIdx q.toNat →
      fetchBlocked s f q.toNat = false → bs.length = 64 →
      (∀ st, formChk f e bs = some st → exec (.commandFetch f q bs read) s = .next
        (answer (cmdOf f q e [] s) st (moved { s with nextCmd := s.nextCmd + 1 }))) ∧
      (formChk f e bs = none → (e.partition < 8 → s.partState e.partition ≠ 2) →
        (payload.length = (if e.opcode = 3 then 0 else e.srcLen) →
          exec (.commandFetch f q bs (some payload)) s = .next (startCommand f q e payload (moved s))) ∧
        exec (.commandFetch f q bs none) s = .next
          (answer { cmdOf f q e [] s with begun := true } .timeout (moved { s with nextCmd := s.nextCmd + 1 })))) ∧
    (∀ x rest, tabGet (fun _ => []) (s.fn f).finished q.toNat = x :: rest →
      let popped := s.modFn f fun y => { y with finished := tabSet (fun _ => []) y.finished q.toNat rest }
      (x.attach = (s.fn f).attach → (s.fn f).ringState (4 + q.toNat) = 1 →
        idxDiff ((s.fn f).devIdx (4 + q.toNat)) ((s.fn f).hostIdx (4 + q.toNat)) < (s.fn f).ringSize (4 + q.toNat) →
        exec (.completionPost f q) s = .next (writeCpl f q.toNat x popped)) ∧
      (x.attach ≠ (s.fn f).attach → x.record = none → (s.fn f).records.length < 1024 →
        exec (.completionPost f q) s = .next (toRecord f q.toNat x popped)) ∧
      (x.attach ≠ (s.fn f).attach → x.record ≠ none → exec (.completionPost f q) s = .next popped)) ∧
    (∀ (c : CmdId) (x : Cmd), s.cmd? c = some x →
      (x.readsHost = true → exec (.hostReadTimeout c) s = .next (answer { x with begun := true } .timeout s)) ∧
      (x.opcode = 1 → exec (.nopCommand c) s = .next (answer x .ok s)) ∧
      (x.opcode = 2 → earlier x s = false → exec (.fenceCommand c) s = .next (answer x .ok s)) ∧
      (∀ data : Bytes, x.opcode = 3 → data.length = x.srcLen → s.current x = true →
        s.winServes x.fn (bitsOf x.imm.toNat 63 0) x.srcLen = true →
        exec (.copyIn c data) s = .next
          (let r := copyInUnits x.fn x.world (x.srcLen / 64) (bitsOf x.imm.toNat 63 0) data s
           answer x (r.2.1.getD .ok) r.2.2)) ∧
      (x.opcode = 4 → s.current x = true →
        s.winServes x.fn (bitsOf x.imm.toNat 63 0) x.resultLen = true → (∀ bs s', (copyOutUnits x.fn x.world (x.resultLen / 64)
          (bitsOf x.imm.toNat 63 0) s) = (bs, false, none, s') → s'.current x = true →
        exec (.copyOut c) s = .next (finish x .ok bs 0 s'))))

/-- BAR2_READ, BAR2_WRITE, DIAG_APERTURE_READ, TELEMETRY_SNAPSHOT, RESULT_RETURN, INPUT_DESCRIPTOR, INPUT_CONSUMED and
the rows that invalidate functions (R359 to R362, R374, R377, R378, R382). Model's choices: log 42, 59. -/
def Obligations.WindowInputComplete : Prop :=
  ∀ (f : FnId) (s : State), s.hostOpen = true → s.pins.rstReleased = true →
    (∀ (off : BitVec 36) (len p a : Nat) (s' : State), s.winServes f off.toNat len = true →
      winChk f off.toNat len (s.fnWorld f) false false s = (.ok (p, a), s') → lpBad (s.die p) a len = [] →
      exec (.bar2Read f off len) s = .next
        ((s.modDie p fun d => d).output (.hostRead f (tabSlice zeroByte (s.die p).lpddr a len)))) ∧
    (∀ (off : BitVec 36) (len : Nat) (st : Status) (s' : State), s.winServes f off.toNat len = true →
      winChk f off.toNat len (s.fnWorld f) false false s = (.error st, s') →
      exec (.bar2Read f off len) s = .next ((winRefused f s').output (.hostRead f (List.replicate len 0xFF)))) ∧
    (∀ (off : BitVec 36) (data : Bytes) (p a : Nat) (s' : State), s.winServes f off.toNat data.length = true →
      winChk f off.toNat data.length (s.fnWorld f) true false s = (.ok (p, a), s') →
      exec (.bar2Write f off data) s = .next (s.modDie p (lpWritePart a data))) ∧
    (∀ (off : BitVec 36) (data : Bytes) (st : Status) (s' : State), s.winServes f off.toNat data.length = true →
      winChk f off.toNat data.length (s.fnWorld f) true false s = (.error st, s') →
      exec (.bar2Write f off data) s = .next (winRefused f s')) ∧
    (∀ (p : PDie) (off : BitVec 19) (wide : Bool),
      let word (o : Nat) : Bytes := leBytes 4 (s.peek 0 p (65536 * (o / 32768) + o % 32768))
      exec (.diagApertureRead p ⟨off, wide⟩) s = .next (s.output (.hostRead 0
        (word off.toNat ++ (if wide then word (off.toNat + 4) else []))))) ∧
    (∃ t, exec .telemetrySnapshot s = .next t ∧ t = { s with fns := t.fns } ∧
      ∀ g : FnId, (t.fn g).regs = (s.fn g).regs ∧
        tabGet (fun _ => (0 : Word32)) (t.fn g).snap 0 = tabGet (fun _ => (0 : Word32)) (s.fn g).snap 0 + 2) ∧
    (∀ (hi : BitVec 32) (w : Window) (a : Nat),
      s.window f ((s.fn f).reg 0x1008 + hi.toNat * 2 ^ 32) = some (w, a) →
      (∃ k ∈ (s.fn f).slots, k.die = w.die ∧ k.off = a ∧ k.held = true) →
      exec (.resultReturn f hi) s = .next (s.modFn f fun x => { x with
        slots := x.slots.filter fun k => decide (k.die ≠ w.die) || decide (k.off ≠ a) })) ∧
    (∀ (i : BitVec 3) (desc data : Bytes) (x : Binding) (p : Nat),
      let key := (natAt desc 16 6, natAt desc 24 3)
      (s.fn f).ringState (8 + i.toNat) = 1 → (s.fn f).hostIdx (8 + i.toNat) ≠ (s.fn f).devIdx (8 + i.toNat) →
      s.binding.find? (fun x => decide (x.ring = some (f.val, i.toNat))) = some x →
      s.physOf x.die = some p →
      (x.slots ≤ idxDiff (inputCount (s.die p) x.b) (inputUsed (s.die p) x.b) →
        exec (.inputDescriptor f i desc data) s = .next s) ∧
      (idxDiff (inputCount (s.die p) x.b) (inputUsed (s.die p) x.b) < x.slots →
        (descBad x desc = true ∨ (∃ k, x.expect = some k ∧ k ≠ key) → exec (.inputDescriptor f i desc data) s = .next
          (s.modFn f fun y => y.ringError (8 + i.toNat) .malformed)) ∧
        (descBad x desc = false → x.expect = none ∨ x.expect = some key →
          (x.skip ≠ [] → exec (.inputDescriptor f i desc data) s = .next (skipInput f (8 + i.toNat) x key s)) ∧
          (x.skip = [] → ((x.wins.any fun w => decide (w.1 = key.1)) = true ∨ x.wins.length < 16) →
            data.length = natAt desc 8 4 →
            lpServes false (x.base + inputCount (s.die p) x.b % x.slots * x.slotBytes) x.slotBytes (s.die p) = true →
            exec (.inputDescriptor f i desc data) s = .next (stageInput f (8 + i.toNat) p x desc data s))))) ∧
    (∀ (p : PDie) (w : Writer) (b : BitVec 2) (v : BitVec 32), (s.die p).run = .active →
      exec (.inputConsumed p w b v) s = .next (s.ran p fun d =>
        dieWrite (decide (w = .mgmt)) (decide (w = .hostIf)) (s.formed p) (0x208 + 16 * b.toNat) v.toNat d)) ∧
    exec .hostLinkDown s = .next ((List.range 9).foldl (fun s g => invalidate g s) s) ∧
    exec (.functionLevelReset f) s = .next
      (if f = 0 then (List.range 9).foldl (fun s g => invalidate g s) s else invalidate f s) ∧
    exec (.busMasterDisable f) s = .next (invalidate f s)

/-- The operations of the mailbox (R358, R380, R381, R383, R456): each is carried out and answered. Model's choices:
log 45, 51, 58, 59. -/
def Obligations.MailboxComplete : Prop :=
  ∀ (f : FnId) (s : State),
    let x := s.fn f
    let r := bitsOf (x.arg 0) 3 0
    let a := x.arg 0
    s.reckoner = true → x.mbxBusy = true →
    (x.mbxOp = 1 → ringArgsBad f x = false →
      (r < 8 → x.ringState r = 0 → (r < 4 → x.ringState (4 + r) = 1) →
        exec (.registerRing f) s = .next (mbxAnswer f .ok [] (s.modFn f (startRing r)))) ∧
      (r < 8 → (x.ringState r ≠ 0 ∨ (r < 4 ∧ x.ringState (4 + r) ≠ 1)) →
        exec (.registerRing f) s = .next (mbxAnswer f .invalidState [] s)) ∧
      (∀ p, 8 ≤ r →
        let l := bitsOf (x.arg 3) 9 4
        let j := bitsOf (x.arg 3) 3 0
        let y := newBinding s f (r - 8) l (bitsOf (x.arg 3) 11 10) j (redWindow (s.die p) j) x
        let key := y.expect.getD (0, 0)
        fnDie s f l = true → x.ringState r = 0 →
        (∀ z, s.binding? l (bitsOf (x.arg 3) 11 10) = some z → z.ring = none) → s.physOf l = some p →
        regionChk (s.die p) ⟨.host, true, s.fnWorld f, 0⟩ y.base (y.slotBytes * y.slots) = none →
        exec (.registerRing f) s = .next (mbxAnswer f .ok [key.1 % 2 ^ 32, key.1 / 2 ^ 32, key.2]
          ((s.setBinding y).modFn f (startRing r)))) ∧
      (8 ≤ r → fnDie s f (bitsOf (x.arg 3) 9 4) = false →
        exec (.registerRing f) s = .next (mbxAnswer f .malformed [] s))) ∧
    (x.mbxOp = 2 → a < 16 → (a < 4 → queueBusy s f a = false) → (4 ≤ a → a < 8 → x.ringState (a - 4) = 0) →
      exec (.unregisterRing f) s = .next (mbxAnswer f .ok []
        (let s' := s.modFn f fun x => ({ x with rings := tabSet (fun _ => {}) x.rings a {} }).setReg (0x40 * a + 8) 0
         { s' with binding := s'.binding.map fun b =>
             if b.ring = some (f.val, a - 8) ∧ 8 ≤ a then { b with ring := none } else b }))) ∧
    (x.mbxOp = 3 → a < 2 ^ 18 → bitsOf a 5 0 < winEntries f → fnDie s f (bitsOf a 11 6) = true →
      exec (.mapWindow f) s = .next (mbxAnswer f .ok [] (s.modFn f fun x => { x with
        windows := tabSet (fun _ => none) x.windows (bitsOf a 5 0)
          (some ⟨bitsOf a 11 6, bitsOf a 16 12, bitOf a 17⟩) }))) ∧
    (x.mbxOp = 4 → a < winEntries f →
      exec (.unmapWindow f) s = .next (mbxAnswer f .ok [] (s.modFn f fun x => { x with
        windows := tabSet (fun _ => none) x.windows a none }))) ∧
    (∀ u, x.mbxOp = 5 → x.records[a]? = some u →
      exec (.queryUndelivered f) s = .next
        (mbxAnswer f .ok (tabulate 8 fun i => natAt (recordBytes u) (4 * i) 4) s)) ∧
    (∀ u bs, x.mbxOp = 6 → x.records.find? (fun u => decide (u.id = a)) = some u → x.inFlight a = false → u.fin.data = .bytes bs →
      bs ≠ [] → x.argAddr 1 ≠ 0 → x.argAddr 1 % 64 = 0 → x.ringState (4 + u.queue) = 1 →
      exec (.redeliver f) s = .next (mbxAnswer f .ok [] (complete f u.queue
        { u.fin with redelivered := true, attach := x.attach, data := .none, record := some u.id }
        (s.output (.hostWrite f (x.argAddr 1) bs true))))) ∧
    (x.mbxOp = 7 → (∃ u ∈ x.records, u.id = a) → x.inFlight a = false →
      exec (.discardUndelivered f) s = .next (mbxAnswer f .ok [] (freeRecord f a s))) ∧
    (x.mbxOp = 8 → f = 0 → a < 72 →
      exec (.readReg f) s = .next (mbxAnswer f .ok [s.peek 0 a (x.arg 1)] s)) ∧
    (x.mbxOp = 9 → f = 0 → a < 8 →
      exec (.elsRelease f) s = .next (let t := askRelease a (s.usageOk a) s; mbxAnswer f t.1 [] t.2)) ∧
    (let b := x.arg 1
     let c := x.arg 2
     let u := x.arg 3
     let w := x.arg 4
     x.mbxOp = 0x301 → a < 2 ^ 6 → r ≠ 0 → bitsOf b 15 12 = 0 → bitsOf b 31 28 = 0 → bitsOf c 15 0 ≠ 0 → u < 2 ^ 22 →
      bitsOf u 21 15 ≤ 64 → w < 2 ^ 12 → s.jobState r ≠ 0 → (f.val = 0 ∨ s.jobPart r + 1 = f.val) →
      exec (.recoverySet f) s = .next (mbxAnswer f .ok [] (writeRods r (setRecovery r (bitOf a 4) (bitOf a 5)
        (bitsOf b 11 0) (bitsOf b 27 16) (bitsOf c 15 0) (bitsOf c 31 16) (bitsOf u 14 0) (bitsOf u 21 15) w s))))

/-- A function that is invalidated (R382): its rings and windows are gone, `ATTACH` has moved on, its bindings are open,
and what it holds in device memory stays. -/
def Obligations.InvalidateClears : Prop :=
  ∀ (f : Nat) (s : State), f < 9 →
    let t := invalidate f s
    (∀ r, r < 16 → (t.fn f).ringState r = 0 ∧ (t.fn f).ring r = {}) ∧
    (t.fn f).windows = [] ∧ (t.fn f).attach = ((s.fn f).attach + 1) % 65536 ∧
    (t.fn f).slots = (s.fn f).slots ∧ (t.fn f).records = (s.fn f).records ∧
    (t.fn f).finished = (s.fn f).finished ∧
    (∀ g, g ≠ f → t.fn g = s.fn g) ∧ (∀ b ∈ t.binding, ∀ i, b.ring ≠ some (f, i)) ∧
    t = { s with fns := t.fns, binding := t.binding }
/-! ## The Crucible (14_crucible.md) -/

/-- Commands that the Crucible has checked (R291, R346, R390, R396, R405 to R408): an assignment of worlds, a rotation
of keys, a debug level, the three attestation commands, a region table and the acceptance of a module. Model's
choices: log 6, 43, 67. -/
def Obligations.CrucibleCommandsComplete : Prop :=
  ∀ (c : CmdId) (x : Cmd) (s : State), s.cmd? c = some x →
    (x.opcode = 0x0203 → worldsOk x.payload = true →
      (worldsBusy (worldsOf x.payload) s = false →
        exec (.worldAssign c) s = .next (answer x .ok (applyWorlds (worldsOf x.payload) s))) ∧
      (worldsBusy (worldsOf x.payload) s = true →
        exec (.worldAssign c) s = .next (answer x .invalidState s))) ∧
    (let k := if natAt x.payload 0 1 = 0xFF then 8 else natAt x.payload 0 1
     let v := natAt x.payload 4 4
     x.opcode = 0x0206 → s.keyVer k < v →
      exec (.keyRotate c) s = .next (answer x .ok (let t := s.setReg (0x30020 + 4 * k) v
        { t with crucible := { t.crucible with
          streams := t.crucible.streams.filter fun e => decide (e.1 % 16 ≠ k) } }))) ∧
    (let level := natAt x.payload 0 1
     x.opcode = 0x0207 → natAt x.payload 8 16 = Config.deviceId.toNat → s.debugLevel ≤ level →
      (level = 0 ∨ (level = 1 ∧ s.worlds.dbg.getLsbD 0 = true) ∨ (level = 2 ∧ s.worlds.dbg.getLsbD 1 = true)) →
      (level = 2 → ∀ j, j < 16 → s.jobState j ≠ 2) →
      exec (.debugUnlock c) s = .next (answer x .ok
        ((if level = 2 ∧ s.debugLevel ≠ 2 then debugZero s else s).put ⟨0x30000, 3, 2⟩ level))) ∧
    (x.opcode = 0x0220 → s.crucible.attNext < s.crucible.attEnd →
      let i := s.crucible.attNext
      let report := attReport s x.payload i
      ∀ ok, exec (.attest c ok) s = .next (finish x .ok
        (report ++ xmssmtSign attSeeds.1 attSeeds.2.1 attSeeds.2.2 i report) 0
        (attShow { s with crucible := { s.crucible with attNext := i + 1 } }))) ∧
    (x.opcode = 0x0220 → s.crucible.attEnd ≤ s.crucible.attNext →
      exec (.attest c false) s = .next (answer x .resourceExhausted (s.put ⟨0x30004, 2, 2⟩ 1))) ∧
    (x.opcode = 0x0221 → exec (.attestPubkey c) s = .next (finish x .ok (le32 oidXmssmt ++
      xmssmtRoot attSeeds.1 attSeeds.2.2 ++ attSeeds.2.2 ++
      (match s.crucible.otp with
        | some o => sliceB o.1 0 68
        | none => leBytes 68 0)) 0 s)) ∧
    (x.opcode = 0x0222 →
      exec (.attestCert c) s = .next (finish x .ok (sliceB Config.factoryCertificate 0 2820) 0 s)) ∧
    (let l := natAt x.payload 0 1
     let t := tableOf (x.payload.drop 8)
     x.opcode = 0x0204 → tableOk t = true → (∀ q, s.rowPart (l / 8) = some q → ∀ j ∈ s.partJobs q, s.jobState j ≠ 2) →
      ∃ r : State, exec (.regionSet c) s = .next (answer x .ok r) ∧
        (∀ p, s.physOf l = some p → r.dies = (s.modDie p (setTable t)).dies) ∧
        (s.physOf l = none → r.dies = s.dies) ∧ r = { s with dies := r.dies, regions := r.regions }) ∧
    (x.opcode = 0x0205 → exec (.elsAccept c) s = .next (answer x .ok
      (elsAcceptModule (natAt x.payload 0 1) (natAt x.payload 2 2) (sliceB x.payload 4 16) s)))

/-- The Crucible's check of a critical command (R397, R398): it passes only with a whole packet, a key that is held, a
right tag, the session's nonce and a counter above the last of its stream, which it then becomes; a packet that fails
leaves every stream as it was. Model's choices: log 22, 50. -/
def Obligations.CriticalCheck : Prop :=
  ∀ (fp : FetchPoint) (pkt : Bytes) (s : State),
    let r := critChk fp pkt s
    let last (s : State) (i : Nat) : Nat := tabGet (fun _ => 0) s.crucible.streams i
    (r.1 = none → packetOk fp pkt = true ∧ natAt pkt 16 16 = s.nonce ∧
      ∃ k key, s.keyFor (natAt pkt 0 2) (natAt pkt 3 1) = some (k, key) ∧
        kmac256 key (sliceB pkt 0 48 ++ pkt.drop 64) 16 (ascii "TUZESHA-CMD") = sliceB pkt 48 16 ∧
        last s (16 * fp.index + k) < natAt pkt 8 8 ∧ last r.2 (16 * fp.index + k) = natAt pkt 8 8 ∧
        ∀ i, i ≠ 16 * fp.index + k → last r.2 i = last s i) ∧
    (r.1 ≠ none → r.2.crucible = s.crucible) ∧
    (r.1 = some .badTag → r.2.flag 0x30004 0 = true) ∧ (r.1 = some .counterReplay → r.2.flag 0x30004 1 = true) ∧
    (∀ i, last s i ≤ last r.2 i)
/-! ## Partitions and jobs (15_partitions.md) -/

/-- Commands of partitions and jobs in the states in which R413 to R428, R273 and R455 let them act. The limits of
jobs, the automatic evaluation and the exports (R419, R422, R428, R454). Model's choices: log 8, 46, 66. -/
def Obligations.JobsComplete : Prop :=
  (∀ (c : CmdId) (x : Cmd) (s : State), s.cmd? c = some x → x.begun = false → s.reckoner = true →
    s.partState x.partition ≠ 2 →
    let part := x.partition
    let imm := x.imm.toNat
    (let mask := bitsOf imm 7 0
     let mode := bitOf imm 8
     x.opcode = 0x0106 → s.partState part = 0 → (∀ n ∈ maskRows mask, s.rowPart n = none ∧ s.degraded n = false) →
      exec (.partitionForm c) s = .next (jobsGo (commandReset part (begin' x
        ((s.setReg (0x100 + 4 * part) (1 + mask <<< 8 + bit mode <<< 16)).modDies ((maskRows mask).flatMap rowPhys)
          fun d => if d.run = .active then { d with classes := mode } else d))))) ∧
    (x.opcode = 0x0107 → s.partState part ≠ 0 → s.partJobs part = [] →
      exec (.partitionDissolve c) s = .next (jobsGo (answer x .ok ((s.partRows part).foldl
        (fun s n => askSetpoint n (s.powerMv n) s)
        ((s.setReg (0x100 + 4 * part) 0).modDies ((s.partRows part).flatMap rowPhys)
          fun d => if d.run = .active then { d with classes := false } else d))))) ∧
    (∀ j, 0 < j → (s.jobState j ≠ 0 → s.jobPart j = part) →
      (∀ p m s', x.opcode = 0x0108 → x.immJob = j → s.jobState j = 0 → s.partState part = 1 →
        (s.partBound part).lookup (bitsOf imm 13 8) = some p → loadServes p (64 * bitsOf imm 44 16) s = true →
        readManifest p (64 * bitsOf imm 44 16) s = (some (m, false), s') → manifestChk s' part j m = none →
        exec (.jobLoad c) s = .next (jobsGo
          (let r := loadJob part (bitsOf imm 55 48) (bitOf imm 56) j (bitsOf imm 13 8) (64 * bitsOf imm 44 16) m s'
           answer x r.1 r.2))) ∧
      (x.opcode = 0x0101 → x.payloadJob = j → s.jobState j = 1 → ∀ s', launchClass j 0 (startJob j s) = (true, s') →
        exec (.jobStart c) s = .next (jobsGo (answer x .ok (s'.setJobState j 2)))) ∧
      (x.opcode = 0x0103 → x.payloadJob = j → s.jobState j = 2 →
        exec (.jobPause c) s = .next (jobsGo (answer x .ok ((s.setJobState j 3).modJobDies j
          fun d => d.put ⟨0x300 + 4 * j, 1, 1⟩ 1)))) ∧
      (x.opcode = 0x0104 → x.payloadJob = j → s.jobState j = 3 → (s.job j).stopPause = false →
        exec (.jobResume c) s = .next (jobsGo (answer x .ok ((s.setJobState j 2).modJobDies j
          fun d => d.put ⟨0x300 + 4 * j, 1, 1⟩ 0)))) ∧
      (x.opcode = 0x0102 → x.payloadJob = j → natAt x.payload 1 1 = 0 → (s.jobState j = 2 ∨ s.jobState j = 3) →
        exec (.jobStopDrain c) s = .next (jobsGo (begin' x ((((s.modJobDies j fun d =>
          d.put ⟨0x300 + 4 * j, 1, 1⟩ 0).modJobDies j fun d => d.put ⟨0x300 + 4 * j, 0, 0⟩ 1).modJob j
            fun i => { i with limitMs := natAt x.payload 4 4, stopPause := false }).setJobState j 4)))) ∧
      (x.opcode = 0x0102 → x.payloadJob = j → natAt x.payload 1 1 = 1 → 2 ≤ s.jobState j → s.jobState j ≤ 5 →
        (∀ i ∈ s.partJobs part, i ≠ j → s.jobState i < 2 ∨ 4 < s.jobState i) →
        exec (.jobStopAbort c) s = .next (jobsGo (commandReset part (begin' x s)))) ∧
      (x.opcode = 0x010A → x.immJob = j → 1 ≤ s.jobState j → s.jobState j ≤ 5 →
        exec (.jobShare c) s = .next (jobsGo (answer x .ok
          ((s.put ⟨jobReg j, 15, 7⟩ (bit (bitOf imm 16) + bitsOf imm 15 8 <<< 1)).modJobDies j
            (setShare j (bitsOf imm 15 8) (bitOf imm 16)))))) ∧
      (x.opcode = 0x010D → x.immJob = j → s.jobState j ≤ 5 →
        exec (.jobQuery c) s = .next (jobsGo (finish x .ok [] (queryWord (s.reg (jobReg j))) s))) ∧
      (x.opcode = 0x0109 → x.immJob = j → s.jobState j = 1 → ∀ s', launchClass j 3 s = (true, s') →
        exec (.jobUnload c) s = .next (jobsGo (begin' x s'))) ∧
      (x.opcode = 0x010B → x.immJob = j → s.jobState j = 2 → (s.job j).eval = none →
        isParison s j (bitsOf imm 15 8) = true → ∀ s', startEval j (bitsOf imm 15 8) s = (true, s') →
        exec (.evalRun c) s = .next (jobsGo (begin' x (s'.modJob j fun i =>
          { i with eval := some ⟨bitsOf imm 15 8, some c, 0⟩ })))) ∧
      (x.opcode = 0x010C → x.immJob = j → s.jobState j = 2 →
        (s.cmds.filter fun y => decide (y.opcode = 0x010C) && y.begun && decide (y.immJob = j)).length < 256 →
        (kernelEntry (s.manifest j) (bitsOf imm 15 8)).isSome = true →
        exec (.kernelSubmit c) s = .next (jobsGo (placeKernel x (s.modCmd c fun y =>
          { y with begun := true, die := 0x7F })))) ∧
      (let gen := natAt x.payload 4 2
       let step := natAt x.payload 8 6
       let es := tabulate (natAt x.payload 2 2) fun i => sliceB x.payload (32 + 16 * i) 16
       x.opcode = 0x0105 → x.payloadJob = j → (s.jobState j = 2 ∨ s.jobState j = 3) →
        (∀ e ∈ s.jobDies j, (s.die e.2).flag (redBase j + 16) 24 = false ∧ redGen (s.die e.2) j ≠ gen ∧
          redStep (s.die e.2) j < step + redN (s.die e.2) j) → (∀ e ∈ es, reshardOk s j e = true) →
        bitOf (natAt x.payload 1 1) 0 = false →
        exec (.reshard c) s = .next (answer x .ok ((es.foldl (reshardWrite gen) s).modJobDies j
          (setPending j gen step)))) ∧
      (∀ objects, x.opcode = 0x0301 → x.payloadJob = j → (s.jobState j = 1 ∨ s.jobState j = 3 ∨ s.jobState j = 5) →
        (s.job j).restoring = 0 →
        exec (.restore c objects) s = .next (jobsGo
          (if natAt x.payload 1 1 = 1 then restoreStore x j objects s else restoreReplica x j s))))) ∧
  (∀ (j : BitVec 4) (c : CmdId) (s : State),
    let n := j.toNat
    (s.reckoner = true → s.jobState n = 4 → (s.job n).limitMs ≠ 0 → s.partState (s.jobPart n) = 1 →
      exec (.jobDrainTimeout j) s = .next (jobsGo (commandReset (s.jobPart n)
        (endCmds (isDrain n) .timeout (s.setJobCause n .timeout))))) ∧
    (∀ x, s.cmds.filter (isUnload n) = [x] → exec (.teardownTimeout j) s = .next (answer x .timeout s)) ∧
    (∀ w s', s.reckoner = true → (s.job n).evalWait = some w →
      let t := evalPinGo n s
      let v := (w + 1) % 256
      (∀ k ∈ stageKeys t n, k ∈ (t.job n).evalPins) → (t.job n).evalWait = some w → t.jobState n = 2 →
      (t.job n).eval = none → startEval n v t = (true, s') →
      exec (.autoEval j) s = .next (s'.modJob n fun i => { i with eval := some ⟨v, none, w⟩, evalWait := none })) ∧
    (∀ w, (s.job n).eval = none → (s.job n).evalWait = some w → 200 ≤ windowsSince s n w →
      exec (.autoEvalTimeout j) s = .next
        ((unpinEval n ((w + 1) % 256) s).setJobCause n .timeout)) ∧
    (∀ x p k, s.cmd? c = some x → x.opcode = 0x0302 → s.partState x.partition ≠ 2 → s.current x = true →
      s.physOf (bitsOf x.imm.toNat 9 4) = some p →
      pinnedSlot (s.die p) (bitsOf x.imm.toNat 11 10) (bitsOf x.imm.toNat 23 16) = some k →
      (let t := bitsOf x.imm.toNat 11 10
       let size := (s.die p).get ⟨verBase t + 4, 26, 15⟩ * 2 ^ 20
       let a := (s.die p).get ⟨verBase t + 4, 14, 0⟩ * 2 ^ 20 + k * size
       bitOf x.imm.toNat 24 = false → size ≤ x.resultLen → lehrServes [(a, size)] (s.die p) = true →
        (halvesOk (s.die p) ⟨.lehr, false, (s.die p).world, verJob (s.die p) t⟩ (halfCount a size)
          (32 * (a / 32))).2 = none →
        lpBad (s.die p) a size = [] →
        exec (.exportSlot c) s = .next
          (finish x .ok (tabSlice zeroByte (s.die p).lpddr a size) 0 (s.modDie p fun d => d))) ∧
      (∀ w bs, bitOf x.imm.toNat 24 = true → (s.die p).object = some (w, bs) →
        (w.toNat + 1) % 256 = bitsOf x.imm.toNat 23 16 → bs.length ≤ x.resultLen →
        exec (.exportObject c) s = .next (finish x .ok bs 0 s))))

/-! ## Recovery (16_recovery.md) -/

/-- Hang detection, resets and recovery (R438 to R456): what each trigger, reset, sparing and transfer does. Model's
choices: log 9, 44, 45, 57, 66. -/
def Obligations.RecoveryComplete : Prop :=
  ∀ (p : PDie) (q : BitVec 3) (s : State), s.reckoner = true →
    let part := q.toNat
    (∀ t, (s.die p).run = .active → (s.die p).clkLost = false → t ∈ (s.die p).threads → t.2.st ≠ .free →
      (let j := ((s.die p).threadJob (BitVec.ofNat 11 t.1)).toNat
       j ≠ 0 ∧ s.jobState j = 2 ∧ paused (s.die p) j = false) →
      exec (.watchdog p) s = .next (triggerDie 1 p (s.modDie p fun d =>
        { (d.setFlag 0x404 0).event 0x400 with wdogAt := d.wdogAt ++ [s.mgtclk.toNat] }))) ∧
    exec .reckonerKick s = .next s ∧ exec .reckonerWdog s = .next (deviceReset 8 0 none s) ∧
    (∀ late : BitVec 72, s.partState part = 2 → (∀ n ∈ s.partRows part, s.rowLost n = false) →
      exec (.partitionReset q late) s = .next
        (jobsGo (endReset part ((List.range 72).filter fun p => late.getLsbD p) s)) ∧
      exec (.escalation q) s = .next (deviceReset 7 part none s)) ∧
    (∀ c x, s.cmd? c = some x → x.opcode = 0x0303 →
      (x.begun = false → bitOf x.imm.toNat 8 = false → s.partState (bitsOf x.imm.toNat 2 0) = 1 →
        exec (.resetPartition c) s = .next (jobsGo (commandReset (bitsOf x.imm.toNat 2 0) (s.modCmd c fun y =>
          { y with begun := true, partition := bitsOf x.imm.toNat 2 0 })))) ∧
      (bitOf x.imm.toNat 8 = true →
        exec (.resetDevice c) s = .next (deviceReset 11 (bitsOf x.imm.toNat 2 0) none s))) ∧
    (p.val ∈ s.sparing →
      exec (.bindTimeout p) s = .next (deviceReset 10 ((s.rowPart (p / 9)).getD 0) (some p) s) ∧
      (∀ l r, s.logicalOf p = some l →
        let n := p.val / 9
        let s' : State := { s with sparing := s.sparing.filter fun x => decide (x ≠ p.val) }
        (s'.spareOf n = none → exec (.sparing p r) s = .next (putAside p (loseRow n s'))) ∧
        (∀ b, s'.spareOf n = some b →
          let aside := putAside p s'
          let t := dealTokens (writeRoutes (bindSpare l b
            ((powerOn .active (aside.currentMv n) b aside).modDie b (mcReady false))))
          exec (.sparing p true) s = .next (match t.rowPart n with
            | some q' => markFresh q' l t
            | none => t) ∧
          exec (.sparing p false) s = .next
            (dealTokens (putAside b (loseRow n { aside with retired := aside.retired ++ [b] })))))) ∧
    (s.partState part = 1 → (∀ x ∈ s.sparing, x ∉ s.partPhys part) →
      exec (.jobRecovery q) s = .next (jobsGo ((s.partJobs part).foldl recoverJob s))) ∧
    ((s.die p).run = .active →
      (∀ j : BitVec 4, s.jobState j.toNat = 5 →
        exec (.replicaRestore p j) s = .next (s.ranAt p (restoreFrom (s.partner j.toNat) p j.toNat))) ∧
      (∀ h rest, hdrOk h = true → isControl h 7 = true → (s.die p).inbox = .bead h [] :: rest →
        let b := beadOf h
        let took (d : Die) : Die := { d with inbox := rest }
        (lehrRequestOk h = false →
          exec (.lehrRequest p h) s = .next (s.ran p fun d => nakBead b .malformed (took d))) ∧
        (lehrRequestOk h = true → lehrReady s (s.die p) b = true →
          (lehrHolds s (s.die p) b = none →
            exec (.lehrRequest p h) s = .next (s.ran p fun d => nakBead b .unreachable (took d))) ∧
          (∀ cls job a n, lehrHolds s (s.die p) b = some (cls, job, a, n) →
            exec (.lehrRequest p h) s = .next (s.ranAt p fun s =>
              let r := lehrRead cls job a n ((s.modDie p took).die p)
              let s' := (s.modDie p took).setDie p r.2
              match r.1 with
              | .ok (bs, false) => queuePart p b.srcPkg b.srcDie b.srcRod b.job b.version false bs s'
              | _ => s'.modDie p (nakBead b .unreachable)))) ∧
        (∀ e, b.handle % 4 = 2 → (progEntries (s.manifest b.job) (s.die p).logical.toNat)[b.tag]? = some e →
          lehrHolds s (s.die p) b = some (.dma, 0, (progExtent e).1, (progExtent e).2)) ∧
        (∀ k, b.handle % 4 = 1 → b.handle / 4 ∈ jobStages (s.die p) b.job →
          liveSlot (s.die p) (b.handle / 4) b.version = some k →
          let w := (s.die p).reg (verBase (b.handle / 4) + 4)
          lehrHolds s (s.die p) b =
            some (.lehr, b.job, (bitsOf w 14 0 + k * bitsOf w 26 15) * 2 ^ 20, bitsOf w 26 15 * 2 ^ 20))) ∧
      (∀ b rest x more l, rodBeads (s.die p) ((s.die p).get ⟨0xE0000, 11, 0⟩) = b :: rest →
        (s.die p).lehrWant = x :: more → s.logicalOf p = some l →
        let n := (s.die p).get ⟨0xE0000, 11, 0⟩
        let j := (s.die p).lehrJob.toNat
        rodServes (s.die p) n b = true →
        (∀ bs, (rodPayload n b (s.die p)).1 = .ok bs →
          let y := { x with got := x.got ++ bs }
          let next (d : Die) : Die := { releaseBead n b rest (rodPayload n b d).2 with lehrWant := y :: more }
          (partWhole y = false → exec (.lehrPartReceive p) s = .next (s.ran p next)) ∧
          (partWhole y = true → lehrServes (partPlaces s l j y) (s.die p) = true →
            exec (.lehrPartReceive p) s = .next (s.ranAt p fun s => partGrown p l j y more (s.modDie p next)))) ∧
        (∀ st, (rodPayload n b (s.die p)).1 = .error st →
          exec (.lehrPartReceive p) s = .next (s.ranAt p fun s =>
            endParts p st (s.modDie p fun d => (rodPayload n b d).2)))) ∧
      (∀ w (v : BitVec 32), bitsOf v.toNat 30 22 = 0 →
        let put (op : Nat) (d : Die) : Die :=
          { (d.put ⟨0xE000C, 19, 0⟩ (bitsOf v.toNat 19 0)).put ⟨0xE000C, 21, 20⟩ op with lhrGo := true }
        exec (.capture p w v) s = .next (s.ran p (put 0)) ∧
        exec (.lehrRestore p w v) s = .next (s.ran p (put 1)) ∧
        exec (.shardReady p w v) s = .next (s.ran p (put 2))) ∧
      (∀ (j : BitVec 4) l, s.logicalOf p = some l → (s.die p).lehrSent = [] →
        ((s.die p).lehrOut.any fun o => o.journal) = false →
        exec (.parisonUnpin p j) s = .next (s.ranAt p fun s =>
          let mine (e : Nat × Nat × Bool) : Bool :=
            decide (e.1 / 4 = l) && e.2.2 && objectMade s (s.die p) j.toNat e.2.1
          (((s.job j.toNat).parisons.filter mine).foldl
            (fun s e => s.modDie p (pinStage false (e.1 % 4) ((e.2.1 + 1) % 256))) s).modJob j.toNat fun i =>
              { i with parisons := i.parisons.filter fun e => !mine e })) ∧
      (∀ v : BitVec 32, bitsOf v.toNat 30 24 = 0 → exec (.ledgerResume p .mgmt v) s = .next (s.ran p fun d =>
        let d' := d.put ⟨0xE0024, 23, 0⟩ (bitsOf v.toNat 23 0)
        let d' := d'.setReg48 0x92008 (d'.reg 0xE0020 + d'.get ⟨0xE0024, 15, 0⟩ <<< 32)
        let d' := (d'.put ⟨0x92004, 1, 0⟩ 1).put ⟨0x92004, 15, 8⟩ (d'.get ⟨0xE0024, 23, 16⟩)
        ldgDecide (1, 0x0A) (d'.put ⟨0x92000, 0, 0⟩ 1))))

/-- What a capture at a quiet die does once `GO` is set, and what a later restore brings back (R447, R448): the registers
of the record, each field as it can hold them (R4, R5). -/
def Obligations.CaptureRestores : Prop :=
  (∀ (p l win job : Nat) (s : State), lhrQuiet (s.die p) = true →
    (s.captures.filter fun c => decide (c.die = l) && decide (c.window ≠ win)).length < 8 →
    (lhrCapture p l win job s).capture? l win = some ⟨l, win, job, captureBytes win job (s.die p)⟩) ∧
  (∀ (win job : Nat) (d d' : Die), win < 2 ^ 48 → job < 16 →
    let r := restoreRegs (captureBytes win job d) d'
    (∀ e ∈ captureRegs, r.reg e.2 = captureWord e.2 (d'.reg e.2) (d.reg e.2)) ∧ (∀ o, (∀ e ∈ captureRegs, e.2 ≠ o) → r.reg o = d'.reg o) ∧
    r = { d' with regs := r.regs })
/-! ## Bring-up (03_bringup.md) -/

/-- Power-up and boot (R5, R56, R58, R64, R68, R71, R73, R75 to R82, R393): the pins, the stages of the boot, the boot
commands, and the autostart. Model's choices: log 35 to 41, 65, 66. -/
def Obligations.BootComplete : Prop :=
  ∀ (s : State),
    (∃ t, exec .vddAonApply s = .next t ∧ t.pins = { vddAon := true } ∧
      t.nor = (breakWrite s).nor ∧ ((∀ c ∈ s.cmds, c.opcode ≠ 0x0202) → t.nor = s.nor) ∧ t.crucible.otp = s.crucible.otp ∧
      t.dies = [] ∧ t.fns = [] ∧ t.cmds = [] ∧ t.boot = 0 ∧ t.pending = s.pending) ∧
    (s.pins.vddAon = true → s.pins.rstReleased = false → exec .sysRstRelease s = .next
      (coldStart { s with pins := { s.pins with pwrok := true, rstReleased := true } })) ∧
    (s.pins.rstReleased = true →
      exec .sysRstAssert s = .next (coldClear { s with pins := { s.pins with rstReleased := false } }) ∧
      (∃ t, exec .sysPwrokDeassert s = .next t ∧ t.pins.pwrok = false ∧ t.pins.rstReleased = false) ∧
      exec (.perst true) s = .next (invalidateAll { s with pins := { s.pins with perstReleased := false } })) ∧
    exec (.perst false) s = .next { s with pins := { s.pins with perstReleased := true } } ∧
    (∀ t, s.boot = 1 → imageChk s.crucible.otp (norImage s.nor) = none → takeKeys (norImage s.nor) true s = some t →
      exec .imageVerify s = .next ((keepImage (norImage s.nor) t).setBoot 3)) ∧
    (∀ st, s.boot = 1 → imageChk s.crucible.otp (norImage s.nor) = some st →
      exec .imageVerify s = .next (enterRecovery st s)) ∧
    (s.boot = 3 → ∀ (answered passed router : BitVec 72),
      let live (p : Nat) : Bool := answered.getLsbD p && !s.retired.contains p && !(s.die p).clkLost
      let fwd (p : Nat) : Bool := live p && router.getLsbD p && decide (s.dieMap p ≠ 2)
      ((fwd 3 || fwd 4 || fwd 5) = true → exec (.diesBoot answered passed router) s = .next ((writeRoutes
        ((List.range 8).foldl (bootRow (fun p => live p && passed.getLsbD p && router.getLsbD p) fwd) s)).setBoot 4)) ∧
      ((fwd 3 || fwd 4 || fwd 5) = false →
        exec (.diesBoot answered passed router) s = .next (halt .unreachable 3 s)) ∧
      (∀ p : PDie, exec (.dieAnswerTimeout p) s = .next
        { s with retired := (s.retired.filter fun x => decide (x ≠ p.val)) ++ [p.val] })) ∧
    (∀ (trained : BitVec 72) (readouts : Bytes), s.boot = 4 →
      (∀ p, p < 72 → (s.die p).run ≠ .off → trained.getLsbD p = true) →
      exec (.memoryBoot trained readouts) s = .next
        (let t := writeRoutes (s.modDies ((List.range 72).filter fun p => decide ((s.die p).run ≠ .off))
          (memoryUp readouts))
         if t.fwWaiting then ({ t with fwWaiting := false } : State).setBoot 6 else t.setBoot 5)) ∧
    (∀ (n : BitVec 3) (vendor device : BitVec 16) (caps : BitVec 3) (a b ra rb : Bool), s.boot = 4 ∨ s.boot = 5 →
      wlkCarries (s.die (portDies n.toNat).1) = false → wlkCarries (s.die (portDies n.toNat).2) = false →
      let e := sliceB (sectionBytes s.image 5) (8 * n.toNat) 8
      ((natAt e 0 2 = vendor.toNat ∧ natAt e 2 2 = device.toNat) →
        exec (.engineBringup n vendor device caps ⟨a, ra⟩ ⟨b, rb⟩) s = .next
          (engineUp n.toNat (bestRate (natAt e 4 1 &&& caps.toNat)) (a && (!ra || bitOf (natAt e 5 1) 0))
            (b && (!rb || bitOf (natAt e 5 1) 0)) s)) ∧
      ((natAt e 0 2 ≠ vendor.toNat ∨ natAt e 2 2 ≠ device.toNat) →
        exec (.engineBringup n vendor device caps ⟨a, ra⟩ ⟨b, rb⟩) s = .next
          ((s.put ⟨0x48, 4 * n.toNat + 3, 4 * n.toNat⟩ 0).setEngine n.toNat {}))) ∧
    (∀ pkt : Bytes, s.hostLink = true → s.flag 0x2C 8 = false →
      exec (.bootDoorbell none) s = .next (s.setReg 0x2C Status.timeout.code) ∧
      (natAt pkt 0 2 ≠ 0x0210 →
        (∀ st t, critChk .bootPage pkt s = (some st, t) →
          exec (.bootDoorbell (some pkt)) s = .next (t.setReg 0x2C st.code)) ∧
        (∀ t, critChk .bootPage pkt s = (none, t) → (natAt pkt 0 2 = 0x0201 ∨ natAt pkt 0 2 = 0x0202) →
          exec (.bootDoorbell (some pkt)) s = .next (let u := t.put ⟨0x2C, 8, 8⟩ 1
            { u with nextCmd := u.nextCmd + 1, cmds := u.cmds ++ [bootCmd pkt u] }))) ∧
      (natAt pkt 0 2 = 0x0210 →
        (packetOk .bootPage pkt = false → exec (.bootDoorbell (some pkt)) s = .next
          (s.setReg 0x2C Status.malformed.code)) ∧
        (packetOk .bootPage pkt = true → exec (.bootDoorbell (some pkt)) s = .next (let u := s.put ⟨0x2C, 8, 8⟩ 1
          { u with nextCmd := u.nextCmd + 1, cmds := u.cmds ++ [bootCmd pkt u] })))) ∧
    (∀ c img, s.bootCmd? 0x0201 = some c → 3 ≤ s.boot → s.boot ≤ 5 → s.flag 0 5 = false → img.length = c.srcLen →
      s.current c = true →
      (firmwareChk (sectionBytes s.image 8) img = none →
        exec (.firmwareLoad img) s = .next (answer c .ok (keepFirmware img s))) ∧
      (∀ st, firmwareChk (sectionBytes s.image 8) img = some st →
        exec (.firmwareLoad img) s = .next (answer c st s))) ∧
    (∀ c, s.bootCmd? 0x0210 = some c →
      (s.provisioned = false → exec .provision s = .next (coldStart (answer c .ok { s with crucible :=
        { s.crucible with otp := some (sliceB c.payload 0 68, sliceB c.payload 68 32) } }))) ∧
      (s.provisioned = true → exec .provision s = .next (answer c .invalidState s))) ∧
    (∀ c x img, s.cmd? c = some x → x.opcode = 0x0202 → (s.boot = 2 ∨ s.boot = 8) →
      img.length = natAt x.payload 8 4 → s.current x = true →
      let t : State := { s with nor := tabPut norFree (tabDrop s.nor 0 imageArea) 0 img }
      (∀ st, imageChk s.crucible.otp (norImage t.nor) = some st →
        exec (.imageWrite x.boot c img) s = .next (answer x st t)) ∧
      (imageChk s.crucible.otp (norImage t.nor) = none → exec (.imageWrite x.boot c img) s = .next
        (if s.boot = 2 then coldStart (answer x .ok t) else answer x .ok t))) ∧
    (s.boot = 6 → exec .fwStart s = .next (((List.range 8).foldl (fun t n =>
      let v := (t.row n).rail
      avsFrame (.avsRate n 5)
        (if t.powerMv n ≤ v ∨ raiseFits v (t.powerMv n) (s.bootPower n) (s.bootPower 8) t.budgetW then
          sendSetpoint n (t.powerMv n) t
        else showCurrent n v t)) (imagePower { s with free := s.free + 9 })).setBoot 7)) ∧
    (∀ views, s.boot = 7 → exec (.linksBoot views) s = .next
      ((List.range 8).foldl trainPort (if s.flag 0 4 then s else baysLinks views s))) ∧
    (s.boot = 7 → exec .ready s = .next
      (let t := dealTokens (s.setBoot 8)
       if s.flag 0 4 then afterWarm t else if t.hasAutostart then autostartBegin t else t)) ∧
    (s.autostart = true → s.boot = 8 →
      (∀ m bs objects, autostartPorts s = true → s.partState (natAt s.autoSec 3 1) ≠ 2 →
        autostartServes m s = true →
        (∀ mb t, autostartFetch m bs s = (some mb, t) →
          exec (.autostart m bs objects) s = .next (jobsGo (autostartLoad mb objects t))) ∧
        (∀ t, autostartFetch m bs s = (none, t) →
          exec (.autostart m bs objects) s = .next (autostartFails .unverified t))) ∧
      (autostartPorts s = false → exec .autostartPortTimeout s = .next (autostartFails .unreachable s))) ∧
    (∀ retrained a b, s.boot = 0xA → (∃ t, exec (.deviceReset retrained a b) s = .next t ∧ t.boot = 6 ∧
      t.autostart = false ∧ t.cmds = [] ∧ t.nor = s.nor ∧ t.image = s.image ∧ t.crucible.otp = s.crucible.otp)) ∧
    (∀ (p : PDie) w (off v : BitVec 32), (s.die p).run ≠ .off → w ≠ .host →
      exec (.registerWrite (.die p) w off v) s = .next (s.ranAt p fun s => keepRegions p off.toNat
        (s.modDie p (dieWrite (decide (w = .mgmt)) (decide (w = .hostIf)) (s.formed p) off.toNat v.toNat)))) ∧
    (∀ off v : BitVec 32, s.pins.rstReleased = true →
      exec (.registerWrite .punty .mgmt off v) s = .next (puntyWrite off.toNat v.toNat s)) ∧
    (∀ (f : FnId) (v : BitVec 32), s.hostOpen = true →
      exec (.registerWrite (.fn f) .host 0x1008 v) s = .next (s.modFn f fun x => x.setReg 0x1008 v.toNat))

/-- One-time storage is written once (R393): a command that leaves owner key and K_rec other than they were found them
unwritten; and only PROVISION does. -/
def Obligations.OneTimeStorage : Prop :=
  ∀ (i : Instr) (s t : State), exec i s = .next t → (t.crucible.otp = s.crucible.otp ∨
    (i = .provision ∧ s.crucible.otp = none))
/-! ## Power, pacing, temperature and clocks (02_package_power.md, 15_partitions.md) -/

/-- Power tokens, setpoints and buckets (R41, R424, R430 to R434). Rails, pacing, temperature and clocks (R41, R43,
R44, R49, R52, R94). Model's choices: log 7, 33, 34, 50, 60,
68. -/
def Obligations.PowerComplete : Prop :=
  (∀ (p : PDie) (row : BitVec 3) (s : State), s.reckoner = true → s.pins.vddAon = true →
    let n := row.toNat
    let d0 := s.die p
    let v := (s.row n).rail
    (∀ (mv : BitVec 10) pRow total, mvOk mv.toNat = true →
      (mv.toNat < v ∨ (mv.toNat ≠ v ∧ raiseFits v mv.toNat pRow total s.budgetW = true) →
        exec (.setpointChange row mv pRow total) s = .next
          (sendSetpoint n mv.toNat (s.put ⟨0x10010 + 4 * n, 9, 0⟩ mv.toNat))) ∧
      (mv.toNat = v ∨ (v ≤ mv.toNat ∧ raiseFits v mv.toNat pRow total s.budgetW = false) →
        exec (.setpointChange row mv pRow total) s = .next (s.put ⟨0x10010 + 4 * n, 9, 0⟩ mv.toNat))) ∧
    (∀ pRow total, v < s.requestedMv n → raiseFits v (s.requestedMv n) pRow total s.budgetW = true →
      exec (.setpointRaiseRetry row pRow total) s = .next (sendSetpoint n (s.requestedMv n) s) ∧
      (rowThrottled s n = false → exec (.throttleRecover row pRow total) s = .next
        (sendSetpoint n (s.requestedMv n) s))) ∧
    (rowThrottled s n = true → 550 < s.currentMv n → exec (.throttleSetpointLower row) s = .next
      (sendSetpoint n (max 550 (s.currentMv n - 25)) s)) ∧
    (throttled d0 = true →
      (d0.junction.toInt < 92 → exec (.throttleRemoval p) s = .next (s.modDie p fun d => d.put ⟨0xB0008, 4, 4⟩ 0)) ∧
      (92 ≤ d0.junction.toInt → exec (.throttleRemoval p) s = .next
        ((s.modDie p (setHolding (holding d0 - holding d0 / 8))).put ⟨0x10004, 21, 0⟩
          (s.get ⟨0x10004, 21, 0⟩ + holding d0 / 8)))) ∧
    (s.central = false → exec .tokenAudit s = .next (s.modDies s.tokenDies fun d => d.put ⟨0xB0008, 5, 5⟩ 1) ∧
      (let lack := 32 * s.budgetW - (s.tokenDies.map fun p => holding (s.die p)).sum
       let low := (s.running .active).foldl (fun m p => min m (budgetPace (s.die p))) 16
       let poor := (s.running .active).filter fun p => decide (budgetPace (s.die p) = low)
       let share := if poor.length = 0 then 0 else lack / poor.length
       exec .tokenAuditRead s = .next (((s.modDies poor fun d => setHolding (holding d + share) d).modDies s.tokenDies
         fun d => d.put ⟨0xB0008, 5, 5⟩ 0).put ⟨0x10004, 21, 0⟩ (lack - share * poor.length)))) ∧
    (s.central = true → exec .centralDivision s = .next
      ((fairShares ((s.running .active).length + 1)
        (32 * s.budgetW - 128 * (s.running .routeOnly).length)
        ((s.running .active).map fun p => (p, demand (s.die p)))).foldl (fun s e => s.modDie e.1 fun d =>
          setHolding (if throttled d then min (holding d) e.2 else e.2) d)
        (s.modDies (s.running .routeOnly) (setHolding 128)))) ∧
    (d0.run = .active →
      exec (.powerEstimate p) s = .next (askTokens p (s.modDie p dieEstimate)) ∧
      (d0.classes = false → exec (.bucketRefill p) s = .next (s.ran p dieBucketRefill)) ∧
      (∀ (src : PDie) h rest, hdrOk h = true → d0.inbox = .bead h [] :: rest →
        let took (d : Die) : Die := { d with inbox := rest }
        (isPowerRequest h = true →
          (powerOk h = false → exec (.powerRequest p src h) s = .next
            (s.modDie p fun d => nakBead (beadOf h) .malformed (took d))) ∧
          (powerOk h = true → frozen d0 = false → s.central = false → src.val ∈ neighbours p →
            let give := min (beadOf h).epoch (holding d0 - ceilDiv (estimate d0 * 17) 16)
            (give = 0 → exec (.powerRequest p src h) s = .next (s.modDie p took)) ∧
            (0 < give → (s.die src).run = .active → src ≠ p → ∃ t, exec (.powerRequest p src h) s = .next t ∧
              holding (t.die p) = holding d0 - give ∧ (t.die p).inbox = rest ∧
              (∃ f, (t.die src).inbox = (s.die src).inbox ++ [f]) ∧
              (∀ q, q ≠ p.val → q ≠ src.val → t.die q = s.die q)))) ∧
        (isPowerGrant h = true →
          (powerOk h = false → exec (.powerGrant p h) s = .next
            (s.modDie p fun d => nakBead (beadOf h) .malformed (took d))) ∧
          (powerOk h = true → exec (.powerGrant p h) s = .next
            (s.modDie p fun d => setHolding (holding d0 + (beadOf h).epoch) (took d))))))) ∧
  (∀ (p : PDie) (row : BitVec 3) (t : BitVec 8) (s : State), s.pins.vddAon = true →
    let n := row.toNat
    let sensed := s.modDie p fun d => { d with junction := t }
    let trip (s : State) : State := s.setRow n { s.row n with slew := (s.row n).slew.map fun x =>
      if x.old < (s.row n).rail then { x with tripped := true } else x }
    (∀ x, s.avsSent = some x →
      (s.avsFails < 2 → exec .avsFrameFail s = .next { s.output x with avsFails := s.avsFails + 1 }) ∧
      (2 ≤ s.avsFails → exec .avsFrameFail s = .next
        (repace (hwLimit 17 { s with avsFails := 0, avsSent := none, avsPaced := true })))) ∧
    (s.avsPaced = true → ∀ rail what,
      let s' := avsFrame (.avsRead rail.val what) s
      exec (.avsRetry ⟨rail, what, true⟩) s = .next (repace { s' with avsSent := none, avsPaced := false }) ∧
      exec (.avsRetry ⟨rail, what, false⟩) s = .next s') ∧
    (∀ uv, (865000 < uv → exec (.rowOverVoltage ⟨row, uv⟩) s = .next
        (repace (hwLimit n ((trip s).setRow n { (trip s).row n with ov := true })))) ∧
      (uv ≤ 865000 → exec (.rowOverVoltage ⟨row, uv⟩) s = .next s) ∧
      (uv < 855000 → exec (.overVoltageRelease ⟨row, uv⟩) s = .next (repace (s.setRow n { s.row n with ov := false })))) ∧
    (∀ ma, (520000 < ma → exec (.rowOverCurrent ⟨row, ma⟩) s = .next
        (hwLimit (8 + n) ((trip s).setRow n { (trip s).row n with ocOn := true }))) ∧
      (ma ≤ 520000 → exec (.rowOverCurrent ⟨row, ma⟩) s = .next s) ∧
      ((s.row n).ocOn = true →
        (ma < 500000 → exec (.paceLowerTick (.overCurrent row ma)) s = .next
          (s.setRow n { s.row n with ocOn := false })) ∧
        (500000 ≤ ma → exec (.paceLowerTick (.overCurrent row ma)) s = .next
          (repace (s.setRow n { s.row n with oc := max 1 ((s.row n).oc - 1) })))) ∧
      (ma < 480000 → exec (.paceRaiseTick (.overCurrent row ma)) s = .next
        (repace (s.setRow n { s.row n with oc := min 16 ((s.row n).oc + 1), ocOn := false })))) ∧
    (∀ imon sram,
      let w := ((List.range 8).map fun n => imon.getD n 0 * s.currentMv n).sum + sram * 800 + 550000000
      (∀ long, 3300000000 < w ∨ (long = true ∧ 3000000000 < w) →
        exec (.packageExcursion ⟨imon, sram, long⟩) s = .next
          (let s' := (List.range 8).foldl (fun s n => tripRaise n s) s
           repace (hwLimit 16 { s' with
             excOn := true, excPace := if 3300000000 < w then min s'.excPace 8 else s'.excPace }))) ∧
      (s.excOn = true →
        (w < 3000000000 → exec (.paceLowerTick (.excursion imon sram)) s = .next { s with excOn := false }) ∧
        (3000000000 ≤ w → exec (.paceLowerTick (.excursion imon sram)) s = .next
          (repace { s with excPace := max 1 (s.excPace - 1) }))) ∧
      (w < 2900000000 → exec (.paceRaiseTick (.excursion imon sram)) s = .next
        (repace { s with excPace := min 16 (s.excPace + 1), excOn := false }))) ∧
    ((s.die p).run = .active → exec (.issueRampStep p) s = .next (s.ran p fun d => { d with ramp := min 16 (d.ramp + 1) })) ∧
    (95 ≤ t.toInt → exec (.thermalThrottle p t) s = .next (sensed.modDie p fun d => d.put ⟨0xB0008, 4, 4⟩ 1)) ∧
    (100 ≤ t.toInt → exec (.thermalClamp p t) s = .next (sensed.modDie p fun d => { d with clamp := true })) ∧
    (t.toInt < 97 → exec (.thermalClampRelease p t) s = .next (sensed.modDie p fun d => { d with clamp := false })) ∧
    (110 ≤ t.toInt → (s.die p).run = .active → (s.die p).thermHalt = false →
      let halted := sensed.modDie p fun d =>
        { (d.setFlag 0x404 1).event 0x400 with thermHalt := true, haltAt := d.haltAt ++ [s.mgtclk.toNat] }
      exec (.thermalHalt p t) s = .next (triggerDie 3 p halted) ∧
      (115 ≤ t.toInt → exec (.thermtrip p t) s = .next ((triggerDie 3 p halted).put ⟨0x10100, 18, 18⟩ 1))) ∧
    (s.pins.rstReleased = true → exec .refclkLoss s = .next { invalidateAll s with refLost := true }) ∧
    exec (.clockRestored .refclk) s = .next { s with refLost := false } ∧
    (s.rowLost n = false → s.boot ≠ 3 → s.boot ≠ 4 → s.reckoner = false →
      exec (.rowclkLoss row) s = .next
        (({ s.setRow n { s.row n with clkLost := true } with clockEvents := s.clockEvents ++ [n] } : State).modDies
          (rowPhys n) fun d => if d.run = .off then { d with mcWrites := [], clkLost := true } else
            (({ d with mcWrites := [], clkLost := true } : Die).put ⟨0x70000, 1, 1⟩ 1).put ⟨0x80000, 1, 1⟩ 1)) ∧
    (∀ q, s.carrier n = some q → wlkCarries (s.die q) = true →
      exec (.leclkLoss row) s = .next (s.modDie q enterDown)) ∧
    (s.mgtLost = false → exec .mgtclkLoss s = .next { s with mgtLost := true, clockEvents := s.clockEvents ++ [8] }) ∧
    exec (.clockRestored .mgt) s = .next { s with mgtLost := false } ∧
    (s.rowLost n = true → exec (.clockRestored (.row row)) s = .next
      ((s.setRow n { s.row n with clkLost := false }).modDies (rowPhys n) fun d =>
        if d.run = .active then
          (({ d with clkLost := false } : Die).put ⟨0x70000, 1, 1⟩ 0).put ⟨0x80000, 1, 1⟩ 0
        else { d with clkLost := false })))

/-! ## The whole block -/

/-- A step runs the command at the front of the queue on the state with the queue's rest; on an empty queue the block
idles for one period of MGTCLK (the model's choice, log 1). -/
def Obligations.StepTakesFront : Prop :=
  ∀ (s : State), (∀ c rest, s.pending = c :: rest → step s = exec c { s with pending := rest }) ∧
    (s.pending = [] → ∃ t, step s = .next t ∧ t.mgtclk = s.mgtclk + 1 ∧ t.pending = [])

/-- The block before VDD_AON (R41, R45, R55, R83, R120, R193, R223, R334, R437): what the register tables give after
reset, and storage that holds nothing. Model's choices: log 3. -/
def Obligations.ResetValues : Prop :=
  State.reset.boot = 0 ∧ State.reset.pending = [] ∧ State.reset.pins = {} ∧ State.reset.nor = [] ∧
  State.reset.reg 0x10000 = 2450 * 16 ∧ State.reset.reg 0x10104 = 0xFFFFFFFF ∧ State.reset.reg 0x204 = 0x7F000 ∧
  State.reset.excPace = 16 ∧ (∀ n, (State.reset.row n).oc = 16) ∧
  (∀ p, p < 72 → (State.reset.die p).run = .off ∧ (State.reset.die p).phys = p ∧ State.reset.dieState p = 3 ∧
    (State.reset.die p).reg 0x10040 = 1 ∧ (State.reset.die p).reg 0x2000C = 1 ∧ (State.reset.die p).reg 0x50010 = 5000 ∧
    (State.reset.die p).reg 0xD0004 = 0x30800 ∧ (State.reset.die p).lpddr = [] ∧ (State.reset.die p).spd = [] ∧
    (∀ t, ((State.reset.die p).thread t).st = .free) ∧ (∀ n, n < 73 → (State.reset.die p).reg (0x50100 + 4 * n) = 7))

/-- The paces of the comparators (R44) stay between 1 and 16 slots, whatever a step does. Model's choices: log 33. -/
def Obligations.PacesStayInRange : Prop :=
  let inv (s : State) : Prop := (1 ≤ s.excPace ∧ s.excPace ≤ 16) ∧ ∀ n, 1 ≤ (s.row n).oc ∧ (s.row n).oc ≤ 16
  ∀ s t, inv s → step s = .next t → inv t

/-- No command touches the queue of those that wait (the model's own, log 1): with what a step takes from its front, the
queue alone says what runs. -/
def Obligations.QueueIsTheSenders : Prop :=
  ∀ (i : Instr) (s t : State), exec i s = .next t → t.pending = s.pending

/-- What follows a command at a die (Machine/Hook.lean) is nothing where nothing waits there: no op of the Lehr, no bead
of it, no parison, no transfer, no change of a record, no fault of a thread, and no job loaded. -/
def Obligations.QuietDieNothingFollows : Prop :=
  ∀ (p : Nat) (old : Die) (s : State), (s.die p).lhrGo = false → (s.die p).lehrOut = [] → old.lehrWant = [] →
    (s.die p).flag 0xE0010 0 = lehrBusy (s.die p) →
    (∀ j, (s.job j).parisons = []) → registryNow (s.die p) = registryNow old →
    (∀ j, redWords (s.die p) j = redWords old j) →
    (s.reckoner = false ∨ ((∀ j, s.jobState j = 0) ∧ newFaults old (s.die p) = [] ∧
      ueCount (s.die p) < (s.die p).patrol.2 + 16)) →
    afterDie p old s = s.modDie p fun d => d
end
end

