-- ==== Sys2Proof/Laws/Tab.lean ====
section
/-! SUPPORT. Sparse tables: every operation keeps the canonical form, and what a read after a write gives. -/

namespace Sys2Proof.Machine

variable {α : Type} [DecidableEq α] {d : Nat → α}

theorem tabWfFrom_mono {t : List (Nat × α)} {lo hi : Nat} (h : lo ≤ hi) (w : tabWfFrom d hi t = true) :
    tabWfFrom d lo t = true := by
  cases t with
  | nil => rfl
  | cons e t =>
    simp only [tabWfFrom, Bool.and_eq_true, decide_eq_true_eq] at w ⊢
    exact ⟨⟨by omega, w.1.2⟩, w.2⟩

theorem tabWfFrom_filter {t : List (Nat × α)} {lo : Nat} (p : Nat × α → Bool) (w : tabWfFrom d lo t = true) :
    tabWfFrom d lo (t.filter p) = true := by
  induction t generalizing lo with
  | nil => rfl
  | cons e t ih =>
    simp only [tabWfFrom, Bool.and_eq_true, decide_eq_true_eq] at w
    rw [List.filter_cons]
    split
    · simp only [tabWfFrom, Bool.and_eq_true, decide_eq_true_eq]
      exact ⟨w.1, ih w.2⟩
    · exact tabWfFrom_mono (by omega) (ih w.2)

/-- Two runs of entries join where the keys of the first stay below `m`. -/
theorem tabWfFrom_append {t u : List (Nat × α)} {lo m : Nat} (hlo : lo ≤ m) (w : tabWfFrom d lo t = true)
    (hm : ∀ e ∈ t, e.1 < m) (v : tabWfFrom d m u = true) : tabWfFrom d lo (t ++ u) = true := by
  induction t generalizing lo with
  | nil => exact tabWfFrom_mono hlo v
  | cons e t ih =>
    simp only [List.cons_append, tabWfFrom, Bool.and_eq_true, decide_eq_true_eq] at w ⊢
    have := hm e List.mem_cons_self
    exact ⟨w.1, ih (by omega) w.2 (fun x hx => hm x (List.mem_cons_of_mem _ hx))⟩

theorem tabRun_wf (k : Nat) (vs : List α) : tabWfFrom d k (tabRun d k vs) = true := by
  induction vs generalizing k with
  | nil => rfl
  | cons v vs ih =>
    rw [tabRun]
    split
    · exact tabWfFrom_mono (Nat.le_succ k) (ih (k + 1))
    · simp_all [tabWfFrom]

theorem tabRun_keys (k : Nat) (vs : List α) : ∀ e ∈ tabRun d k vs, k ≤ e.1 ∧ e.1 < k + vs.length := by
  induction vs generalizing k with
  | nil => simp [tabRun]
  | cons v vs ih =>
    intro e he
    rw [tabRun] at he
    have step : e ∈ tabRun d (k + 1) vs → k ≤ e.1 ∧ e.1 < k + (v :: vs).length := fun h => by
      have := ih (k + 1) e h
      simp only [List.length_cons]
      omega
    split at he
    · exact step he
    · rcases List.mem_cons.mp he with rfl | h
      · simp
      · exact step h

/-- Entries from key `m` on keep the form with every lower bound up to `m`. -/
theorem tabWfFrom_above {t : List (Nat × α)} {lo m : Nat} (w : tabWfFrom d lo t = true) (h : ∀ e ∈ t, m ≤ e.1) :
    tabWfFrom d m t = true := by
  cases t with
  | nil => rfl
  | cons e t =>
    simp only [tabWfFrom, Bool.and_eq_true, decide_eq_true_eq] at w ⊢
    exact ⟨⟨h e List.mem_cons_self, w.1.2⟩, w.2⟩

/-- A write keeps the canonical form. -/
theorem tabPut_wf {t : List (Nat × α)} (k : Nat) (vs : List α) (w : tabWf d t = true) :
    tabWf d (tabPut d t k vs) = true := by
  unfold tabWf at w ⊢
  refine tabWfFrom_append (Nat.zero_le k) (tabWfFrom_filter _ w) (by simp) ?_
  refine tabWfFrom_append (Nat.le_add_right k vs.length) (tabRun_wf k vs) (fun e he => (tabRun_keys k vs e he).2) ?_
  exact tabWfFrom_above (tabWfFrom_filter _ w) (by simp)

/-- So does the write of one value. -/
theorem tabSet_wf {t : List (Nat × α)} (k : Nat) (v : α) (w : tabWf d t = true) :
    tabWf d (tabSet d t k v) = true := tabPut_wf k [v] w

/-- So does putting a range of keys back. -/
theorem tabDrop_wf {t : List (Nat × α)} (lo hi : Nat) (w : tabWf d t = true) : tabWf d (tabDrop t lo hi) = true :=
  tabWfFrom_filter _ w

/-- A byte write to LPDDR keeps the canonical form. -/
theorem lpWrite_wf (a : Nat) (bs : Bytes) (x : Die) (w : Memory.wf x.lpddr = true) :
    Memory.wf (lpWrite a bs x).lpddr = true := tabPut_wf a bs w

/-! ## Reads after writes -/

omit [DecidableEq α] in
theorem lookup_filter {t : List (Nat × α)} (p : Nat → Bool) (k : Nat) :
    (t.filter (fun e => p e.1)).lookup k = if p k then t.lookup k else none := by
  induction t with
  | nil => simp
  | cons e t ih =>
    obtain ⟨a, v⟩ := e
    by_cases hk : k = a
    · subst hk
      by_cases hp : p k <;> simp [hp, ih]
    · have hk' : (k == a) = false := by simpa using hk
      by_cases hp : p a <;> simp [hp, List.lookup_cons, hk', ih]

theorem lookup_tabRun (k : Nat) (vs : List α) (i : Nat) :
    (tabRun d k vs).lookup i =
      if k ≤ i ∧ i < k + vs.length then (if vs[i - k]? = some (d i) then none else vs[i - k]?) else none := by
  induction vs generalizing k with
  | nil => simp [tabRun]
  | cons v vs ih =>
    rw [tabRun]
    by_cases hi : i = k
    · subst hi
      by_cases hv : v = d i
      · subst hv
        simp [ih]
      · simp [hv]
    · have hi' : (i == k) = false := by simpa using hi
      have main : (tabRun d (k + 1) vs).lookup i = if k ≤ i ∧ i < k + (v :: vs).length then
          (if (v :: vs)[i - k]? = some (d i) then none else (v :: vs)[i - k]?) else none := by
        rw [ih]
        by_cases h1 : k + 1 ≤ i ∧ i < k + 1 + vs.length
        · have h2 : k ≤ i ∧ i < k + (v :: vs).length := by
            simp only [List.length_cons]
            omega
          have h3 : i - k = (i - (k + 1)) + 1 := by omega
          rw [if_pos h1, if_pos h2, h3, List.getElem?_cons_succ]
        · have h2 : ¬(k ≤ i ∧ i < k + (v :: vs).length) := by
            simp only [List.length_cons]
            omega
          rw [if_neg h1, if_neg h2]
      split
      · exact main
      · rw [List.lookup_cons, hi']
        exact main

/-- What a key reads after a run of values has been written. -/
theorem tabGet_tabPut (t : List (Nat × α)) (k : Nat) (vs : List α) (i : Nat) :
    tabGet d (tabPut d t k vs) i = if k ≤ i ∧ i < k + vs.length then vs.getD (i - k) (d i) else tabGet d t i := by
  have e1 : (t.filter (fun e => decide (e.1 < k))).lookup i = if i < k then t.lookup i else none := by
    simpa using lookup_filter (t := t) (fun a => decide (a < k)) i
  have e2 : (t.filter (fun e => decide (k + vs.length ≤ e.1))).lookup i =
      if k + vs.length ≤ i then t.lookup i else none := by
    simpa using lookup_filter (t := t) (fun a => decide (k + vs.length ≤ a)) i
  unfold tabGet tabPut
  rw [List.lookup_append, List.lookup_append, e1, e2, lookup_tabRun]
  by_cases h : k ≤ i ∧ i < k + vs.length
  · have h1 : ¬i < k := by omega
    have h2 : ¬k + vs.length ≤ i := by omega
    have hlt : i - k < vs.length := by omega
    rw [if_pos h, if_neg h1, if_neg h2, if_pos h, List.getD_eq_getElem?_getD, List.getElem?_eq_getElem hlt]
    by_cases hv : vs[i - k] = d i <;> simp [hv]
  · rw [if_neg h, if_neg h]
    by_cases h1 : i < k
    · rw [if_pos h1, if_neg (by omega)]
      cases t.lookup i <;> simp
    · rw [if_neg h1, if_pos (by omega)]
      cases t.lookup i <;> simp

/-- A read of the key just written gives the value; every other key reads as before. -/
theorem tabGet_tabSet (t : List (Nat × α)) (k : Nat) (v : α) (i : Nat) :
    tabGet d (tabSet d t k v) i = if i = k then v else tabGet d t i := by
  rw [tabSet, tabGet_tabPut]
  by_cases h : i = k
  · subst h
    simp
  · rw [if_neg h, if_neg]
    simp only [List.length_singleton]
    omega

@[simp] theorem tabGet_tabSet_self (t : List (Nat × α)) (k : Nat) (v : α) : tabGet d (tabSet d t k v) k = v := by
  simp [tabGet_tabSet]

omit [DecidableEq α] in
/-- A key outside a dropped range reads as before, one inside its default. -/
theorem tabGet_tabDrop (t : List (Nat × α)) (lo hi i : Nat) :
    tabGet d (tabDrop t lo hi) i = if lo ≤ i ∧ i < hi then d i else tabGet d t i := by
  have e : (tabDrop t lo hi).lookup i = if i < lo ∨ hi ≤ i then t.lookup i else none := by
    simpa [tabDrop] using lookup_filter (t := t) (fun a => decide (a < lo) || decide (hi ≤ a)) i
  unfold tabGet
  rw [e]
  by_cases h : lo ≤ i ∧ i < hi
  · rw [if_pos h, if_neg (by omega)]
  · rw [if_neg h, if_pos (by omega)]

@[simp] theorem tabSlice_length {β : Type} (e : Nat → β) (t : List (Nat × β)) (k n : Nat) :
    (tabSlice e t k n).length = n := by
  induction n generalizing k with
  | zero => rfl
  | succ n ih => simp [tabSlice, ih]

/-- A slice cut short, and a slice that starts later. -/
theorem tabSlice_drop {β : Type} (e : Nat → β) (t : List (Nat × β)) (k n i : Nat) :
    (tabSlice e t k n).drop i = tabSlice e t (k + i) (n - i) := by
  induction i generalizing k n with
  | zero => simp
  | succ i ih =>
    cases n with
    | zero => simp [tabSlice]
    | succ n =>
      rw [tabSlice, List.drop_succ_cons, ih]
      congr 1 <;> omega

theorem tabSlice_take {β : Type} (e : Nat → β) (t : List (Nat × β)) (k n i : Nat) (h : i ≤ n) :
    (tabSlice e t k n).take i = tabSlice e t k i := by
  induction i generalizing k n with
  | zero => simp [tabSlice]
  | succ i ih =>
    cases n with
    | zero => omega
    | succ n => rw [tabSlice, List.take_succ_cons, ih _ _ (by omega), tabSlice]

/-- Bytes within a slice of a byte memory. -/
theorem sliceB_tabSlice (e : Nat → Byte) (t : List (Nat × Byte)) (k n o m : Nat) (h : o + m ≤ n) :
    sliceB (tabSlice e t k n) o m = tabSlice e t (k + o) m := by
  rw [sliceB, tabSlice_drop, tabSlice_take _ _ _ _ _ (by omega)]
  simp

end Sys2Proof.Machine
end

