-- ==== Sys2Proof/Laws/State.lean ====
section
/-! SUPPORT. What each named update of a thread, a die, a function and the block leaves as it was, field by field, and
what it makes of the field it writes. -/

namespace Sys2Proof.Machine


/-! ## `Thread.setS` -/

section
variable (th : Thread) (r : Nat) (v : Word64)

@[simp] theorem Thread.setS_st : (th.setS r v).st = th.st := rfl
@[simp] theorem Thread.setS_pc : (th.setS r v).pc = th.pc := rfl
@[simp] theorem Thread.setS_counts : (th.setS r v).counts = th.counts := rfl
@[simp] theorem Thread.setS_tokSt : (th.setS r v).tokSt = th.tokSt := rfl
@[simp] theorem Thread.setS_descA : (th.setS r v).descA = th.descA := rfl
@[simp] theorem Thread.setS_descB : (th.setS r v).descB = th.descB := rfl
@[simp] theorem Thread.setS_last : (th.setS r v).last = th.last := rfl
@[simp] theorem Thread.setS_hold : (th.setS r v).hold = th.hold := rfl

end

/-! ## `Thread.setCnt` -/

section
variable (th : Thread) (k : Nat) (v : BitVec 4)

@[simp] theorem Thread.setCnt_st : (th.setCnt k v).st = th.st := rfl
@[simp] theorem Thread.setCnt_pc : (th.setCnt k v).pc = th.pc := rfl
@[simp] theorem Thread.setCnt_s : (th.setCnt k v).s = th.s := rfl
@[simp] theorem Thread.setCnt_tokSt : (th.setCnt k v).tokSt = th.tokSt := rfl
@[simp] theorem Thread.setCnt_descA : (th.setCnt k v).descA = th.descA := rfl
@[simp] theorem Thread.setCnt_descB : (th.setCnt k v).descB = th.descB := rfl
@[simp] theorem Thread.setCnt_last : (th.setCnt k v).last = th.last := rfl
@[simp] theorem Thread.setCnt_hold : (th.setCnt k v).hold = th.hold := rfl

end

/-! ## `Thread.setTok` -/

section
variable (th : Thread) (k : Nat) (v : Status)

@[simp] theorem Thread.setTok_st : (th.setTok k v).st = th.st := rfl
@[simp] theorem Thread.setTok_pc : (th.setTok k v).pc = th.pc := rfl
@[simp] theorem Thread.setTok_s : (th.setTok k v).s = th.s := rfl
@[simp] theorem Thread.setTok_counts : (th.setTok k v).counts = th.counts := rfl
@[simp] theorem Thread.setTok_descA : (th.setTok k v).descA = th.descA := rfl
@[simp] theorem Thread.setTok_descB : (th.setTok k v).descB = th.descB := rfl
@[simp] theorem Thread.setTok_last : (th.setTok k v).last = th.last := rfl
@[simp] theorem Thread.setTok_hold : (th.setTok k v).hold = th.hold := rfl

end

/-! ## `Die.setReg` -/

section
variable (d : Die) (o v : Nat)

@[simp] theorem Die.setReg_phys : (d.setReg o v).phys = d.phys := rfl
@[simp] theorem Die.setReg_run : (d.setReg o v).run = d.run := rfl
@[simp] theorem Die.setReg_routerOk : (d.setReg o v).routerOk = d.routerOk := rfl
@[simp] theorem Die.setReg_pkg : (d.setReg o v).pkg = d.pkg := rfl
@[simp] theorem Die.setReg_logical : (d.setReg o v).logical = d.logical := rfl
@[simp] theorem Die.setReg_threads : (d.setReg o v).threads = d.threads := rfl
@[simp] theorem Die.setReg_lastIssued : (d.setReg o v).lastIssued = d.lastIssued := rfl
@[simp] theorem Die.setReg_ranges : (d.setReg o v).ranges = d.ranges := rfl
@[simp] theorem Die.setReg_classes : (d.setReg o v).classes = d.classes := rfl
@[simp] theorem Die.setReg_used : (d.setReg o v).used = d.used := rfl
@[simp] theorem Die.setReg_free : (d.setReg o v).free = d.free := rfl
@[simp] theorem Die.setReg_ops : (d.setReg o v).ops = d.ops := rfl
@[simp] theorem Die.setReg_nextOp : (d.setReg o v).nextOp = d.nextOp := rfl
@[simp] theorem Die.setReg_prog : (d.setReg o v).prog = d.prog := rfl
@[simp] theorem Die.setReg_progLoad : (d.setReg o v).progLoad = d.progLoad := rfl
@[simp] theorem Die.setReg_spd : (d.setReg o v).spd = d.spd := rfl
@[simp] theorem Die.setReg_spdMarks : (d.setReg o v).spdMarks = d.spdMarks := rfl
@[simp] theorem Die.setReg_spdWb : (d.setReg o v).spdWb = d.spdWb := rfl
@[simp] theorem Die.setReg_acc : (d.setReg o v).acc = d.acc := rfl
@[simp] theorem Die.setReg_accOut : (d.setReg o v).accOut = d.accOut := rfl
@[simp] theorem Die.setReg_vregs : (d.setReg o v).vregs = d.vregs := rfl
@[simp] theorem Die.setReg_rods : (d.setReg o v).rods = d.rods := rfl
@[simp] theorem Die.setReg_handles : (d.setReg o v).handles = d.handles := rfl
@[simp] theorem Die.setReg_ccWorld : (d.setReg o v).ccWorld = d.ccWorld := rfl
@[simp] theorem Die.setReg_rt : (d.setReg o v).rt = d.rt := rfl
@[simp] theorem Die.setReg_rtLane : (d.setReg o v).rtLane = d.rtLane := rfl
@[simp] theorem Die.setReg_rtLast : (d.setReg o v).rtLast = d.rtLast := rfl
@[simp] theorem Die.setReg_tree : (d.setReg o v).tree = d.tree := rfl
@[simp] theorem Die.setReg_cut : (d.setReg o v).cut = d.cut := rfl
@[simp] theorem Die.setReg_parts : (d.setReg o v).parts = d.parts := rfl
@[simp] theorem Die.setReg_inbox : (d.setReg o v).inbox = d.inbox := rfl
@[simp] theorem Die.setReg_held : (d.setReg o v).held = d.held := rfl
@[simp] theorem Die.setReg_lpddr : (d.setReg o v).lpddr = d.lpddr := rfl
@[simp] theorem Die.setReg_lpMarks : (d.setReg o v).lpMarks = d.lpMarks := rfl
@[simp] theorem Die.setReg_lpWb : (d.setReg o v).lpWb = d.lpWb := rfl
@[simp] theorem Die.setReg_mcReqs : (d.setReg o v).mcReqs = d.mcReqs := rfl
@[simp] theorem Die.setReg_mcWrites : (d.setReg o v).mcWrites = d.mcWrites := rfl
@[simp] theorem Die.setReg_mcOut : (d.setReg o v).mcOut = d.mcOut := rfl
@[simp] theorem Die.setReg_openPage : (d.setReg o v).openPage = d.openPage := rfl
@[simp] theorem Die.setReg_lastNeedle : (d.setReg o v).lastNeedle = d.lastNeedle := rfl
@[simp] theorem Die.setReg_ctxWait : (d.setReg o v).ctxWait = d.ctxWait := rfl
@[simp] theorem Die.setReg_ctxTold : (d.setReg o v).ctxTold = d.ctxTold := rfl
@[simp] theorem Die.setReg_scrubPos : (d.setReg o v).scrubPos = d.scrubPos := rfl
@[simp] theorem Die.setReg_wlk : (d.setReg o v).wlk = d.wlk := rfl
@[simp] theorem Die.setReg_ldgNotice : (d.setReg o v).ldgNotice = d.ldgNotice := rfl
@[simp] theorem Die.setReg_events : (d.setReg o v).events = d.events := rfl
@[simp] theorem Die.setReg_junction : (d.setReg o v).junction = d.junction := rfl
@[simp] theorem Die.setReg_thermHalt : (d.setReg o v).thermHalt = d.thermHalt := rfl
@[simp] theorem Die.setReg_clkLost : (d.setReg o v).clkLost = d.clkLost := rfl
@[simp] theorem Die.setReg_clamp : (d.setReg o v).clamp = d.clamp := rfl
@[simp] theorem Die.setReg_rowPace : (d.setReg o v).rowPace = d.rowPace := rfl
@[simp] theorem Die.setReg_ramp : (d.setReg o v).ramp = d.ramp := rfl
@[simp] theorem Die.setReg_admitted : (d.setReg o v).admitted = d.admitted := rfl
@[simp] theorem Die.setReg_stallFrom : (d.setReg o v).stallFrom = d.stallFrom := rfl
@[simp] theorem Die.setReg_swapsHeld : (d.setReg o v).swapsHeld = d.swapsHeld := rfl
@[simp] theorem Die.setReg_genWrites : (d.setReg o v).genWrites = d.genWrites := rfl
@[simp] theorem Die.setReg_lowEstimates : (d.setReg o v).lowEstimates = d.lowEstimates := rfl
@[simp] theorem Die.setReg_asked : (d.setReg o v).asked = d.asked := rfl
@[simp] theorem Die.setReg_estAt : (d.setReg o v).estAt = d.estAt := rfl
@[simp] theorem Die.setReg_seamFlits : (d.setReg o v).seamFlits = d.seamFlits := rfl
@[simp] theorem Die.setReg_wdogAt : (d.setReg o v).wdogAt = d.wdogAt := rfl
@[simp] theorem Die.setReg_haltAt : (d.setReg o v).haltAt = d.haltAt := rfl
@[simp] theorem Die.setReg_patrol : (d.setReg o v).patrol = d.patrol := rfl
@[simp] theorem Die.setReg_lehrWant : (d.setReg o v).lehrWant = d.lehrWant := rfl
@[simp] theorem Die.setReg_lehrJob : (d.setReg o v).lehrJob = d.lehrJob := rfl
@[simp] theorem Die.setReg_object : (d.setReg o v).object = d.object := rfl
@[simp] theorem Die.setReg_unsent : (d.setReg o v).unsent = d.unsent := rfl
@[simp] theorem Die.setReg_lhrGo : (d.setReg o v).lhrGo = d.lhrGo := rfl
@[simp] theorem Die.setReg_lehrOut : (d.setReg o v).lehrOut = d.lehrOut := rfl
@[simp] theorem Die.setReg_lehrSent : (d.setReg o v).lehrSent = d.lehrSent := rfl

end

/-! ## `Die.setThread` -/

section
variable (d : Die) (t : ThreadId) (th : Thread)

@[simp] theorem Die.setThread_phys : (d.setThread t th).phys = d.phys := rfl
@[simp] theorem Die.setThread_run : (d.setThread t th).run = d.run := rfl
@[simp] theorem Die.setThread_routerOk : (d.setThread t th).routerOk = d.routerOk := rfl
@[simp] theorem Die.setThread_pkg : (d.setThread t th).pkg = d.pkg := rfl
@[simp] theorem Die.setThread_logical : (d.setThread t th).logical = d.logical := rfl
@[simp] theorem Die.setThread_regs : (d.setThread t th).regs = d.regs := rfl
@[simp] theorem Die.setThread_lastIssued : (d.setThread t th).lastIssued = d.lastIssued := rfl
@[simp] theorem Die.setThread_ranges : (d.setThread t th).ranges = d.ranges := rfl
@[simp] theorem Die.setThread_classes : (d.setThread t th).classes = d.classes := rfl
@[simp] theorem Die.setThread_used : (d.setThread t th).used = d.used := rfl
@[simp] theorem Die.setThread_free : (d.setThread t th).free = d.free := rfl
@[simp] theorem Die.setThread_ops : (d.setThread t th).ops = d.ops := rfl
@[simp] theorem Die.setThread_nextOp : (d.setThread t th).nextOp = d.nextOp := rfl
@[simp] theorem Die.setThread_prog : (d.setThread t th).prog = d.prog := rfl
@[simp] theorem Die.setThread_progLoad : (d.setThread t th).progLoad = d.progLoad := rfl
@[simp] theorem Die.setThread_spd : (d.setThread t th).spd = d.spd := rfl
@[simp] theorem Die.setThread_spdMarks : (d.setThread t th).spdMarks = d.spdMarks := rfl
@[simp] theorem Die.setThread_spdWb : (d.setThread t th).spdWb = d.spdWb := rfl
@[simp] theorem Die.setThread_acc : (d.setThread t th).acc = d.acc := rfl
@[simp] theorem Die.setThread_accOut : (d.setThread t th).accOut = d.accOut := rfl
@[simp] theorem Die.setThread_vregs : (d.setThread t th).vregs = d.vregs := rfl
@[simp] theorem Die.setThread_rods : (d.setThread t th).rods = d.rods := rfl
@[simp] theorem Die.setThread_handles : (d.setThread t th).handles = d.handles := rfl
@[simp] theorem Die.setThread_ccWorld : (d.setThread t th).ccWorld = d.ccWorld := rfl
@[simp] theorem Die.setThread_rt : (d.setThread t th).rt = d.rt := rfl
@[simp] theorem Die.setThread_rtLane : (d.setThread t th).rtLane = d.rtLane := rfl
@[simp] theorem Die.setThread_rtLast : (d.setThread t th).rtLast = d.rtLast := rfl
@[simp] theorem Die.setThread_tree : (d.setThread t th).tree = d.tree := rfl
@[simp] theorem Die.setThread_cut : (d.setThread t th).cut = d.cut := rfl
@[simp] theorem Die.setThread_parts : (d.setThread t th).parts = d.parts := rfl
@[simp] theorem Die.setThread_inbox : (d.setThread t th).inbox = d.inbox := rfl
@[simp] theorem Die.setThread_held : (d.setThread t th).held = d.held := rfl
@[simp] theorem Die.setThread_lpddr : (d.setThread t th).lpddr = d.lpddr := rfl
@[simp] theorem Die.setThread_lpMarks : (d.setThread t th).lpMarks = d.lpMarks := rfl
@[simp] theorem Die.setThread_lpWb : (d.setThread t th).lpWb = d.lpWb := rfl
@[simp] theorem Die.setThread_mcReqs : (d.setThread t th).mcReqs = d.mcReqs := rfl
@[simp] theorem Die.setThread_mcWrites : (d.setThread t th).mcWrites = d.mcWrites := rfl
@[simp] theorem Die.setThread_mcOut : (d.setThread t th).mcOut = d.mcOut := rfl
@[simp] theorem Die.setThread_openPage : (d.setThread t th).openPage = d.openPage := rfl
@[simp] theorem Die.setThread_lastNeedle : (d.setThread t th).lastNeedle = d.lastNeedle := rfl
@[simp] theorem Die.setThread_ctxWait : (d.setThread t th).ctxWait = d.ctxWait := rfl
@[simp] theorem Die.setThread_ctxTold : (d.setThread t th).ctxTold = d.ctxTold := rfl
@[simp] theorem Die.setThread_scrubPos : (d.setThread t th).scrubPos = d.scrubPos := rfl
@[simp] theorem Die.setThread_wlk : (d.setThread t th).wlk = d.wlk := rfl
@[simp] theorem Die.setThread_ldgNotice : (d.setThread t th).ldgNotice = d.ldgNotice := rfl
@[simp] theorem Die.setThread_events : (d.setThread t th).events = d.events := rfl
@[simp] theorem Die.setThread_junction : (d.setThread t th).junction = d.junction := rfl
@[simp] theorem Die.setThread_thermHalt : (d.setThread t th).thermHalt = d.thermHalt := rfl
@[simp] theorem Die.setThread_clkLost : (d.setThread t th).clkLost = d.clkLost := rfl
@[simp] theorem Die.setThread_clamp : (d.setThread t th).clamp = d.clamp := rfl
@[simp] theorem Die.setThread_rowPace : (d.setThread t th).rowPace = d.rowPace := rfl
@[simp] theorem Die.setThread_ramp : (d.setThread t th).ramp = d.ramp := rfl
@[simp] theorem Die.setThread_admitted : (d.setThread t th).admitted = d.admitted := rfl
@[simp] theorem Die.setThread_stallFrom : (d.setThread t th).stallFrom = d.stallFrom := rfl
@[simp] theorem Die.setThread_swapsHeld : (d.setThread t th).swapsHeld = d.swapsHeld := rfl
@[simp] theorem Die.setThread_genWrites : (d.setThread t th).genWrites = d.genWrites := rfl
@[simp] theorem Die.setThread_lowEstimates : (d.setThread t th).lowEstimates = d.lowEstimates := rfl
@[simp] theorem Die.setThread_asked : (d.setThread t th).asked = d.asked := rfl
@[simp] theorem Die.setThread_estAt : (d.setThread t th).estAt = d.estAt := rfl
@[simp] theorem Die.setThread_seamFlits : (d.setThread t th).seamFlits = d.seamFlits := rfl
@[simp] theorem Die.setThread_wdogAt : (d.setThread t th).wdogAt = d.wdogAt := rfl
@[simp] theorem Die.setThread_haltAt : (d.setThread t th).haltAt = d.haltAt := rfl
@[simp] theorem Die.setThread_patrol : (d.setThread t th).patrol = d.patrol := rfl
@[simp] theorem Die.setThread_lehrWant : (d.setThread t th).lehrWant = d.lehrWant := rfl
@[simp] theorem Die.setThread_lehrJob : (d.setThread t th).lehrJob = d.lehrJob := rfl
@[simp] theorem Die.setThread_object : (d.setThread t th).object = d.object := rfl
@[simp] theorem Die.setThread_unsent : (d.setThread t th).unsent = d.unsent := rfl
@[simp] theorem Die.setThread_lhrGo : (d.setThread t th).lhrGo = d.lhrGo := rfl
@[simp] theorem Die.setThread_lehrOut : (d.setThread t th).lehrOut = d.lehrOut := rfl
@[simp] theorem Die.setThread_lehrSent : (d.setThread t th).lehrSent = d.lehrSent := rfl

end

/-! ## `Die.event` -/

section
variable (d : Die) (b : Nat)

@[simp] theorem Die.event_phys : (d.event b).phys = d.phys := rfl
@[simp] theorem Die.event_run : (d.event b).run = d.run := rfl
@[simp] theorem Die.event_routerOk : (d.event b).routerOk = d.routerOk := rfl
@[simp] theorem Die.event_pkg : (d.event b).pkg = d.pkg := rfl
@[simp] theorem Die.event_logical : (d.event b).logical = d.logical := rfl
@[simp] theorem Die.event_regs : (d.event b).regs = d.regs := rfl
@[simp] theorem Die.event_threads : (d.event b).threads = d.threads := rfl
@[simp] theorem Die.event_lastIssued : (d.event b).lastIssued = d.lastIssued := rfl
@[simp] theorem Die.event_ranges : (d.event b).ranges = d.ranges := rfl
@[simp] theorem Die.event_classes : (d.event b).classes = d.classes := rfl
@[simp] theorem Die.event_used : (d.event b).used = d.used := rfl
@[simp] theorem Die.event_free : (d.event b).free = d.free := rfl
@[simp] theorem Die.event_ops : (d.event b).ops = d.ops := rfl
@[simp] theorem Die.event_nextOp : (d.event b).nextOp = d.nextOp := rfl
@[simp] theorem Die.event_prog : (d.event b).prog = d.prog := rfl
@[simp] theorem Die.event_progLoad : (d.event b).progLoad = d.progLoad := rfl
@[simp] theorem Die.event_spd : (d.event b).spd = d.spd := rfl
@[simp] theorem Die.event_spdMarks : (d.event b).spdMarks = d.spdMarks := rfl
@[simp] theorem Die.event_spdWb : (d.event b).spdWb = d.spdWb := rfl
@[simp] theorem Die.event_acc : (d.event b).acc = d.acc := rfl
@[simp] theorem Die.event_accOut : (d.event b).accOut = d.accOut := rfl
@[simp] theorem Die.event_vregs : (d.event b).vregs = d.vregs := rfl
@[simp] theorem Die.event_rods : (d.event b).rods = d.rods := rfl
@[simp] theorem Die.event_handles : (d.event b).handles = d.handles := rfl
@[simp] theorem Die.event_ccWorld : (d.event b).ccWorld = d.ccWorld := rfl
@[simp] theorem Die.event_rt : (d.event b).rt = d.rt := rfl
@[simp] theorem Die.event_rtLane : (d.event b).rtLane = d.rtLane := rfl
@[simp] theorem Die.event_rtLast : (d.event b).rtLast = d.rtLast := rfl
@[simp] theorem Die.event_tree : (d.event b).tree = d.tree := rfl
@[simp] theorem Die.event_cut : (d.event b).cut = d.cut := rfl
@[simp] theorem Die.event_parts : (d.event b).parts = d.parts := rfl
@[simp] theorem Die.event_inbox : (d.event b).inbox = d.inbox := rfl
@[simp] theorem Die.event_held : (d.event b).held = d.held := rfl
@[simp] theorem Die.event_lpddr : (d.event b).lpddr = d.lpddr := rfl
@[simp] theorem Die.event_lpMarks : (d.event b).lpMarks = d.lpMarks := rfl
@[simp] theorem Die.event_lpWb : (d.event b).lpWb = d.lpWb := rfl
@[simp] theorem Die.event_mcReqs : (d.event b).mcReqs = d.mcReqs := rfl
@[simp] theorem Die.event_mcWrites : (d.event b).mcWrites = d.mcWrites := rfl
@[simp] theorem Die.event_mcOut : (d.event b).mcOut = d.mcOut := rfl
@[simp] theorem Die.event_openPage : (d.event b).openPage = d.openPage := rfl
@[simp] theorem Die.event_lastNeedle : (d.event b).lastNeedle = d.lastNeedle := rfl
@[simp] theorem Die.event_ctxWait : (d.event b).ctxWait = d.ctxWait := rfl
@[simp] theorem Die.event_ctxTold : (d.event b).ctxTold = d.ctxTold := rfl
@[simp] theorem Die.event_scrubPos : (d.event b).scrubPos = d.scrubPos := rfl
@[simp] theorem Die.event_wlk : (d.event b).wlk = d.wlk := rfl
@[simp] theorem Die.event_ldgNotice : (d.event b).ldgNotice = d.ldgNotice := rfl
@[simp] theorem Die.event_junction : (d.event b).junction = d.junction := rfl
@[simp] theorem Die.event_thermHalt : (d.event b).thermHalt = d.thermHalt := rfl
@[simp] theorem Die.event_clkLost : (d.event b).clkLost = d.clkLost := rfl
@[simp] theorem Die.event_clamp : (d.event b).clamp = d.clamp := rfl
@[simp] theorem Die.event_rowPace : (d.event b).rowPace = d.rowPace := rfl
@[simp] theorem Die.event_ramp : (d.event b).ramp = d.ramp := rfl
@[simp] theorem Die.event_admitted : (d.event b).admitted = d.admitted := rfl
@[simp] theorem Die.event_stallFrom : (d.event b).stallFrom = d.stallFrom := rfl
@[simp] theorem Die.event_swapsHeld : (d.event b).swapsHeld = d.swapsHeld := rfl
@[simp] theorem Die.event_genWrites : (d.event b).genWrites = d.genWrites := rfl
@[simp] theorem Die.event_lowEstimates : (d.event b).lowEstimates = d.lowEstimates := rfl
@[simp] theorem Die.event_asked : (d.event b).asked = d.asked := rfl
@[simp] theorem Die.event_estAt : (d.event b).estAt = d.estAt := rfl
@[simp] theorem Die.event_seamFlits : (d.event b).seamFlits = d.seamFlits := rfl
@[simp] theorem Die.event_wdogAt : (d.event b).wdogAt = d.wdogAt := rfl
@[simp] theorem Die.event_haltAt : (d.event b).haltAt = d.haltAt := rfl
@[simp] theorem Die.event_patrol : (d.event b).patrol = d.patrol := rfl
@[simp] theorem Die.event_lehrWant : (d.event b).lehrWant = d.lehrWant := rfl
@[simp] theorem Die.event_lehrJob : (d.event b).lehrJob = d.lehrJob := rfl
@[simp] theorem Die.event_object : (d.event b).object = d.object := rfl
@[simp] theorem Die.event_unsent : (d.event b).unsent = d.unsent := rfl
@[simp] theorem Die.event_lhrGo : (d.event b).lhrGo = d.lhrGo := rfl
@[simp] theorem Die.event_lehrOut : (d.event b).lehrOut = d.lehrOut := rfl
@[simp] theorem Die.event_lehrSent : (d.event b).lehrSent = d.lehrSent := rfl

end

/-! ## `Die.modOp` -/

section
variable (d : Die) (i : Nat) (f : LongOp → LongOp)

@[simp] theorem Die.modOp_phys : (d.modOp i f).phys = d.phys := rfl
@[simp] theorem Die.modOp_run : (d.modOp i f).run = d.run := rfl
@[simp] theorem Die.modOp_routerOk : (d.modOp i f).routerOk = d.routerOk := rfl
@[simp] theorem Die.modOp_pkg : (d.modOp i f).pkg = d.pkg := rfl
@[simp] theorem Die.modOp_logical : (d.modOp i f).logical = d.logical := rfl
@[simp] theorem Die.modOp_regs : (d.modOp i f).regs = d.regs := rfl
@[simp] theorem Die.modOp_threads : (d.modOp i f).threads = d.threads := rfl
@[simp] theorem Die.modOp_lastIssued : (d.modOp i f).lastIssued = d.lastIssued := rfl
@[simp] theorem Die.modOp_ranges : (d.modOp i f).ranges = d.ranges := rfl
@[simp] theorem Die.modOp_classes : (d.modOp i f).classes = d.classes := rfl
@[simp] theorem Die.modOp_used : (d.modOp i f).used = d.used := rfl
@[simp] theorem Die.modOp_free : (d.modOp i f).free = d.free := rfl
@[simp] theorem Die.modOp_nextOp : (d.modOp i f).nextOp = d.nextOp := rfl
@[simp] theorem Die.modOp_prog : (d.modOp i f).prog = d.prog := rfl
@[simp] theorem Die.modOp_progLoad : (d.modOp i f).progLoad = d.progLoad := rfl
@[simp] theorem Die.modOp_spd : (d.modOp i f).spd = d.spd := rfl
@[simp] theorem Die.modOp_spdMarks : (d.modOp i f).spdMarks = d.spdMarks := rfl
@[simp] theorem Die.modOp_spdWb : (d.modOp i f).spdWb = d.spdWb := rfl
@[simp] theorem Die.modOp_acc : (d.modOp i f).acc = d.acc := rfl
@[simp] theorem Die.modOp_accOut : (d.modOp i f).accOut = d.accOut := rfl
@[simp] theorem Die.modOp_vregs : (d.modOp i f).vregs = d.vregs := rfl
@[simp] theorem Die.modOp_rods : (d.modOp i f).rods = d.rods := rfl
@[simp] theorem Die.modOp_handles : (d.modOp i f).handles = d.handles := rfl
@[simp] theorem Die.modOp_ccWorld : (d.modOp i f).ccWorld = d.ccWorld := rfl
@[simp] theorem Die.modOp_rt : (d.modOp i f).rt = d.rt := rfl
@[simp] theorem Die.modOp_rtLane : (d.modOp i f).rtLane = d.rtLane := rfl
@[simp] theorem Die.modOp_rtLast : (d.modOp i f).rtLast = d.rtLast := rfl
@[simp] theorem Die.modOp_tree : (d.modOp i f).tree = d.tree := rfl
@[simp] theorem Die.modOp_cut : (d.modOp i f).cut = d.cut := rfl
@[simp] theorem Die.modOp_parts : (d.modOp i f).parts = d.parts := rfl
@[simp] theorem Die.modOp_inbox : (d.modOp i f).inbox = d.inbox := rfl
@[simp] theorem Die.modOp_held : (d.modOp i f).held = d.held := rfl
@[simp] theorem Die.modOp_lpddr : (d.modOp i f).lpddr = d.lpddr := rfl
@[simp] theorem Die.modOp_lpMarks : (d.modOp i f).lpMarks = d.lpMarks := rfl
@[simp] theorem Die.modOp_lpWb : (d.modOp i f).lpWb = d.lpWb := rfl
@[simp] theorem Die.modOp_mcReqs : (d.modOp i f).mcReqs = d.mcReqs := rfl
@[simp] theorem Die.modOp_mcWrites : (d.modOp i f).mcWrites = d.mcWrites := rfl
@[simp] theorem Die.modOp_mcOut : (d.modOp i f).mcOut = d.mcOut := rfl
@[simp] theorem Die.modOp_openPage : (d.modOp i f).openPage = d.openPage := rfl
@[simp] theorem Die.modOp_lastNeedle : (d.modOp i f).lastNeedle = d.lastNeedle := rfl
@[simp] theorem Die.modOp_ctxWait : (d.modOp i f).ctxWait = d.ctxWait := rfl
@[simp] theorem Die.modOp_ctxTold : (d.modOp i f).ctxTold = d.ctxTold := rfl
@[simp] theorem Die.modOp_scrubPos : (d.modOp i f).scrubPos = d.scrubPos := rfl
@[simp] theorem Die.modOp_wlk : (d.modOp i f).wlk = d.wlk := rfl
@[simp] theorem Die.modOp_ldgNotice : (d.modOp i f).ldgNotice = d.ldgNotice := rfl
@[simp] theorem Die.modOp_events : (d.modOp i f).events = d.events := rfl
@[simp] theorem Die.modOp_junction : (d.modOp i f).junction = d.junction := rfl
@[simp] theorem Die.modOp_thermHalt : (d.modOp i f).thermHalt = d.thermHalt := rfl
@[simp] theorem Die.modOp_clkLost : (d.modOp i f).clkLost = d.clkLost := rfl
@[simp] theorem Die.modOp_clamp : (d.modOp i f).clamp = d.clamp := rfl
@[simp] theorem Die.modOp_rowPace : (d.modOp i f).rowPace = d.rowPace := rfl
@[simp] theorem Die.modOp_ramp : (d.modOp i f).ramp = d.ramp := rfl
@[simp] theorem Die.modOp_admitted : (d.modOp i f).admitted = d.admitted := rfl
@[simp] theorem Die.modOp_stallFrom : (d.modOp i f).stallFrom = d.stallFrom := rfl
@[simp] theorem Die.modOp_swapsHeld : (d.modOp i f).swapsHeld = d.swapsHeld := rfl
@[simp] theorem Die.modOp_genWrites : (d.modOp i f).genWrites = d.genWrites := rfl
@[simp] theorem Die.modOp_lowEstimates : (d.modOp i f).lowEstimates = d.lowEstimates := rfl
@[simp] theorem Die.modOp_asked : (d.modOp i f).asked = d.asked := rfl
@[simp] theorem Die.modOp_estAt : (d.modOp i f).estAt = d.estAt := rfl
@[simp] theorem Die.modOp_seamFlits : (d.modOp i f).seamFlits = d.seamFlits := rfl
@[simp] theorem Die.modOp_wdogAt : (d.modOp i f).wdogAt = d.wdogAt := rfl
@[simp] theorem Die.modOp_haltAt : (d.modOp i f).haltAt = d.haltAt := rfl
@[simp] theorem Die.modOp_patrol : (d.modOp i f).patrol = d.patrol := rfl
@[simp] theorem Die.modOp_lehrWant : (d.modOp i f).lehrWant = d.lehrWant := rfl
@[simp] theorem Die.modOp_lehrJob : (d.modOp i f).lehrJob = d.lehrJob := rfl
@[simp] theorem Die.modOp_object : (d.modOp i f).object = d.object := rfl
@[simp] theorem Die.modOp_unsent : (d.modOp i f).unsent = d.unsent := rfl
@[simp] theorem Die.modOp_lhrGo : (d.modOp i f).lhrGo = d.lhrGo := rfl
@[simp] theorem Die.modOp_lehrOut : (d.modOp i f).lehrOut = d.lehrOut := rfl
@[simp] theorem Die.modOp_lehrSent : (d.modOp i f).lehrSent = d.lehrSent := rfl

end

/-! ## `Fn.setReg` -/

section
variable (x : Fn) (o v : Nat)

@[simp] theorem Fn.setReg_snap : (x.setReg o v).snap = x.snap := rfl
@[simp] theorem Fn.setReg_rings : (x.setReg o v).rings = x.rings := rfl
@[simp] theorem Fn.setReg_windows : (x.setReg o v).windows = x.windows := rfl
@[simp] theorem Fn.setReg_slots : (x.setReg o v).slots = x.slots := rfl
@[simp] theorem Fn.setReg_records : (x.setReg o v).records = x.records := rfl
@[simp] theorem Fn.setReg_nextRecord : (x.setReg o v).nextRecord = x.nextRecord := rfl
@[simp] theorem Fn.setReg_finished : (x.setReg o v).finished = x.finished := rfl

end

/-! ## `State.setDie` -/

section
variable (s : State) (p : Nat) (d : Die)

@[simp] theorem State.setDie_pending : (s.setDie p d).pending = s.pending := rfl
@[simp] theorem State.setDie_pins : (s.setDie p d).pins = s.pins := rfl
@[simp] theorem State.setDie_punty : (s.setDie p d).punty = s.punty := rfl
@[simp] theorem State.setDie_mgtclk : (s.setDie p d).mgtclk = s.mgtclk := rfl
@[simp] theorem State.setDie_mgtLost : (s.setDie p d).mgtLost = s.mgtLost := rfl
@[simp] theorem State.setDie_refLost : (s.setDie p d).refLost = s.refLost := rfl
@[simp] theorem State.setDie_clockEvents : (s.setDie p d).clockEvents = s.clockEvents := rfl
@[simp] theorem State.setDie_rows : (s.setDie p d).rows = s.rows := rfl
@[simp] theorem State.setDie_excPace : (s.setDie p d).excPace = s.excPace := rfl
@[simp] theorem State.setDie_excOn : (s.setDie p d).excOn = s.excOn := rfl
@[simp] theorem State.setDie_avsSent : (s.setDie p d).avsSent = s.avsSent := rfl
@[simp] theorem State.setDie_avsFails : (s.setDie p d).avsFails = s.avsFails := rfl
@[simp] theorem State.setDie_avsPaced : (s.setDie p d).avsPaced = s.avsPaced := rfl
@[simp] theorem State.setDie_nor : (s.setDie p d).nor = s.nor := rfl
@[simp] theorem State.setDie_image : (s.setDie p d).image = s.image := rfl
@[simp] theorem State.setDie_imageDigest : (s.setDie p d).imageDigest = s.imageDigest := rfl
@[simp] theorem State.setDie_firmware : (s.setDie p d).firmware = s.firmware := rfl
@[simp] theorem State.setDie_fwDigest : (s.setDie p d).fwDigest = s.fwDigest := rfl
@[simp] theorem State.setDie_fwWaiting : (s.setDie p d).fwWaiting = s.fwWaiting := rfl
@[simp] theorem State.setDie_lives : (s.setDie p d).lives = s.lives := rfl
@[simp] theorem State.setDie_binds : (s.setDie p d).binds = s.binds := rfl
@[simp] theorem State.setDie_regions : (s.setDie p d).regions = s.regions := rfl
@[simp] theorem State.setDie_worlds : (s.setDie p d).worlds = s.worlds := rfl
@[simp] theorem State.setDie_crucible : (s.setDie p d).crucible = s.crucible := rfl
@[simp] theorem State.setDie_sparing : (s.setDie p d).sparing = s.sparing := rfl
@[simp] theorem State.setDie_retired : (s.setDie p d).retired = s.retired := rfl
@[simp] theorem State.setDie_fresh : (s.setDie p d).fresh = s.fresh := rfl
@[simp] theorem State.setDie_jobs : (s.setDie p d).jobs = s.jobs := rfl
@[simp] theorem State.setDie_autostart : (s.setDie p d).autostart = s.autostart := rfl
@[simp] theorem State.setDie_captures : (s.setDie p d).captures = s.captures := rfl
@[simp] theorem State.setDie_jobRecs : (s.setDie p d).jobRecs = s.jobRecs := rfl
@[simp] theorem State.setDie_regRecs : (s.setDie p d).regRecs = s.regRecs := rfl
@[simp] theorem State.setDie_engines : (s.setDie p d).engines = s.engines := rfl
@[simp] theorem State.setDie_bays : (s.setDie p d).bays = s.bays := rfl
@[simp] theorem State.setDie_fns : (s.setDie p d).fns = s.fns := rfl
@[simp] theorem State.setDie_cmds : (s.setDie p d).cmds = s.cmds := rfl
@[simp] theorem State.setDie_fills : (s.setDie p d).fills = s.fills := rfl
@[simp] theorem State.setDie_nextCmd : (s.setDie p d).nextCmd = s.nextCmd := rfl
@[simp] theorem State.setDie_binding : (s.setDie p d).binding = s.binding := rfl
@[simp] theorem State.setDie_outputs : (s.setDie p d).outputs = s.outputs := rfl
@[simp] theorem State.setDie_free : (s.setDie p d).free = s.free := rfl

end

/-! ## `State.setReg` -/

section
variable (s : State) (o v : Nat)

@[simp] theorem State.setReg_pending : (s.setReg o v).pending = s.pending := rfl
@[simp] theorem State.setReg_pins : (s.setReg o v).pins = s.pins := rfl
@[simp] theorem State.setReg_dies : (s.setReg o v).dies = s.dies := rfl
@[simp] theorem State.setReg_mgtclk : (s.setReg o v).mgtclk = s.mgtclk := rfl
@[simp] theorem State.setReg_mgtLost : (s.setReg o v).mgtLost = s.mgtLost := rfl
@[simp] theorem State.setReg_refLost : (s.setReg o v).refLost = s.refLost := rfl
@[simp] theorem State.setReg_clockEvents : (s.setReg o v).clockEvents = s.clockEvents := rfl
@[simp] theorem State.setReg_rows : (s.setReg o v).rows = s.rows := rfl
@[simp] theorem State.setReg_excPace : (s.setReg o v).excPace = s.excPace := rfl
@[simp] theorem State.setReg_excOn : (s.setReg o v).excOn = s.excOn := rfl
@[simp] theorem State.setReg_avsSent : (s.setReg o v).avsSent = s.avsSent := rfl
@[simp] theorem State.setReg_avsFails : (s.setReg o v).avsFails = s.avsFails := rfl
@[simp] theorem State.setReg_avsPaced : (s.setReg o v).avsPaced = s.avsPaced := rfl
@[simp] theorem State.setReg_nor : (s.setReg o v).nor = s.nor := rfl
@[simp] theorem State.setReg_image : (s.setReg o v).image = s.image := rfl
@[simp] theorem State.setReg_imageDigest : (s.setReg o v).imageDigest = s.imageDigest := rfl
@[simp] theorem State.setReg_firmware : (s.setReg o v).firmware = s.firmware := rfl
@[simp] theorem State.setReg_fwDigest : (s.setReg o v).fwDigest = s.fwDigest := rfl
@[simp] theorem State.setReg_fwWaiting : (s.setReg o v).fwWaiting = s.fwWaiting := rfl
@[simp] theorem State.setReg_lives : (s.setReg o v).lives = s.lives := rfl
@[simp] theorem State.setReg_binds : (s.setReg o v).binds = s.binds := rfl
@[simp] theorem State.setReg_regions : (s.setReg o v).regions = s.regions := rfl
@[simp] theorem State.setReg_worlds : (s.setReg o v).worlds = s.worlds := rfl
@[simp] theorem State.setReg_crucible : (s.setReg o v).crucible = s.crucible := rfl
@[simp] theorem State.setReg_sparing : (s.setReg o v).sparing = s.sparing := rfl
@[simp] theorem State.setReg_retired : (s.setReg o v).retired = s.retired := rfl
@[simp] theorem State.setReg_fresh : (s.setReg o v).fresh = s.fresh := rfl
@[simp] theorem State.setReg_jobs : (s.setReg o v).jobs = s.jobs := rfl
@[simp] theorem State.setReg_autostart : (s.setReg o v).autostart = s.autostart := rfl
@[simp] theorem State.setReg_captures : (s.setReg o v).captures = s.captures := rfl
@[simp] theorem State.setReg_jobRecs : (s.setReg o v).jobRecs = s.jobRecs := rfl
@[simp] theorem State.setReg_regRecs : (s.setReg o v).regRecs = s.regRecs := rfl
@[simp] theorem State.setReg_engines : (s.setReg o v).engines = s.engines := rfl
@[simp] theorem State.setReg_bays : (s.setReg o v).bays = s.bays := rfl
@[simp] theorem State.setReg_fns : (s.setReg o v).fns = s.fns := rfl
@[simp] theorem State.setReg_cmds : (s.setReg o v).cmds = s.cmds := rfl
@[simp] theorem State.setReg_fills : (s.setReg o v).fills = s.fills := rfl
@[simp] theorem State.setReg_nextCmd : (s.setReg o v).nextCmd = s.nextCmd := rfl
@[simp] theorem State.setReg_binding : (s.setReg o v).binding = s.binding := rfl
@[simp] theorem State.setReg_outputs : (s.setReg o v).outputs = s.outputs := rfl
@[simp] theorem State.setReg_free : (s.setReg o v).free = s.free := rfl

end

/-! ## `State.setFn` -/

section
variable (s : State) (f : Nat) (x : Fn)

@[simp] theorem State.setFn_pending : (s.setFn f x).pending = s.pending := rfl
@[simp] theorem State.setFn_pins : (s.setFn f x).pins = s.pins := rfl
@[simp] theorem State.setFn_dies : (s.setFn f x).dies = s.dies := rfl
@[simp] theorem State.setFn_punty : (s.setFn f x).punty = s.punty := rfl
@[simp] theorem State.setFn_mgtclk : (s.setFn f x).mgtclk = s.mgtclk := rfl
@[simp] theorem State.setFn_mgtLost : (s.setFn f x).mgtLost = s.mgtLost := rfl
@[simp] theorem State.setFn_refLost : (s.setFn f x).refLost = s.refLost := rfl
@[simp] theorem State.setFn_clockEvents : (s.setFn f x).clockEvents = s.clockEvents := rfl
@[simp] theorem State.setFn_rows : (s.setFn f x).rows = s.rows := rfl
@[simp] theorem State.setFn_excPace : (s.setFn f x).excPace = s.excPace := rfl
@[simp] theorem State.setFn_excOn : (s.setFn f x).excOn = s.excOn := rfl
@[simp] theorem State.setFn_avsSent : (s.setFn f x).avsSent = s.avsSent := rfl
@[simp] theorem State.setFn_avsFails : (s.setFn f x).avsFails = s.avsFails := rfl
@[simp] theorem State.setFn_avsPaced : (s.setFn f x).avsPaced = s.avsPaced := rfl
@[simp] theorem State.setFn_nor : (s.setFn f x).nor = s.nor := rfl
@[simp] theorem State.setFn_image : (s.setFn f x).image = s.image := rfl
@[simp] theorem State.setFn_imageDigest : (s.setFn f x).imageDigest = s.imageDigest := rfl
@[simp] theorem State.setFn_firmware : (s.setFn f x).firmware = s.firmware := rfl
@[simp] theorem State.setFn_fwDigest : (s.setFn f x).fwDigest = s.fwDigest := rfl
@[simp] theorem State.setFn_fwWaiting : (s.setFn f x).fwWaiting = s.fwWaiting := rfl
@[simp] theorem State.setFn_lives : (s.setFn f x).lives = s.lives := rfl
@[simp] theorem State.setFn_binds : (s.setFn f x).binds = s.binds := rfl
@[simp] theorem State.setFn_regions : (s.setFn f x).regions = s.regions := rfl
@[simp] theorem State.setFn_worlds : (s.setFn f x).worlds = s.worlds := rfl
@[simp] theorem State.setFn_crucible : (s.setFn f x).crucible = s.crucible := rfl
@[simp] theorem State.setFn_sparing : (s.setFn f x).sparing = s.sparing := rfl
@[simp] theorem State.setFn_retired : (s.setFn f x).retired = s.retired := rfl
@[simp] theorem State.setFn_fresh : (s.setFn f x).fresh = s.fresh := rfl
@[simp] theorem State.setFn_jobs : (s.setFn f x).jobs = s.jobs := rfl
@[simp] theorem State.setFn_autostart : (s.setFn f x).autostart = s.autostart := rfl
@[simp] theorem State.setFn_captures : (s.setFn f x).captures = s.captures := rfl
@[simp] theorem State.setFn_jobRecs : (s.setFn f x).jobRecs = s.jobRecs := rfl
@[simp] theorem State.setFn_regRecs : (s.setFn f x).regRecs = s.regRecs := rfl
@[simp] theorem State.setFn_engines : (s.setFn f x).engines = s.engines := rfl
@[simp] theorem State.setFn_bays : (s.setFn f x).bays = s.bays := rfl
@[simp] theorem State.setFn_cmds : (s.setFn f x).cmds = s.cmds := rfl
@[simp] theorem State.setFn_fills : (s.setFn f x).fills = s.fills := rfl
@[simp] theorem State.setFn_nextCmd : (s.setFn f x).nextCmd = s.nextCmd := rfl
@[simp] theorem State.setFn_binding : (s.setFn f x).binding = s.binding := rfl
@[simp] theorem State.setFn_outputs : (s.setFn f x).outputs = s.outputs := rfl
@[simp] theorem State.setFn_free : (s.setFn f x).free = s.free := rfl

end

/-! ## `State.setJob` -/

section
variable (s : State) (j : Nat) (i : JobInfo)

@[simp] theorem State.setJob_pending : (s.setJob j i).pending = s.pending := rfl
@[simp] theorem State.setJob_pins : (s.setJob j i).pins = s.pins := rfl
@[simp] theorem State.setJob_dies : (s.setJob j i).dies = s.dies := rfl
@[simp] theorem State.setJob_punty : (s.setJob j i).punty = s.punty := rfl
@[simp] theorem State.setJob_mgtclk : (s.setJob j i).mgtclk = s.mgtclk := rfl
@[simp] theorem State.setJob_mgtLost : (s.setJob j i).mgtLost = s.mgtLost := rfl
@[simp] theorem State.setJob_refLost : (s.setJob j i).refLost = s.refLost := rfl
@[simp] theorem State.setJob_clockEvents : (s.setJob j i).clockEvents = s.clockEvents := rfl
@[simp] theorem State.setJob_rows : (s.setJob j i).rows = s.rows := rfl
@[simp] theorem State.setJob_excPace : (s.setJob j i).excPace = s.excPace := rfl
@[simp] theorem State.setJob_excOn : (s.setJob j i).excOn = s.excOn := rfl
@[simp] theorem State.setJob_avsSent : (s.setJob j i).avsSent = s.avsSent := rfl
@[simp] theorem State.setJob_avsFails : (s.setJob j i).avsFails = s.avsFails := rfl
@[simp] theorem State.setJob_avsPaced : (s.setJob j i).avsPaced = s.avsPaced := rfl
@[simp] theorem State.setJob_nor : (s.setJob j i).nor = s.nor := rfl
@[simp] theorem State.setJob_image : (s.setJob j i).image = s.image := rfl
@[simp] theorem State.setJob_imageDigest : (s.setJob j i).imageDigest = s.imageDigest := rfl
@[simp] theorem State.setJob_firmware : (s.setJob j i).firmware = s.firmware := rfl
@[simp] theorem State.setJob_fwDigest : (s.setJob j i).fwDigest = s.fwDigest := rfl
@[simp] theorem State.setJob_fwWaiting : (s.setJob j i).fwWaiting = s.fwWaiting := rfl
@[simp] theorem State.setJob_lives : (s.setJob j i).lives = s.lives := rfl
@[simp] theorem State.setJob_binds : (s.setJob j i).binds = s.binds := rfl
@[simp] theorem State.setJob_regions : (s.setJob j i).regions = s.regions := rfl
@[simp] theorem State.setJob_worlds : (s.setJob j i).worlds = s.worlds := rfl
@[simp] theorem State.setJob_crucible : (s.setJob j i).crucible = s.crucible := rfl
@[simp] theorem State.setJob_sparing : (s.setJob j i).sparing = s.sparing := rfl
@[simp] theorem State.setJob_retired : (s.setJob j i).retired = s.retired := rfl
@[simp] theorem State.setJob_fresh : (s.setJob j i).fresh = s.fresh := rfl
@[simp] theorem State.setJob_autostart : (s.setJob j i).autostart = s.autostart := rfl
@[simp] theorem State.setJob_captures : (s.setJob j i).captures = s.captures := rfl
@[simp] theorem State.setJob_jobRecs : (s.setJob j i).jobRecs = s.jobRecs := rfl
@[simp] theorem State.setJob_regRecs : (s.setJob j i).regRecs = s.regRecs := rfl
@[simp] theorem State.setJob_engines : (s.setJob j i).engines = s.engines := rfl
@[simp] theorem State.setJob_bays : (s.setJob j i).bays = s.bays := rfl
@[simp] theorem State.setJob_fns : (s.setJob j i).fns = s.fns := rfl
@[simp] theorem State.setJob_cmds : (s.setJob j i).cmds = s.cmds := rfl
@[simp] theorem State.setJob_fills : (s.setJob j i).fills = s.fills := rfl
@[simp] theorem State.setJob_nextCmd : (s.setJob j i).nextCmd = s.nextCmd := rfl
@[simp] theorem State.setJob_binding : (s.setJob j i).binding = s.binding := rfl
@[simp] theorem State.setJob_outputs : (s.setJob j i).outputs = s.outputs := rfl
@[simp] theorem State.setJob_free : (s.setJob j i).free = s.free := rfl

end

/-! ## `State.output` -/

section
variable (s : State) (x : Output)

@[simp] theorem State.output_pending : (s.output x).pending = s.pending := rfl
@[simp] theorem State.output_pins : (s.output x).pins = s.pins := rfl
@[simp] theorem State.output_dies : (s.output x).dies = s.dies := rfl
@[simp] theorem State.output_punty : (s.output x).punty = s.punty := rfl
@[simp] theorem State.output_mgtclk : (s.output x).mgtclk = s.mgtclk := rfl
@[simp] theorem State.output_mgtLost : (s.output x).mgtLost = s.mgtLost := rfl
@[simp] theorem State.output_refLost : (s.output x).refLost = s.refLost := rfl
@[simp] theorem State.output_clockEvents : (s.output x).clockEvents = s.clockEvents := rfl
@[simp] theorem State.output_rows : (s.output x).rows = s.rows := rfl
@[simp] theorem State.output_excPace : (s.output x).excPace = s.excPace := rfl
@[simp] theorem State.output_excOn : (s.output x).excOn = s.excOn := rfl
@[simp] theorem State.output_avsSent : (s.output x).avsSent = s.avsSent := rfl
@[simp] theorem State.output_avsFails : (s.output x).avsFails = s.avsFails := rfl
@[simp] theorem State.output_avsPaced : (s.output x).avsPaced = s.avsPaced := rfl
@[simp] theorem State.output_nor : (s.output x).nor = s.nor := rfl
@[simp] theorem State.output_image : (s.output x).image = s.image := rfl
@[simp] theorem State.output_imageDigest : (s.output x).imageDigest = s.imageDigest := rfl
@[simp] theorem State.output_firmware : (s.output x).firmware = s.firmware := rfl
@[simp] theorem State.output_fwDigest : (s.output x).fwDigest = s.fwDigest := rfl
@[simp] theorem State.output_fwWaiting : (s.output x).fwWaiting = s.fwWaiting := rfl
@[simp] theorem State.output_lives : (s.output x).lives = s.lives := rfl
@[simp] theorem State.output_binds : (s.output x).binds = s.binds := rfl
@[simp] theorem State.output_regions : (s.output x).regions = s.regions := rfl
@[simp] theorem State.output_worlds : (s.output x).worlds = s.worlds := rfl
@[simp] theorem State.output_crucible : (s.output x).crucible = s.crucible := rfl
@[simp] theorem State.output_sparing : (s.output x).sparing = s.sparing := rfl
@[simp] theorem State.output_retired : (s.output x).retired = s.retired := rfl
@[simp] theorem State.output_fresh : (s.output x).fresh = s.fresh := rfl
@[simp] theorem State.output_jobs : (s.output x).jobs = s.jobs := rfl
@[simp] theorem State.output_autostart : (s.output x).autostart = s.autostart := rfl
@[simp] theorem State.output_captures : (s.output x).captures = s.captures := rfl
@[simp] theorem State.output_jobRecs : (s.output x).jobRecs = s.jobRecs := rfl
@[simp] theorem State.output_regRecs : (s.output x).regRecs = s.regRecs := rfl
@[simp] theorem State.output_engines : (s.output x).engines = s.engines := rfl
@[simp] theorem State.output_bays : (s.output x).bays = s.bays := rfl
@[simp] theorem State.output_fns : (s.output x).fns = s.fns := rfl
@[simp] theorem State.output_cmds : (s.output x).cmds = s.cmds := rfl
@[simp] theorem State.output_fills : (s.output x).fills = s.fills := rfl
@[simp] theorem State.output_nextCmd : (s.output x).nextCmd = s.nextCmd := rfl
@[simp] theorem State.output_binding : (s.output x).binding = s.binding := rfl
@[simp] theorem State.output_free : (s.output x).free = s.free := rfl

end

/-! ## What each writes -/

/-- A scalar register reads as written, and every other as before. -/
theorem Thread.sreg_setS (th : Thread) (r q : Nat) (v : Word64) :
    (th.setS r v).sreg q = if q = r then v else th.sreg q := by
  simp [Thread.sreg, Thread.setS, tabGet_tabSet]

/-- So does the count of a token. -/
theorem Thread.cnt_setCnt (th : Thread) (r q : Nat) (v : BitVec 4) :
    (th.setCnt r v).cnt q = if q = r then v else th.cnt q := by
  simp [Thread.cnt, Thread.setCnt, tabGet_tabSet]

/-- So does the status of a token. -/
theorem Thread.tok_setTok (th : Thread) (r q : Nat) (v : Status) :
    (th.setTok r v).tok q = if q = r then v else th.tok q := by
  simp [Thread.tok, Thread.setTok, tabGet_tabSet]

/-- A register word fits 32 bits. -/
theorem Die.reg_lt (d : Die) (o : Nat) : d.reg o < 2 ^ 32 := (tabGet dieReset d.regs o).isLt

/-- A register reads as stored, and every other register as before. -/
theorem Die.reg_setReg (d : Die) (o k v : Nat) :
    (d.setReg o v).reg k = if k = o then v % 2 ^ 32 else d.reg k := by
  unfold Die.reg Die.setReg
  rw [tabGet_tabSet]
  split <;> simp

@[simp] theorem Die.reg_setThread (d : Die) (t : ThreadId) (th : Thread) (k : Nat) :
    (d.setThread t th).reg k = d.reg k := rfl
@[simp] theorem Die.reg_event (d : Die) (b k : Nat) : (d.event b).reg k = d.reg k := rfl
@[simp] theorem Die.reg_modOp (d : Die) (i : Nat) (f : LongOp → LongOp) (k : Nat) :
    (d.modOp i f).reg k = d.reg k := rfl

/-- A write of a field leaves every other register. -/
theorem Die.reg_put_ne (d : Die) (f : Fld) (v k : Nat) (h : k ≠ f.off) : (d.put f v).reg k = d.reg k := by
  simp [Die.put, Die.reg_setReg, h]

/-- So does setting a flag. -/
theorem Die.reg_setFlag_ne (d : Die) (o i k : Nat) (h : k ≠ o) : (d.setFlag o i).reg k = d.reg k :=
  Die.reg_put_ne d ⟨o, i, i⟩ 1 k h

/-- A thread reads as stored, and every other thread as before. -/
theorem Die.thread_setThread (d : Die) (t u : ThreadId) (th : Thread) :
    (d.setThread t th).thread u = if u = t then th else d.thread u := by
  simp [Die.thread, Die.setThread, tabGet_tabSet, BitVec.toNat_inj]

@[simp] theorem Die.thread_setReg (d : Die) (o v : Nat) (t : ThreadId) : (d.setReg o v).thread t = d.thread t := rfl
@[simp] theorem Die.thread_event (d : Die) (b : Nat) (t : ThreadId) : (d.event b).thread t = d.thread t := rfl

/-- The second of two writes of one key stands. -/
theorem tabSet_tabSet {α : Type} [DecidableEq α] {d : Nat → α} (t : List (Nat × α)) (k : Nat) (v w : α) :
    tabSet d (tabSet d t k v) k w = tabSet d t k w := by
  have lo : (tabRun d k [v]).filter (fun e => decide (e.1 < k)) = [] := by
    refine List.filter_eq_nil_iff.mpr (fun e he => ?_)
    have := tabRun_keys k [v] e he
    simp only [decide_eq_true_eq]
    omega
  have hi : (tabRun d k [v]).filter (fun e => decide (k + 1 ≤ e.1)) = [] := by
    refine List.filter_eq_nil_iff.mpr (fun e he => ?_)
    have := tabRun_keys k [v] e he
    simp only [List.length_singleton, decide_eq_true_eq] at *
    omega
  have a : ∀ e : Nat × α, (decide (e.1 < k) && decide (e.1 < k)) = decide (e.1 < k) := by simp
  have b : ∀ e : Nat × α, (decide (e.1 < k) && decide (k + 1 ≤ e.1)) = false := by
    intro e
    simp only [Bool.and_eq_false_iff, decide_eq_false_iff_not]
    omega
  have c : ∀ e : Nat × α, (decide (k + 1 ≤ e.1) && decide (e.1 < k)) = false := by
    intro e
    simp only [Bool.and_eq_false_iff, decide_eq_false_iff_not]
    omega
  have e : ∀ e : Nat × α, (decide (k + 1 ≤ e.1) && decide (k + 1 ≤ e.1)) = decide (k + 1 ≤ e.1) := by simp
  unfold tabSet tabPut
  simp only [List.length_singleton, List.filter_append, List.filter_filter, lo, hi, a, b, c, e,
    List.filter_false, List.nil_append, List.append_nil]

@[simp] theorem Die.setThread_setThread (d : Die) (t : ThreadId) (a b : Thread) :
    (d.setThread t a).setThread t b = d.setThread t b := by
  simp [Die.setThread, tabSet_tabSet]

@[simp] theorem Die.setReg_setReg (d : Die) (o v w : Nat) : (d.setReg o v).setReg o w = d.setReg o w := by
  simp [Die.setReg, tabSet_tabSet]

/-- A die reads as stored; every other die as before. -/
theorem die_setDie (s : State) (p q : Nat) (d : Die) : (s.setDie p d).die q = if q = p then d else s.die q := by
  simp [State.die, State.setDie, tabGet_tabSet]

@[simp] theorem die_setDie_self (s : State) (p : Nat) (d : Die) : (s.setDie p d).die p = d := by
  simp [die_setDie]

/-- A changed die is the change of what it was; every other die is as before. -/
theorem die_modDie (s : State) (p q : Nat) (f : Die → Die) :
    (s.modDie p f).die q = if q = p then f (s.die p) else s.die q := by
  simp [State.modDie, die_setDie]

@[simp] theorem die_modDie_self (s : State) (p : Nat) (f : Die → Die) : (s.modDie p f).die p = f (s.die p) := by
  simp [die_modDie]

/-- Two changes of one die are one. -/
@[simp] theorem setDie_setDie (s : State) (p : Nat) (a b : Die) : (s.setDie p a).setDie p b = s.setDie p b := by
  simp [State.setDie, tabSet_tabSet]

/-- A Punty register reads as stored, and every other register as before. -/
theorem State.reg_setReg (s : State) (o k v : Nat) :
    (s.setReg o v).reg k = if k = o then v % 2 ^ 32 else s.reg k := by
  unfold State.reg State.setReg
  rw [tabGet_tabSet]
  split <;> simp

@[simp] theorem State.reg_setDie (s : State) (p : Nat) (d : Die) (k : Nat) : (s.setDie p d).reg k = s.reg k := rfl
@[simp] theorem State.reg_setFn (s : State) (f : Nat) (x : Fn) (k : Nat) : (s.setFn f x).reg k = s.reg k := rfl
@[simp] theorem State.reg_output (s : State) (x : Output) (k : Nat) : (s.output x).reg k = s.reg k := rfl
@[simp] theorem State.die_setReg (s : State) (o v p : Nat) : (s.setReg o v).die p = s.die p := rfl
@[simp] theorem State.die_setFn (s : State) (f : Nat) (x : Fn) (p : Nat) : (s.setFn f x).die p = s.die p := rfl

/-- A function reads as stored; every other function as before. -/
theorem fn_setFn (s : State) (f g : Nat) (x : Fn) : (s.setFn f x).fn g = if g = f then x else s.fn g := by
  simp [State.fn, State.setFn, tabGet_tabSet]

/-- What the Reckoner keeps of a job reads as stored; of every other job as before. -/
theorem job_setJob (s : State) (j k : Nat) (i : JobInfo) :
    (s.setJob j i).job k = if k = j then i else s.job k := by
  simp [State.job, State.setJob, tabGet_tabSet]

end Sys2Proof.Machine
end

