-- ==== Sys2Proof/Laws/Block.lean ====
section
/-! SUPPORT. Commands at a die: what the patrol period leaves, and what a command that acts on one die does. -/

namespace Sys2Proof.Machine

/-- The patrol period alone moves on. -/
theorem patrolNow_eq (d : Die) : ∃ k, patrolNow d = { d with patrol := k } := by
  unfold patrolNow
  dsimp only
  split
  · exact ⟨d.patrol, rfl⟩
  · exact ⟨_, rfl⟩

@[simp] theorem canIssue_patrolNow (d : Die) (t : ThreadId) : canIssue (patrolNow d) t = canIssue d t := by
  obtain ⟨k, h⟩ := patrolNow_eq d
  rw [h]; rfl

@[simp] theorem preStall_patrolNow (d : Die) (t : ThreadId) (o : Nat) (w : OpWord) :
    preStall (patrolNow d) t o w = preStall d t o w := by
  obtain ⟨k, h⟩ := patrolNow_eq d
  rw [h]; rfl

@[simp] theorem thread_patrolNow (d : Die) (t : ThreadId) : (patrolNow d).thread t = d.thread t := by
  obtain ⟨k, h⟩ := patrolNow_eq d
  rw [h]; rfl

@[simp] theorem queueFull_patrolNow (d : Die) (o : Nat) (x : BitVec 96) :
    queueFull (patrolNow d) o x = queueFull d o x := by
  obtain ⟨k, h⟩ := patrolNow_eq d
  rw [h]; rfl

@[simp] theorem gated_patrolNow (d : Die) (t : ThreadId) (o : Nat) : gated (patrolNow d) t o = gated d t o := by
  obtain ⟨k, h⟩ := patrolNow_eq d
  rw [h]; rfl

@[simp] theorem opsOf_patrolNow (d : Die) (t : ThreadId) : (patrolNow d).opsOf t = d.opsOf t := by
  obtain ⟨k, h⟩ := patrolNow_eq d
  rw [h]; rfl

@[simp] theorem reg_patrolNow (d : Die) (o : Nat) : (patrolNow d).reg o = d.reg o := by
  obtain ⟨k, h⟩ := patrolNow_eq d
  rw [h]; rfl

@[simp] theorem flag_patrolNow (d : Die) (o i : Nat) : (patrolNow d).flag o i = d.flag o i := by
  obtain ⟨k, h⟩ := patrolNow_eq d
  rw [h]; rfl

@[simp] theorem get_patrolNow (d : Die) (f : Fld) : (patrolNow d).get f = d.get f := by
  obtain ⟨k, h⟩ := patrolNow_eq d
  rw [h]; rfl

/-- A die that can issue is active. -/
theorem active_of_canIssue {d : Die} {t : ThreadId} (h : canIssue d t = true) : d.run = .active := by
  simp only [canIssue, seqRuns, Bool.and_eq_true, decide_eq_true_eq] at h
  exact h.1.1.1.1

theorem atActive_eq (s : State) (p : PDie) (f : State → State) (h : (s.die p).run = .active) :
    s.atActive p f = s.ranAt p f := by
  simp [State.atActive, h, State.atDie, State.ranAt]

theorem ran_eq (s : State) (p : PDie) (g : Die → Die) : s.ran p g = s.ranAt p (fun s => s.modDie p g) := rfl

/-- A command at an active die, where its effect there is `g`. -/
theorem onDie_eq (s : State) (p : PDie) (f g : Die → Die) (h : (s.die p).run = .active)
    (e : f (patrolNow (s.die p)) = g (patrolNow (s.die p))) : s.onDie p f = s.ran p g := by
  unfold State.onDie
  rw [atActive_eq s p _ h]
  simp [State.ranAt, State.ran, State.modDie, e]

/-- What the taking of a bead can do: the bead leaves the front of the inbox, or nothing happens (R217). -/
theorem fromInbox_cases (s : State) (p : Nat) (ok : Bool) (f : Frame) (k : State → State) :
    s.fromInbox p ok f k = s ∨ ∃ rest, ok = true ∧ (s.die p).inbox = f :: rest ∧
      s.fromInbox p ok f k = k (s.modDie p (fun d => { d with inbox := rest })) := by
  unfold State.fromInbox
  cases h : (s.die p).inbox with
  | nil => exact .inl rfl
  | cons g rest =>
    by_cases c : ok = true ∧ g = f
    · exact .inr ⟨rest, c.1, by rw [c.2], by simp [c.1, c.2]⟩
    · exact .inl (by simp only [Bool.and_eq_true, decide_eq_true_eq, if_neg c])

/-- A command at a die that is not active changes nothing. -/
theorem onDie_inactive (s : State) (p : PDie) (f : Die → Die) (h : (s.die p).run ≠ .active) : s.onDie p f = s := by
  simp [State.onDie, State.atActive, h]

end Sys2Proof.Machine
end

