-- ==== Sys2Proof/Laws/Bytes.lean ====
section
/-! SUPPORT. Laws of little-endian bytes and of sealed packets: what is laid out is read back, and a packet that the
port seals passes its CRC. -/

namespace Sys2Proof.Machine

@[simp] theorem leBytes_length (n v : Nat) : (leBytes n v).length = n := by
  induction n generalizing v with
  | zero => rfl
  | succ n ih => simp [leBytes, ih]

/-- Little-endian bytes spell their number, cut to their width. -/
theorem leNat_leBytes (n v : Nat) : leNat (leBytes n v) = v % 256 ^ n := by
  induction n generalizing v with
  | zero => simp [leBytes, leNat, Nat.mod_one]
  | succ n ih =>
    simp only [leBytes, leNat, ih, BitVec.toNat_ofNat]
    rw [show 256 ^ (n + 1) = 256 * 256 ^ n from Nat.pow_succ', Nat.mod_mul]

/-- A slice that ends with the bytes is the bytes' tail. -/
theorem sliceB_append (xs ys : Bytes) : sliceB (xs ++ ys) xs.length ys.length = ys := by
  simp [sliceB]

/-- A slice within the first of two runs of bytes. -/
theorem sliceB_append_left (xs ys : Bytes) (o n : Nat) (h : o + n ≤ xs.length) :
    sliceB (xs ++ ys) o n = sliceB xs o n := by
  have hd : o ≤ xs.length := by omega
  simp only [sliceB, List.drop_append_of_le_length hd]
  have hl : n ≤ (xs.drop o).length := by simp; omega
  rw [List.take_append_of_le_length hl]

theorem sliceB_length (bs : Bytes) (o n : Nat) : (sliceB bs o n).length = n := by
  simp only [sliceB, List.length_append, List.length_take, List.length_drop, List.length_replicate]
  omega

/-- A number laid out behind other bytes is read back. -/
theorem natAt_append_leBytes (xs : Bytes) (n v : Nat) : natAt (xs ++ leBytes n v) xs.length n = v % 256 ^ n := by
  have h := sliceB_append xs (leBytes n v)
  rw [leBytes_length] at h
  rw [natAt, h, leNat_leBytes]

/-- A sealed packet passes its CRC (R313). -/
theorem crcOk_sealPkt (hdr : Nat) (body : Bytes) : crcOk (sealPkt hdr body) = true := by
  have hl : (sealPkt hdr body).length - 4 = (leBytes 16 hdr ++ body).length := by simp [sealPkt]; omega
  have h20 : 20 ≤ (sealPkt hdr body).length := by simp [sealPkt]; omega
  simp only [crcOk, Bool.and_eq_true, decide_eq_true_eq]
  refine ⟨h20, ?_⟩
  rw [hl]
  simp only [sealPkt, List.take_left, natAt_append_leBytes]
  have := (crc32 (leBytes 16 hdr ++ body)).isLt
  omega

end Sys2Proof.Machine
end

