-- ==== Sys2Proof/Laws/Xmss.lean ====
section
/-! SUPPORT. Laws of the XMSS verification of R403: for every public seed there is a root under which every message has
a signature that verifies. What is signed is never evaluated. -/

namespace Sys2Proof.Machine

/-! ## Lengths -/

theorem chiRow_length (p q r s t : Lane) : (chiRow [p, q, r, s, t]).length = 5 := rfl

theorem keccakRound_length (st : List Lane) (rc : Lane) : (keccakRound st rc).length = 25 := by
  simp [keccakRound, rhoPi, chiRow]

theorem keccakF_length {st : List Lane} (h : st.length = 25) : (keccakF st).length = 25 := by
  have go : ∀ (rcs : List Lane) (s : List Lane), s.length = 25 → (rcs.foldl keccakRound s).length = 25 := by
    intro rcs
    induction rcs with
    | nil => exact fun _ h => h
    | cons rc rest ih => exact fun s _ => ih _ (keccakRound_length s rc)
  exact go _ st h

theorem absorb_length (n : Nat) : ∀ (a : List Lane) (bs : Bytes), a.length = 25 → (absorb n a bs).length = 25 := by
  induction n with
  | zero => exact fun _ _ h => h
  | succ n ih =>
    intro a bs h
    unfold absorb
    split
    · exact h
    · exact ih _ _ (keccakF_length (by simpa using h))

/-- A digest has 32 bytes. -/
@[simp] theorem shake256_length (m : Bytes) : (shake256 m).length = 32 := by
  have lanes : ∀ l : List Lane, (l.flatMap (fun x => leBytes 8 x.toNat)).length = 8 * l.length := by
    intro l
    induction l with
    | nil => rfl
    | cons x xs ih => simp [ih]; omega
  have e : ceilDiv 32 136 = 1 := by decide
  have k := absorb_length
  simp only [shake256, sponge, e, squeeze, List.length_take, List.length_append, lanes]
  rw [k _ _ _ (by simp)]
  decide

@[simp] theorem chainHash_length (seed : Bytes) (a : HashAdr) (x : Bytes) : (chainHash seed a x).length = 32 :=
  shake256_length _

theorem chain_length (seed : Bytes) (a : HashAdr) (n i : Nat) {x : Bytes} (h : x.length = 32) :
    (chain seed a n i x).length = 32 := by
  induction n generalizing i x with
  | zero => exact h
  | succ n ih => exact ih _ (chainHash_length _ _ _)

/-- A message of 32 bytes has 67 digits, each below 16. -/
theorem otsDigits_length {m : Bytes} (h : m.length = 32) : (otsDigits m).length = 67 := by
  have go : ∀ l : Bytes, (l.flatMap (fun b => [b.toNat / 16, b.toNat % 16])).length = 2 * l.length := by
    intro l
    induction l with
    | nil => rfl
    | cons x xs ih => simp [ih]; omega
  simp [otsDigits, go, h]

theorem otsDigits_lt {m : Bytes} {d : Nat} (h : d ∈ otsDigits m) : d < 16 := by
  simp only [otsDigits, List.mem_append, List.mem_flatMap, List.mem_cons, List.not_mem_nil, or_false] at h
  rcases h with ⟨b, _, rfl | rfl⟩ | rfl | rfl | rfl
  · have := b.isLt; omega
  all_goals omega

/-! ## Chains and elements -/

/-- Steps of a chain follow one another. -/
theorem chain_chain (seed : Bytes) (a : HashAdr) (n m i : Nat) (x : Bytes) :
    chain seed a n (i + m) (chain seed a m i x) = chain seed a (m + n) i x := by
  induction m generalizing i x with
  | zero => simp [chain]
  | succ m ih =>
    rw [show m + 1 + n = (m + n) + 1 by omega]
    simp only [chain]
    rw [← ih, show i + (m + 1) = i + 1 + m by omega]

/-- An element of a string of 32-byte elements. -/
theorem elem_flatten (l : List Bytes) (tail : Bytes) (h : ∀ x ∈ l, x.length = 32) (i : Nat) (hi : i < l.length) :
    elem (l.flatten ++ tail) i = l[i] := by
  induction l generalizing i with
  | nil => simp at hi
  | cons x xs ih =>
    have hx : x.length = 32 := h x (by simp)
    cases i with
    | zero => simp [elem, sliceB, hx]
    | succ i =>
      have e : elem ((x :: xs).flatten ++ tail) (i + 1) = elem (xs.flatten ++ tail) i := by
        simp only [elem, sliceB, List.flatten_cons, List.append_assoc]
        rw [show 32 * (i + 1) = x.length + 32 * i by omega, List.drop_append, List.drop_of_length_le (by omega)]
        simp
      rw [e]
      exact ih (fun y hy => h y (by simp [hy])) i (by simpa using hi)

theorem flatten_length (l : List Bytes) (h : ∀ x ∈ l, x.length = 32) : l.flatten.length = 32 * l.length := by
  induction l with
  | nil => rfl
  | cons x xs ih =>
    have := ih fun y hy => h y (by simp [hy])
    have := h x (by simp)
    simp only [List.flatten_cons, List.length_append, List.length_cons]
    omega

/-! ## A key and its signatures -/

/-- The start of every chain, and every node of the authentication path, of the key below. -/
def blankNode : Bytes := List.replicate 32 0

/-- The root of a key: leaf 0 of chains that start blank, in a tree whose other nodes on the path are blank. -/
def blankRoot (seed : Bytes) (h : Nat) : Bytes :=
  climb seed 0 0 0 0 (List.replicate h blankNode) (leafOf seed { kind := 1 }
    (tabulate otsChains fun i => chain seed { kind := 0, w2 := i } 15 0 blankNode))

/-- The chain elements of a signature under it, the path after them. -/
def blankParts (seed : Bytes) (h : Nat) (digest : Bytes) : List Bytes :=
  (otsDigits digest).mapIdx (fun i d => chain seed { kind := 0, w2 := i } d 0 blankNode) ++ List.replicate h blankNode

/-- A signature of a message under it, with index 0. -/
def blankSign (seed : Bytes) (h : Nat) (msg : Bytes) : Bytes :=
  List.replicate 36 0 ++ (blankParts seed h (msgDigest blankNode (blankRoot seed h) 0 msg)).flatten

theorem msgDigest_length (rand root : Bytes) (idx : Nat) (msg : Bytes) : (msgDigest rand root idx msg).length = 32 :=
  shake256_length _

theorem blankParts_all (seed : Bytes) (h : Nat) (digest : Bytes) : ∀ x ∈ blankParts seed h digest, x.length = 32 := by
  intro x hx
  simp only [blankParts, List.mem_append, List.mem_mapIdx, List.mem_replicate] at hx
  rcases hx with ⟨i, _, rfl⟩ | ⟨_, rfl⟩
  · exact chain_length _ _ _ _ (by simp [blankNode])
  · simp [blankNode]

theorem blankParts_length (seed : Bytes) (h : Nat) {digest : Bytes} (hd : digest.length = 32) :
    (blankParts seed h digest).length = 67 + h := by
  simp [blankParts, otsDigits_length hd]

theorem blankSign_length (seed : Bytes) (h : Nat) (msg : Bytes) :
    (blankSign seed h msg).length = 36 + 32 * (otsChains + h) := by
  simp only [blankSign, List.length_append, List.length_replicate]
  rw [flatten_length _ (blankParts_all _ _ _), blankParts_length _ _ (msgDigest_length _ _ _ _)]
  rfl

/-- The one-time part and the path lead to the root. -/
theorem rootFrom_blankParts (seed : Bytes) (h : Nat) {digest : Bytes} (hd : digest.length = 32) :
    rootFrom seed 0 0 0 h digest (blankParts seed h digest).flatten = blankRoot seed h := by
  have el : ∀ i (hi : i < (blankParts seed h digest).length),
      elem (blankParts seed h digest).flatten i = (blankParts seed h digest)[i] := by
    intro i hi
    have := elem_flatten (blankParts seed h digest) [] (blankParts_all _ _ _) i hi
    simpa using this
  have len := blankParts_length seed h hd
  have path : (tabulate h fun i => elem (blankParts seed h digest).flatten (otsChains + i)) =
      List.replicate h blankNode := by
    apply List.ext_getElem
    · simp [tabulate]
    · intro i h1 _
      have hi : i < h := by simpa [tabulate] using h1
      have : otsChains + i < (blankParts seed h digest).length := by rw [len, otsChains]; omega
      simp only [tabulate, List.getElem_map, List.getElem_range, List.getElem_replicate, el _ this]
      simp only [blankParts]
      rw [List.getElem_append_right (by simp [otsDigits_length hd, otsChains])]
      simp
  have ends : otsEnds seed { kind := 0 } digest (blankParts seed h digest).flatten =
      tabulate otsChains fun i => chain seed { kind := 0, w2 := i } 15 0 blankNode := by
    apply List.ext_getElem
    · simp [otsEnds, tabulate, otsDigits_length hd, otsChains]
    · intro i h1 _
      have hi : i < (otsDigits digest).length := by simpa [otsEnds] using h1
      have h67 := otsDigits_length hd
      have hp : i < (blankParts seed h digest).length := by omega
      have hd' : (otsDigits digest)[i] < 16 := otsDigits_lt (List.getElem_mem hi)
      simp only [otsEnds, tabulate, List.getElem_mapIdx, List.getElem_map, List.getElem_range, el i hp]
      simp only [blankParts]
      rw [List.getElem_append_left (by simpa using hi)]
      simp only [List.getElem_mapIdx]
      have := chain_chain seed { kind := 0, w2 := i } (15 - (otsDigits digest)[i]) (otsDigits digest)[i] 0 blankNode
      simp only [Nat.zero_add] at this
      rw [this, show (otsDigits digest)[i] + (15 - (otsDigits digest)[i]) = 15 by omega]
  simp only [rootFrom, path, ends, blankRoot]

/-- Every message has a signature that verifies under the key (R403). -/
theorem xmssVerify_blankSign {oid h : Nat} (ho : xmssHeight oid = some h) (seed msg : Bytes) :
    xmssVerify oid (blankRoot seed h) seed msg (blankSign seed h msg) = true := by
  have idx : leNat (sliceB (blankSign seed h msg) 0 4).reverse = 0 := by
    rw [blankSign, sliceB_append_left _ _ _ _ (by simp)]
    decide
  have rand : sliceB (blankSign seed h msg) 4 32 = blankNode := by
    rw [blankSign, sliceB_append_left _ _ _ _ (by simp)]
    decide
  have body : (blankSign seed h msg).drop 36 =
      (blankParts seed h (msgDigest blankNode (blankRoot seed h) 0 msg)).flatten := by
    rw [blankSign, List.drop_append_of_le_length (by simp)]
    simp
  simp only [xmssVerify, ho, idx, rand, body, blankSign_length, rootFrom_blankParts seed h (msgDigest_length _ _ _ _)]
  simp

/-- The root has 32 bytes where the tree has a level. -/
theorem blankRoot_length (seed : Bytes) (h : Nat) (hh : 0 < h) : (blankRoot seed h).length = 32 := by
  have go : ∀ (p : List Bytes) (k : Nat) (x : Bytes), p ≠ [] ∨ x.length = 32 →
      (climb seed 0 0 0 k p x).length = 32 := by
    intro p
    induction p with
    | nil => intro k x hx; simpa [climb] using hx
    | cons y ys ih =>
      intro k x _
      exact ih _ _ (.inr (by split <;> exact shake256_length _))
  exact go _ _ _ (.inl (by cases h <;> simp_all [List.replicate_succ]))

end Sys2Proof.Machine
end

