-- ==== Sys2Proof/Laws/Image.lean ====
section
/-! SUPPORT. A configuration image and a firmware image that pass every check of R64 and R404: each is laid out part by
part, and each check is met by a slice of a part. Their digests and signatures are never evaluated. -/

namespace Sys2Proof.SignedImage

open Sys2Proof Sys2Proof.Machine

/-! ### Strings laid end to end -/

/-- A slice within one of the strings that make up a string. -/
theorem part_slice (l : List Bytes) (lens : List Nat) (h : l.map List.length = lens) (k i n : Nat)
    (hk : i + n ≤ lens.getD k 0) (hl : k < lens.length) :
    sliceB l.flatten ((lens.take k).sum + i) n = sliceB (l.getD k []) i n := by
  induction l generalizing lens k with
  | nil => subst h; simp at hl
  | cons x xs ih =>
    subst h
    cases k with
    | zero => simpa using sliceB_append_left x xs.flatten i n (by simpa using hk)
    | succ k =>
      have e := ih (xs.map List.length) rfl k (by simpa using hk) (by simpa using hl)
      simp only [List.map_cons, List.take_succ_cons, List.sum_cons, List.getD_cons_succ, List.flatten_cons] at e ⊢
      rw [← e]
      simp only [sliceB]
      rw [show x.length + ((xs.map List.length).take k).sum + i = x.length + (((xs.map List.length).take k).sum + i) by omega,
        List.drop_append, List.drop_of_length_le (by omega)]
      simp

/-- Any slice of zeros is zeros. -/
theorem sliceB_zeros (m o n : Nat) : sliceB (List.replicate m 0) o n = List.replicate n 0 := by
  apply List.ext_getElem
  · simp [sliceB_length]
  · intro i h1 h2
    simp [sliceB]

/-- The slice of all of a string. -/
theorem sliceB_all (bs : Bytes) : sliceB bs 0 bs.length = bs := by simp [sliceB]

/-- A sponge of one block gives the bytes that it is asked for. -/
theorem sponge_length (suffix : Byte) (msg : Bytes) (n : Nat) (h : ceilDiv n 136 = 1) (hn : n ≤ 136) :
    (sponge suffix msg n).length = n := by
  have lanes : ∀ l : List Lane, (l.flatMap (fun x => leBytes 8 x.toNat)).length = 8 * l.length := by
    intro l
    induction l with
    | nil => rfl
    | cons x xs ih => simp [ih]; omega
  have k := absorb_length
  simp only [sponge, h, squeeze, List.length_take, List.length_append, lanes]
  rw [k _ _ _ (by simp)]
  simp; omega

/-! ### A signed image -/

/-- The public seed of the keys. -/
def seed0 : Bytes := List.replicate 32 0
/-- The owner key that verifies the image, and the recovery key. -/
def ownerKey : Bytes := leBytes 4 oidXmss20 ++ blankRoot seed0 20 ++ seed0
def recoveryKey : Bytes := List.replicate 32 0
/-- The wrap tag of KEYS (R395). -/
def wrapTag : Bytes := kmac256 (wrapKey recoveryKey) (List.replicate 48 0) 16 (ascii "TUZESHA-WRAP-TAG")
/-- The KEYS section, field by field. -/
def keysParts : List Bytes :=
  [leBytes 8 1, leBytes 4 oidXmss20, blankRoot seed0 20, seed0, List.replicate 52 0, wrapTag, List.replicate 48 0]
/-- The types of the sections, in the directory's order (R62). -/
def secTypes : List Nat := [1, 3, 4, 5, 6, 7, 8, 9, 0xA]
/-- Their bytes: a map with the spares off, ports disabled, routes and regions empty, engines of one rate, worlds and vendors
with nothing in them, and 720 mV on every row. -/
def secBytes : Nat → Bytes
  | 0 => tabulate 72 fun p => if p % 9 = 4 then 1 else 0
  | 1 => List.replicate 8 0
  | 3 => (List.replicate 8 (leBytes 8 (2 ^ 32))).flatten
  | 4 => leBytes 32 1
  | 6 => keysParts.flatten
  | 7 => List.replicate 1280 0
  | 8 => (List.replicate 8 (leBytes 2 720)).flatten
  | _ => List.replicate 32768 0
/-- Their lengths, offsets and padding. -/
def secLen : List Nat := [72, 8, 32768, 64, 32, 32768, 192, 1280, 16]
def secOff : List Nat := [0x400, 0x480, 0x4C0, 0x84C0, 0x8500, 0x8540, 0x10540, 0x10600, 0x10B00]
def secPad : List Nat := [56, 56, 0, 0, 32, 0, 0, 0, 48]
/-- The head of a directory entry. -/
def entry (i t : Nat) : Bytes := leBytes 16 (t + 2 ^ 16 + secOff.getD i 0 * 2 ^ 32 + secLen.getD i 0 * 2 ^ 64)
/-- The header's first 64 bytes (R61). -/
def hdr : Bytes := leBytes 64 (0x49435A54 + 2 ^ 32 + 9 * 2 ^ 48 + (0x10B40 + 2820) * 2 ^ 64 + 0x10B40 * 2 ^ 160)
/-- Header, directory, and sections with their padding. -/
def partsOf (digest : Bytes → Bytes) (sec : Nat → Bytes) : List Bytes :=
  [hdr] ++ (secTypes.mapIdx fun i t => [entry i t, digest (sec i)]).flatten ++ [List.replicate 528 0] ++
    (secTypes.mapIdx fun i _ => [sec i, List.replicate (secPad.getD i 0) 0]).flatten
/-- What the signature covers. -/
def signedParts : List Bytes := partsOf shake256 secBytes
def signedBytes : Bytes := signedParts.flatten
/-- The image: the signed bytes and their signature. -/
def goodImage : Bytes := (signedParts ++ [blankSign seed0 20 signedBytes]).flatten

/-- The lengths of the parts. -/
def keysLens : List Nat := [8, 4, 32, 32, 52, 16, 48]
def partLens : List Nat :=
  [64, 16, 32, 16, 32, 16, 32, 16, 32, 16, 32, 16, 32, 16, 32, 16, 32, 16, 32, 528,
    72, 56, 8, 56, 32768, 0, 64, 0, 32, 32, 32768, 0, 192, 0, 1280, 0, 16, 48]

theorem wrapTag_length : wrapTag.length = 16 := sponge_length _ _ _ (by decide) (by decide)
theorem keys_lens : keysParts.map List.length = keysLens := by
  simp [keysParts, keysLens, wrapTag_length, blankRoot_length, seed0]
theorem keys_length : keysParts.flatten.length = 192 := by
  rw [List.length_flatten, keys_lens]; rfl
theorem signed_lens : signedParts.map List.length = partLens := by
  have : (keysParts.map List.length).sum = 192 := by rw [keys_lens]; rfl
  simp [-List.reduceReplicate, signedParts, partsOf, hdr, secTypes, secBytes, partLens, entry, this, tabulate, secPad]
theorem image_lens : (signedParts ++ [blankSign seed0 20 signedBytes]).map List.length = partLens ++ [2820] := by
  rw [List.map_append, signed_lens]
  simp [blankSign_length, otsChains]

/-- A slice of the image that lies in one part. -/
theorem image_slice (k i n : Nat) (o : Nat) (b : Bytes) (ho : o = ((partLens ++ [2820]).take k).sum + i)
    (hk : i + n ≤ (partLens ++ [2820]).getD k 0) (hl : k < 39)
    (hb : (signedParts ++ [blankSign seed0 20 signedBytes]).getD k [] = b) : sliceB goodImage o n = sliceB b i n := by
  subst ho hb
  exact part_slice _ _ image_lens k i n hk hl

theorem hdr_slice (o n : Nat) (h : o + n ≤ 64) : sliceB goodImage o n = sliceB hdr o n :=
  image_slice 0 o n o _ (by simp) (by simpa [partLens] using h) (by decide) rfl

def ent (i : Nat) : Bytes := entry i (secTypes.getD i 0)

theorem ent_slice (i : Nat) (hi : i < 9) (j n : Nat) (h : j + n ≤ 16) :
    sliceB goodImage (0x40 + 48 * i + j) n = sliceB (ent i) j n := by
  have : i = 0 ∨ i = 1 ∨ i = 2 ∨ i = 3 ∨ i = 4 ∨ i = 5 ∨ i = 6 ∨ i = 7 ∨ i = 8 := by omega
  rcases this with rfl | rfl | rfl | rfl | rfl | rfl | rfl | rfl | rfl
  · exact image_slice 1 j n _ _ (by simp [partLens]) (by simpa [partLens] using h) (by decide) rfl
  · exact image_slice 3 j n _ _ (by simp [partLens]) (by simpa [partLens] using h) (by decide) rfl
  · exact image_slice 5 j n _ _ (by simp [partLens]) (by simpa [partLens] using h) (by decide) rfl
  · exact image_slice 7 j n _ _ (by simp [partLens]) (by simpa [partLens] using h) (by decide) rfl
  · exact image_slice 9 j n _ _ (by simp [partLens]) (by simpa [partLens] using h) (by decide) rfl
  · exact image_slice 11 j n _ _ (by simp [partLens]) (by simpa [partLens] using h) (by decide) rfl
  · exact image_slice 13 j n _ _ (by simp [partLens]) (by simpa [partLens] using h) (by decide) rfl
  · exact image_slice 15 j n _ _ (by simp [partLens]) (by simpa [partLens] using h) (by decide) rfl
  · exact image_slice 17 j n _ _ (by simp [partLens]) (by simpa [partLens] using h) (by decide) rfl

/-- Where the parts stand. -/
theorem digest_part (d : Bytes → Bytes) (f : Nat → Bytes) (t : Bytes) (i : Nat) (hi : i < 9) :
    (partsOf d f ++ [t]).getD (2 + 2 * i) [] = d (f i) := by
  have : i = 0 ∨ i = 1 ∨ i = 2 ∨ i = 3 ∨ i = 4 ∨ i = 5 ∨ i = 6 ∨ i = 7 ∨ i = 8 := by omega
  rcases this with rfl | rfl | rfl | rfl | rfl | rfl | rfl | rfl | rfl <;> rfl

theorem sec_part (d : Bytes → Bytes) (f : Nat → Bytes) (t : Bytes) (i : Nat) (hi : i < 9) :
    (partsOf d f ++ [t]).getD (20 + 2 * i) [] = f i := by
  have : i = 0 ∨ i = 1 ∨ i = 2 ∨ i = 3 ∨ i = 4 ∨ i = 5 ∨ i = 6 ∨ i = 7 ∨ i = 8 := by omega
  rcases this with rfl | rfl | rfl | rfl | rfl | rfl | rfl | rfl | rfl <;> rfl

theorem lens_at : ∀ i, i < 9 → 0x40 + 48 * i + 16 = ((partLens ++ [2820]).take (2 + 2 * i)).sum + 0 ∧
    0 + 32 = (partLens ++ [2820]).getD (2 + 2 * i) 0 ∧
    secOff.getD i 0 = ((partLens ++ [2820]).take (20 + 2 * i)).sum ∧
    secLen.getD i 0 = (partLens ++ [2820]).getD (20 + 2 * i) 0 := by decide

theorem digest_at (i : Nat) (hi : i < 9) :
    sliceB goodImage (0x40 + 48 * i + 16) 32 = shake256 (secBytes i) := by
  have all : ∀ m : Bytes, sliceB (shake256 m) 0 32 = shake256 m := fun m => by
    conv_lhs => rw [← shake256_length m]
    exact sliceB_all _
  obtain ⟨h1, h2, -⟩ := lens_at i hi
  rw [image_slice (2 + 2 * i) 0 32 _ _ h1 h2.le (by omega) (digest_part shake256 secBytes _ i hi), all]

/-- A slice of a section. -/
theorem sec_slice (i : Nat) (hi : i < 9) (j n : Nat) (h : j + n ≤ secLen.getD i 0) :
    sliceB goodImage (secOff.getD i 0 + j) n = sliceB (secBytes i) j n := by
  obtain ⟨-, -, h3, h4⟩ := lens_at i hi
  exact image_slice (20 + 2 * i) j n _ _ (by rw [h3]) (by rw [← h4]; exact h) (by omega) (sec_part shake256 secBytes _ i hi)

theorem sec_len (i : Nat) (hi : i < 9) : (secBytes i).length = secLen.getD i 0 := by
  obtain ⟨-, -, -, h4⟩ := lens_at i hi
  rw [h4, ← image_lens, ← sec_part shake256 secBytes (blankSign seed0 20 signedBytes) i hi]
  exact (List.getD_map _ [] List.length).symm

theorem sec_whole (i : Nat) (hi : i < 9) :
    sliceB goodImage (secOff.getD i 0) (secLen.getD i 0) = secBytes i := by
  have := sec_slice i hi 0 (secLen.getD i 0) (by omega)
  rw [Nat.add_zero] at this
  rw [this, ← sec_len i hi, sliceB_all]

/-- What the directory says. -/
theorem entries (i : Nat) (hi : i < 9) :
    natAt goodImage (0x40 + 48 * i) 2 = secTypes.getD i 0 ∧ natAt goodImage (0x42 + 48 * i) 2 = 1 ∧
    natAt goodImage (0x44 + 48 * i) 4 = secOff.getD i 0 ∧ natAt goodImage (0x48 + 48 * i) 4 = secLen.getD i 0 ∧
    zeroAt goodImage (0x40 + 48 * i + 12) 4 = true := by
  have e := ent_slice i hi
  have k : ∀ i, i < 9 → natAt (ent i) 0 2 = secTypes.getD i 0 ∧ natAt (ent i) 2 2 = 1 ∧
      natAt (ent i) 4 4 = secOff.getD i 0 ∧ natAt (ent i) 8 4 = secLen.getD i 0 ∧ zeroAt (ent i) 12 4 = true := by decide +kernel
  obtain ⟨k1, k2, k3, k4, k5⟩ := k i hi
  refine ⟨?_, ?_, ?_, ?_, ?_⟩
  · rw [← k1, natAt, natAt, ← e 0 2 (by omega)]; rfl
  · rw [← k2, natAt, natAt, ← e 2 2 (by omega), show 0x40 + 48 * i + 2 = 0x42 + 48 * i by omega]
  · rw [← k3, natAt, natAt, ← e 4 4 (by omega), show 0x40 + 48 * i + 4 = 0x44 + 48 * i by omega]
  · rw [← k4, natAt, natAt, ← e 8 4 (by omega), show 0x40 + 48 * i + 8 = 0x48 + 48 * i by omega]
  · rw [zeroAt, e 12 4 (by omega)]; exact k5

/-- Where a section is found. -/
theorem section_at (t : Nat) : imageSection goodImage t =
    ((List.range 9).find? fun i => decide (secTypes.getD i 0 = t)).map fun i => (secOff.getD i 0, secLen.getD i 0) := by
  have n : natAt goodImage 6 2 = 9 := by rw [natAt, hdr_slice 6 2 (by decide)]; decide
  rw [imageSection, n]
  have c : ∀ i ∈ List.range 9, decide (natAt goodImage (0x40 + 48 * i) 2 = t) = decide (secTypes.getD i 0 = t) := by
    intro i hi
    rw [(entries i (List.mem_range.1 hi)).1]
  rw [List.find?_congr c]
  refine Option.map_congr fun i hi => ?_
  have := entries i (List.mem_range.1 (List.mem_of_find?_eq_some hi))
  rw [this.2.2.1, this.2.2.2.1]

theorem section_bytes (i : Nat) (hi : i < 9) : sectionBytes goodImage (secTypes.getD i 0) = secBytes i := by
  have f : ∀ i, i < 9 → ((List.range 9).find? fun j => decide (secTypes.getD j 0 = secTypes.getD i 0)) = some i := by decide
  rw [sectionBytes, section_at, f i hi]
  exact sec_whole i hi

theorem section1 : sectionBytes goodImage 1 = secBytes 0 := section_bytes 0 (by decide)
theorem section3 : sectionBytes goodImage 3 = secBytes 1 := section_bytes 1 (by decide)
theorem section4 : sectionBytes goodImage 4 = secBytes 2 := section_bytes 2 (by decide)
theorem section5 : sectionBytes goodImage 5 = secBytes 3 := section_bytes 3 (by decide)
theorem section6 : sectionBytes goodImage 6 = secBytes 4 := section_bytes 4 (by decide)
theorem section7 : sectionBytes goodImage 7 = secBytes 5 := section_bytes 5 (by decide)
theorem section8 : sectionBytes goodImage 8 = secBytes 6 := section_bytes 6 (by decide)
theorem section9 : sectionBytes goodImage 9 = secBytes 7 := section_bytes 7 (by decide)
theorem sectionA : sectionBytes goodImage 0xA = secBytes 8 := section_bytes 8 (by decide)

theorem hdr_nat (o n v : Nat) (h : o + n ≤ 64) (e : natAt hdr o n = v) : natAt goodImage o n = v := by
  rw [natAt, hdr_slice o n h, ← natAt, e]

theorem magic_at : natAt goodImage 0 4 = 0x49435A54 := hdr_nat _ _ _ (by decide) (by decide)
theorem format_at : natAt goodImage 4 2 = 1 := hdr_nat _ _ _ (by decide) (by decide)
theorem count_at : natAt goodImage 6 2 = 9 := hdr_nat _ _ _ (by decide) (by decide)
theorem length_at : natAt goodImage 8 4 = 0x10B40 + 2820 := hdr_nat _ _ _ (by decide) (by decide)
theorem package_at : natAt goodImage 0x10 2 = 0 := hdr_nat _ _ _ (by decide) (by decide)
theorem flags_at : natAt goodImage 0x12 2 = 0 := hdr_nat _ _ _ (by decide) (by decide)
theorem signature_at : natAt goodImage 0x14 4 = 0x10B40 := hdr_nat _ _ _ (by decide) (by decide)

/-! ### Its checks -/

theorem header_ok : headerChk goodImage = true := by
  simp [headerChk, magic_at, format_at, length_at, sigBytes, imageArea]

theorem digests_ok : digestChk goodImage = true := by
  simp only [digestChk, count_at, List.all_eq_true, decide_eq_true_eq, List.mem_range]
  intro i hi
  have hi : i < 9 := by omega
  have e := entries i hi
  simp only [dirEntry]
  rw [show 0x40 + 48 * i + 4 = 0x44 + 48 * i by omega, show 0x40 + 48 * i + 8 = 0x48 + 48 * i by omega, e.2.2.1, e.2.2.2.1,
    digest_at i hi, sec_whole i hi]

theorem zero_slack : zeroAt goodImage (0x40 + 48 * 9) (48 * 7) = true ∧ zeroAt goodImage 0x340 192 = true := by
  have z := fun j n h => image_slice 19 j n _ _ rfl h (by decide) rfl
  constructor
  · rw [zeroAt, show 0x40 + 48 * 9 = ((partLens ++ [2820]).take 19).sum + 0 by decide, z 0 (48 * 7) (by decide)]
    exact (by decide +kernel : (sliceB (List.replicate 528 0) 0 (48 * 7)).all (fun b => decide (b = (0 : Byte))) = true)
  · rw [zeroAt, show 0x340 = ((partLens ++ [2820]).take 19).sum + 336 by decide, z 336 192 (by decide)]
    exact (by decide +kernel : (sliceB (List.replicate 528 0) 336 192).all (fun b => decide (b = (0 : Byte))) = true)

theorem headerLayout_ok : headerLayout goodImage = true := by
  have z := zero_slack
  have h : zeroAt goodImage 0x18 40 = true := by rw [zeroAt, hdr_slice _ _ (by decide)]; decide
  simp only [headerLayout, count_at, length_at, package_at, flags_at, signature_at, h, z.1, z.2]
  decide

theorem directory_eq : directory goodImage =
    tabulate 9 fun i => (secTypes.getD i 0, 1, secOff.getD i 0, secLen.getD i 0) := by
  simp only [directory, count_at, tabulate]
  refine List.map_congr_left fun i hi => ?_
  have e := entries i (List.mem_range.1 hi)
  simp only [dirEntry]
  rw [show 0x40 + 48 * i + 4 = 0x44 + 48 * i by omega, show 0x40 + 48 * i + 8 = 0x48 + 48 * i by omega,
    show 0x40 + 48 * i + 2 = 0x42 + 48 * i by omega, e.1, e.2.1, e.2.2.1, e.2.2.2.1]

theorem directoryLayout_ok : directoryLayout goodImage = true := by
  have z : (List.range (directory goodImage).length).all (fun i => zeroAt goodImage (0x40 + 48 * i + 12) 4) = true := by
    rw [List.all_eq_true]
    intro i hi
    exact (entries i (by simpa [directory_eq, tabulate] using hi)).2.2.2.2
  simp only [directoryLayout, z]
  simp only [directory_eq, flags_at, signature_at]
  decide +kernel

theorem signature_ok : signatureChk (some (ownerKey, recoveryKey)) goodImage = true := by
  have len : signedBytes.length = 0x10B40 := by
    rw [signedBytes, List.length_flatten, signed_lens]; decide
  have sig : (blankSign seed0 20 signedBytes).length = 2820 := by simp [blankSign_length, otsChains]
  have img : goodImage = signedBytes ++ blankSign seed0 20 signedBytes := by simp [goodImage, signedBytes]
  have a : sliceB goodImage 0 0x10B40 = signedBytes := by
    rw [img, ← len, sliceB_append_left _ _ _ _ (by omega), sliceB_all]
  have b : sliceB goodImage 0x10B40 2820 = blankSign seed0 20 signedBytes := by
    rw [img, ← len, ← sig, sliceB_append]
  have r := blankRoot_length seed0 20 (by decide)
  have k0 : natAt ownerKey 0 4 = oidXmss20 := by
    rw [natAt, ownerKey, List.append_assoc, sliceB_append_left _ _ _ _ (by simp)]; decide
  have k1 : sliceB ownerKey 4 32 = blankRoot seed0 20 := by
    rw [ownerKey, sliceB_append_left _ _ _ _ (by simp [r])]
    have := sliceB_append (leBytes 4 oidXmss20) (blankRoot seed0 20)
    rwa [leBytes_length, r] at this
  have k2 : sliceB ownerKey 36 32 = seed0 := by
    have := sliceB_append (leBytes 4 oidXmss20 ++ blankRoot seed0 20) seed0
    rwa [List.length_append, leBytes_length, r] at this
  simp only [signatureChk, signature_at, k0, k1, k2, a, sigBytes, b]
  rw [xmssVerify_blankSign (by decide)]
  decide

/-- Slices of the KEYS section. -/
theorem keys_slice (k i n o : Nat) (b : Bytes) (ho : o = (keysLens.take k).sum + i) (hk : i + n ≤ keysLens.getD k 0)
    (hl : k < 7) (hb : keysParts.getD k [] = b) : sliceB (secBytes 6) o n = sliceB b i n := by
  subst ho hb
  exact part_slice _ _ keys_lens k i n hk hl

theorem keysParts_getD (a b c d e f g : Bytes) : [a, b, c, d, e, f, g].getD 5 [] = f ∧ [a, b, c, d, e, f, g].getD 2 [] = c :=
  ⟨rfl, rfl⟩

theorem keys_zero (k i n o m : Nat) (ho : o = (keysLens.take k).sum + i) (hk : i + n ≤ keysLens.getD k 0)
    (hl : k < 7) (hb : keysParts.getD k [] = List.replicate m 0) : zeroAt (secBytes 6) o n = true := by
  rw [zeroAt, keys_slice k i n o _ ho hk hl hb, sliceB_zeros]
  simp

theorem keysOk_ok : keysOk (secBytes 6) = true := by
  have a : natAt (secBytes 6) 0 2 = 1 := by rw [natAt, keys_slice 0 0 2 0 _ rfl (by decide) (by decide) rfl]; decide
  have b : zeroAt (secBytes 6) 2 2 = true := by rw [zeroAt, keys_slice 0 2 2 2 _ rfl (by decide) (by decide) rfl]; decide
  simp [keysOk, a, b, keys_zero 4 0 4 76 52 rfl (by decide) (by decide) rfl,
    keys_zero 6 36 12 180 48 rfl (by decide) (by decide) rfl]

theorem sectionsOk_ok : sectionsOk goodImage = true := by
  have t : ((directory goodImage).map (·.1)).contains 0xB = false := by rw [directory_eq]; decide
  have z : ∀ l, tableOk (tableOf (sliceB (secBytes 5) (512 * l) 512)) = true := by
    intro l
    rw [show secBytes 5 = List.replicate 32768 0 from rfl, sliceB_zeros,
      (by decide +kernel : tableOf (List.replicate 512 0) = List.replicate 64 (0, 0))]
    decide +kernel
  have c : (secBytes 2).all (fun b => decide (bitsOf b.toNat 6 3 = 0)) = true := by
    rw [show secBytes 2 = List.replicate 32768 0 from rfl, List.all_replicate]; decide
  simp only [sectionsOk, section1, section3, section4, section5, section6, section7, section8, section9, t, z, c, keysOk_ok]
  decide +kernel

theorem portsOk_ok : portsOk goodImage = true := by
  have c : ∀ w, sliceB (sectionBytes goodImage 4) (4096 * w) 4096 = List.replicate 4096 0 := by
    intro w; rw [section4, show secBytes 2 = List.replicate 32768 0 from rfl, sliceB_zeros]
  simp only [portsOk, c, section3, package_at, List.all_replicate]
  decide +kernel

theorem railsOk_ok : railsOk goodImage = true := by
  simp only [railsOk, section5, sectionA]
  decide +kernel

/-- The default snake, row by row. -/
def snakeRows : List (List Nat) :=
  [[0, 1, 2, 3, 5, 6, 7, 8], [17, 16, 15, 14, 12, 11, 10, 9],
    [18, 19, 20, 21, 23, 24, 25, 26], [35, 34, 33, 32, 30, 29, 28, 27],
    [36, 37, 38, 39, 41, 42, 43, 44], [53, 52, 51, 50, 48, 47, 46, 45],
    [54, 55, 56, 57, 59, 60, 61, 62], [71, 70, 69, 68, 66, 65, 64, 63]]

theorem snake_eq : tabulate 64 defaultSnake = snakeRows.flatten := by decide +kernel

theorem mapOk_ok : mapOk goodImage = true := by
  have n : imageSection goodImage 2 = none := by rw [section_at]; decide
  have e : snakeOf goodImage = defaultSnake := funext fun k => by rw [snakeOf, n]
  have a : snakeRows.flatten.all (fun p => decide (p < 72) && decide (natAt (secBytes 0) p 1 = 0)) = true := by
    decide +kernel
  have b : (List.range 72).all (fun p => snakeRows.flatten.contains p || decide (natAt (secBytes 0) p 1 ≠ 0)) = true := by
    decide +kernel
  have c : snakeRows.flatten.Nodup := by decide +kernel
  have f : (List.range 64).all (fun k => decide (defaultSnake k / 9 = k / 8)) = true := by decide +kernel
  simp only [mapOk, section1, e, snake_eq, a, b, c, f, decide_true, Bool.and_self]

/-- The image passes every check (R64). -/
theorem imageChk_goodImage : imageChk (some (ownerKey, recoveryKey)) goodImage = none := by
  simp [imageChk, header_ok, signature_ok, digests_ok, headerLayout_ok, directoryLayout_ok, sectionsOk_ok, portsOk_ok,
    railsOk_ok, mapOk_ok]

/-- Its wrap tag verifies (R395). -/
theorem wrapOk_goodImage : wrapOk recoveryKey (sectionBytes goodImage 8) = true := by
  rw [section8, wrapOk, keys_slice 4 4 48 80 (List.replicate 52 0) rfl (by decide) (by decide) rfl,
    keys_slice 5 0 16 128 wrapTag rfl (by decide) (by decide) (keysParts_getD _ _ _ _ _ _ _).1, sliceB_zeros]
  have : sliceB wrapTag 0 16 = wrapTag := by
    conv_lhs => rw [← wrapTag_length]
    exact sliceB_all _
  rw [this, wrapTag]
  simp only [decide_true]

/-! ### The NOR that holds it -/

theorem tabSlice_getElem (d : Nat → Byte) (t : List Host.Cell) (k n : Nat) :
    tabSlice d t k n = (List.range n).map fun i => tabGet d t (k + i) := by
  induction n generalizing k with
  | zero => rfl
  | succ n ih =>
    rw [tabSlice, ih, List.range_succ_eq_map]
    simp [Nat.add_comm 1, Nat.add_assoc]

/-- What is laid into an empty table is read back. -/
theorem tabSlice_tabPut (d : Nat → Byte) (vs : Bytes) (n : Nat) (h : n ≤ vs.length) :
    tabSlice d (tabPut d [] 0 vs) 0 n = vs.take n := by
  rw [tabSlice_getElem]
  apply List.ext_getElem
  · simp [h]
  · intro i h1 h2
    have hi : i < vs.length := by simp at h1; omega
    simp [tabGet_tabPut, hi]

theorem goodImage_length : goodImage.length = 0x10B40 + 2820 := by
  rw [goodImage, List.length_flatten, image_lens]; decide

/-- The NOR with the image in it, and nothing else. -/
def goodNor : List Host.Cell := tabPut norFree [] 0 goodImage

/-- The boot ROM reads the image whole. -/
theorem norImage_goodNor : norImage goodNor = goodImage := by
  have l := goodImage_length
  have h : ∀ o n, o + n ≤ 64 → natAt (goodImage.take 0x400) o n = natAt goodImage o n := by
    intro o n h
    have e := sliceB_append_left (goodImage.take 0x400) (goodImage.drop 0x400) o n (by simp; omega)
    rw [List.take_append_drop] at e
    rw [natAt, ← e, ← natAt]
  have c : headerChk (goodImage.take 0x400) = true := by
    rw [headerChk, h 0 4 (by decide), h 4 2 (by decide), h 8 4 (by decide)]
    exact header_ok
  have e : tabSlice norFree goodNor 0 0x400 = goodImage.take 0x400 := tabSlice_tabPut _ _ _ (by omega)
  have w : tabSlice norFree goodNor 0 (0x10B40 + 2820) = goodImage := by
    rw [goodNor, tabSlice_tabPut _ _ _ (by omega), ← l, List.take_length]
  simp only [norImage, e, c, if_true, h 8 4 (by decide), length_at, w]

/-! ### A firmware image -/
/-- A firmware image without code (R404). -/
def fwHead : Bytes := leBytes 64 (0x57465A54 + 2 ^ 32)
def goodFirmware : Bytes := fwHead ++ blankSign seed0 20 fwHead

theorem goodFirmware_length : goodFirmware.length = 64 + 2820 := by
  rw [goodFirmware, List.length_append, blankSign_length, fwHead, leBytes_length]; rfl

/-- It passes every check (R404). -/
theorem firmwareChk_goodFirmware : firmwareChk (sectionBytes goodImage 8) goodFirmware = none := by
  have at' : ∀ o n, o + n ≤ 64 → sliceB goodFirmware o n = sliceB fwHead o n := fun o n h =>
    sliceB_append_left _ _ _ _ (by simpa [fwHead] using h)
  have nat : ∀ o n, o + n ≤ 64 → natAt goodFirmware o n = natAt fwHead o n := fun o n h => by rw [natAt, at' o n h, natAt]
  have zer : ∀ o n, o + n ≤ 64 → zeroAt goodFirmware o n = zeroAt fwHead o n := fun o n h => by rw [zeroAt, at' o n h, zeroAt]
  have len := goodFirmware_length
  have n : fwSigned goodFirmware = 64 := by rw [fwSigned, nat 12 4 (by decide)]; decide
  have k8 : natAt (secBytes 6) 8 4 = oidXmss20 := by
    rw [natAt, keys_slice 1 0 4 8 _ rfl (by decide) (by decide) rfl]; decide
  have k4 : natAt (secBytes 6) 4 4 = 0 := by
    rw [natAt, keys_slice 0 4 4 4 _ rfl (by decide) (by decide) rfl]; decide
  have r := blankRoot_length seed0 20 (by decide)
  have k12 : sliceB (secBytes 6) 12 32 = blankRoot seed0 20 := by
    rw [keys_slice 2 0 32 12 (blankRoot seed0 20) rfl (by decide) (by decide) (keysParts_getD _ _ _ _ _ _ _).2]
    conv_lhs => rw [← r]
    exact sliceB_all _
  have k44 : sliceB (secBytes 6) 44 32 = seed0 := by
    rw [keys_slice 3 0 32 44 seed0 rfl (by decide) (by decide) rfl]; rfl
  have d : goodFirmware.drop 64 = blankSign seed0 20 fwHead := List.drop_left (l₁ := fwHead)
  have a : sliceB goodFirmware 0 64 = fwHead := by rw [at' 0 64 (by decide)]; rfl
  simp only [firmwareChk, section8, n, k8, k4, k12, k44, d, a, len, nat 0 4 (by decide), nat 4 2 (by decide),
    zer 6 2 (by decide), nat 12 4 (by decide), zer 20 44 (by decide), nat 8 4 (by decide)]
  rw [xmssVerify_blankSign (by decide)]
  decide

end Sys2Proof.SignedImage
end

