-- ==== Sys2Proof/Laws/Issue.lean ====
section
/-! SUPPORT. The issue of an op: what it does when the op passes its checks, waits, or is rejected (R155 to R158). -/

namespace Sys2Proof.Machine

@[simp] theorem thread_unblock (t : Nat) (d : Die) (u : ThreadId) : (unblock t d).thread u = d.thread u := rfl

@[simp] theorem thread_setFlag (d : Die) (o i : Nat) (u : ThreadId) : (d.setFlag o i).thread u = d.thread u := rfl

/-- A fault changes its own context alone: it holds nothing and is FAULTED. -/
theorem threadFault_thread (t u : ThreadId) (st : Status) (opcode : Nat) (d : Die) :
    (threadFault t st opcode d).thread u =
      if u = t then { d.thread t with st := .faulted, hold := .none } else d.thread u := by
  unfold threadFault
  simp only [Die.thread_event, thread_setFlag]
  split
  · rw [Die.thread_setThread]; rfl
  · rw [Die.thread_setReg, Die.thread_setThread]; rfl

/-- The contexts after an issue. -/
theorem issued_thread (d : Die) (t u : ThreadId) : (issued d t).thread u =
    if u = t then { d.thread t with pc := (d.thread t).pc + 1, st := .ready, hold := .none } else d.thread u := by
  show (({ d with lastIssued := t } : Die).setThread t _).thread u = _
  rw [Die.thread_setThread]
  rfl

/-- No register but `SEQ_ISSUED` changes. -/
theorem issued_reg (d : Die) (t : ThreadId) (o : Nat) (h1 : o ≠ 0x30030) (h2 : o ≠ 0x30034) :
    (issued d t).reg o = d.reg o := by
  have e (d : Die) (v : Nat) : (d.setReg48 0x30030 v).reg o = d.reg o := by
    rw [Die.setReg48, Die.reg_put_ne _ _ _ _ h2, Die.reg_setReg, if_neg h1]
  rw [issued, Die.add48, e, Die.reg_setThread]
  rfl

@[simp] theorem issued_rrc (d : Die) (t : ThreadId) : (issued d t).rrc = d.rrc := by
  have a : (issued d t).reg 0x100 = d.reg 0x100 := issued_reg d t _ (by omega) (by omega)
  have b : (issued d t).reg (0x100 + 4) = d.reg (0x100 + 4) := issued_reg d t _ (by omega) (by omega)
  unfold Die.rrc Die.reg48
  rw [a, b]

@[simp] theorem issued_opsOf (d : Die) (t u : ThreadId) : (issued d t).opsOf u = d.opsOf u := rfl

@[simp] theorem issued_tokensReady (d : Die) (t u : ThreadId) (m : BitVec 16) :
    ((issued d t).thread u).tokensReady m = (d.thread u).tokensReady m := by
  rw [issued_thread]
  split
  · subst u; rfl
  · rfl

/-- An op that passes goes on to its own effect. -/
theorem issueOp_passes {opcode : Nat} {t : ThreadId} {w : OpWord} {fields : List (Nat × Nat)}
    {chk : Die → Thread → Option Status} {go : Die → Thread → Die} {d : Die} (h : Passes d t opcode w fields)
    (c : chk d (d.thread t) = none) : issueOp opcode t w fields chk go d = go d (d.thread t) := by
  obtain ⟨h1, h2, h3⟩ := h
  simp [issueOp, h1, h2, h3, c]

/-- An op that a check turns away is rejected with the check's status. -/
theorem issueOp_rejects {opcode : Nat} {t : ThreadId} {w : OpWord} {fields : List (Nat × Nat)}
    {chk : Die → Thread → Option Status} {go : Die → Thread → Die} {d : Die} {st : Status}
    (h : Passes d t opcode w fields) (c : chk d (d.thread t) = some st) :
    issueOp opcode t w fields chk go d = reject d t opcode w st := by
  obtain ⟨h1, h2, h3⟩ := h
  simp [issueOp, h1, h2, h3, c]

/-- A thread that cannot issue leaves the die as it is. -/
theorem issueOp_idle {opcode : Nat} {t : ThreadId} {w : OpWord} {fields : List (Nat × Nat)}
    {chk : Die → Thread → Option Status} {go : Die → Thread → Die} {d : Die} (h : canIssue d t = false) :
    issueOp opcode t w fields chk go d = d := by
  simp [issueOp, h]

/-- Everything the issue of an op can do. -/
theorem issueOp_cases (opcode : Nat) (t : ThreadId) (w : OpWord) (fields : List (Nat × Nat))
    (chk : Die → Thread → Option Status) (go : Die → Thread → Die) (d : Die) :
    let r := issueOp opcode t w fields chk go d
    r = d ∨ r = stallAt d t .waitToken opcode w ∨ (∃ st, r = reject d t opcode w st) ∨
      (Passes d t opcode w fields ∧ chk d (d.thread t) = none ∧ r = go d (d.thread t)) := by
  intro r
  by_cases h1 : canIssue d t = true
  · by_cases h2 : preStall d t opcode w = true
    · exact .inr (.inl (by simp [r, issueOp, h1, h2]))
    · simp only [Bool.not_eq_true] at h2
      by_cases h3 : reservedSet w fields = true
      · exact .inr (.inr (.inl ⟨_, by simp [r, issueOp, h1, h2, h3]; rfl⟩))
      · simp only [Bool.not_eq_true] at h3
        cases c : chk d (d.thread t) with
        | some st => exact .inr (.inr (.inl ⟨st, issueOp_rejects ⟨h1, h2, h3⟩ c⟩))
        | none => exact .inr (.inr (.inr ⟨⟨h1, h2, h3⟩, rfl, issueOp_passes ⟨h1, h2, h3⟩ c⟩))
  · exact .inl (issueOp_idle (by simpa using h1))

/-- A short op that passes changes its thread alone, once it has been counted as issued. -/
theorem shortOp_passes {opcode : Nat} {t : ThreadId} {w : OpWord} {fields : List (Nat × Nat)}
    {chk : Option Status} {eff : Die → Thread → Thread} {d : Die} (h : Passes d t opcode w fields)
    (c : chk = none) : shortOp opcode t w fields chk eff d =
      (issued d t).setThread t (eff (issued d t) ((issued d t).thread t)) := by
  rw [shortOp, issueOp_passes h c]

/-- A long op that passes and whose unit has room enters it. -/
theorem issueLong_enters {opcode : Nat} {u : OpUnit} {t : ThreadId} {w : OpWord} {fields : List (Nat × Nat)}
    {chk : Die → Thread → Option Status} {mk : Thread → LongOp → LongOp} {post : LongOp → Die → Die} {d : Die}
    (h : Passes d t opcode w fields) (r : HasRoom d t opcode w) (c : chk d (d.thread t) = none) :
    issueLong opcode u t w fields chk mk post d =
      post (mk (d.thread t) (newOp d t opcode w u)) (accept d t (mk (d.thread t) (newOp d t opcode w u))) := by
  obtain ⟨r1, r2, r3⟩ := r
  rw [issueLong, issueOp_passes h c]
  simp [r1, r2, r3]

theorem Passes.patrolNow {d : Die} {t : ThreadId} {opcode : Nat} {w : OpWord} {fields : List (Nat × Nat)}
    (h : Passes d t opcode w fields) : Passes (patrolNow d) t opcode w fields := by
  simpa [Passes] using h

theorem HasRoom.patrolNow {d : Die} {t : ThreadId} {opcode : Nat} {w : OpWord} (h : HasRoom d t opcode w) :
    HasRoom (patrolNow d) t opcode w := by
  simpa [HasRoom] using h

/-- An op of an active die whose meaning there is `f` and whose effect, once it passes, is `g`. -/
theorem onDie_passes {s : State} {p : PDie} {t : ThreadId} {opcode : Nat} {w : OpWord} {fields : List (Nat × Nat)}
    {f g : Die → Die} (h : Passes (s.die p) t opcode w fields)
    (e : Passes (patrolNow (s.die p)) t opcode w fields → f (patrolNow (s.die p)) = g (patrolNow (s.die p))) :
    s.onDie p f = s.ran p g := onDie_eq s p f g (active_of_canIssue h.1) (e h.patrolNow)

end Sys2Proof.Machine
end

