-- ==== Sys2Proof/Laws/Memory.lean ====
section
/-! SUPPORT. The byte memories of a die: every operation keeps the canonical form, and what it leaves of the others. -/

namespace Sys2Proof.Machine

/-- The stores of a die that hold bytes, and the check state of LPDDR. -/
abbrev Die.stores (d : Die) : List Host.Cell × List Host.Cell × List Host.Cell := (d.lpddr, d.spd, d.acc)

/-- Every byte store of a die is in canonical form. -/
abbrev Die.storesWf (d : Die) : Prop :=
  Memory.wf d.lpddr = true ∧ Memory.wf d.spd = true ∧ Memory.wf d.acc = true

theorem stores_foldl {α : Type} (f : Die → α → Die) (h : ∀ d a, (f d a).stores = d.stores) (l : List α) (d : Die) :
    (l.foldl f d).stores = d.stores := by
  induction l generalizing d with
  | nil => rfl
  | cons a l ih => exact (ih (f d a)).trans (h d a)

theorem Die.count_stores (d : Die) (o n : Nat) : (d.count o n).stores = d.stores := rfl

theorem lpCorrect_stores (d : Die) (h : Nat) : (lpCorrect d h).stores = d.stores := by
  simp only [lpCorrect]
  split <;> rfl

theorem lpUncorrectable_stores (d : Die) (h : Nat) : (lpUncorrectable d h).stores = d.stores := by
  simp only [lpUncorrectable]
  split <;> rfl

/-- The check of a half on a read changes no byte. -/
theorem lpTouch_stores (d : Die) (e : Nat × LpMark) : (lpTouch d e).stores = d.stores := by
  obtain ⟨h, m⟩ := e
  cases m with
  | good => rfl
  | single => exact lpCorrect_stores d h
  | bad => exact lpUncorrectable_stores d h
  | poison => rfl

/-- A read of LPDDR changes no byte. -/
theorem lpRead_stores (a n : Nat) (d : Die) : (lpRead a n d).2.2.stores = d.stores :=
  stores_foldl lpTouch lpTouch_stores _ d

theorem lpPoison_stores (hs : List Nat) (d : Die) : (lpPoison hs d).stores = d.stores :=
  stores_foldl (fun d h => { d with lpMarks := tabSet goodLp d.lpMarks h .poison }) (fun _ _ => rfl) hs d

/-- A write of LPDDR through a part of a half writes those bytes alone. -/
theorem lpWritePart_stores (a : Nat) (bs : Bytes) (d : Die) :
    (lpWritePart a bs d).stores = (if bs.length = 0 then d.lpddr else tabPut zeroByte d.lpddr a bs, d.spd, d.acc) := by
  unfold lpWritePart
  split
  · rfl
  · rw [lpPoison_stores]
    simp only [lpWrite, Die.stores]
    have h := stores_foldl lpTouch lpTouch_stores (d.lpMarks.filter (fun e => ((if a % 32 ≠ 0 then [a / 32] else []) ++
      (if (a + bs.length) % 32 ≠ 0 then [(a + bs.length) / 32] else [])).contains e.1)) d
    simp only [Die.stores, Prod.mk.injEq] at h
    rw [h.1, h.2.1, h.2.2]

theorem lpWritePart_wf (a : Nat) (bs : Bytes) (d : Die) (w : d.storesWf) : (lpWritePart a bs d).storesWf := by
  have h := lpWritePart_stores a bs d
  simp only [Die.stores, Prod.mk.injEq] at h
  obtain ⟨w1, w2, w3⟩ := w
  refine ⟨?_, h.2.1 ▸ w2, h.2.2 ▸ w3⟩
  rw [h.1]
  split
  · exact w1
  · exact tabPut_wf a bs w1

theorem spdCorrect_stores (d : Die) (w : Nat) : (spdCorrect d w).stores = d.stores := by
  simp only [spdCorrect]
  split <;> rfl

theorem spdUncorrectable_stores (d : Die) (w : Nat) : (spdUncorrectable d w).stores = d.stores := by
  simp only [spdUncorrectable]
  split <;> rfl

/-- A read of the scratchpad changes no byte. -/
theorem spdRead_stores (c a n : Nat) (d : Die) : (spdRead c a n d).2.2.stores = d.stores := by
  unfold spdRead
  refine (stores_foldl _ (fun d e => ?_) _ _).trans rfl
  obtain ⟨k, m⟩ := e
  cases m with
  | good => rfl
  | single => exact spdCorrect_stores d k
  | double => exact spdUncorrectable_stores d k

theorem stores_of_write {d x : Die} (a : Nat) (bs : Bytes) (h : x.stores = d.stores) :
    ({ spdClearMarks x a bs.length with spd := tabPut zeroByte (spdClearMarks x a bs.length).spd a bs } : Die).stores =
      (d.lpddr, tabPut zeroByte d.spd a bs, d.acc) := by
  simp only [Die.stores, Prod.mk.injEq] at h
  simp only [Die.stores, spdClearMarks, h.1, h.2.1, h.2.2]

/-- A write of the scratchpad writes its bytes alone. -/
theorem spdWrite_stores (c a : Nat) (bs : Bytes) (d : Die) :
    (spdWrite c a bs d).stores = (d.lpddr, if bs.length = 0 then d.spd else tabPut zeroByte d.spd a bs, d.acc) := by
  unfold spdWrite
  split
  · rfl
  · refine stores_of_write a bs ((stores_foldl _ (fun d w => ?_) _ _).trans (Die.count_stores d _ _))
    dsimp only
    split
    · exact spdCorrect_stores d w
    · exact spdUncorrectable_stores d w
    · rfl

theorem spdWrite_wf (c a : Nat) (bs : Bytes) (d : Die) (w : d.storesWf) : (spdWrite c a bs d).storesWf := by
  have h := spdWrite_stores c a bs d
  simp only [Die.stores, Prod.mk.injEq] at h
  obtain ⟨w1, w2, w3⟩ := w
  refine ⟨h.1 ▸ w1, ?_, h.2.2 ▸ w3⟩
  rw [h.2.1]
  split
  · exact w2
  · exact tabPut_wf a bs w2

theorem spdWriteBad_wf (c a : Nat) (bs : Bytes) (d : Die) (w : d.storesWf) : (spdWriteBad c a bs d).storesWf :=
  spdWrite_wf c a bs d w

theorem lpWrite_storesWf (a : Nat) (bs : Bytes) (d : Die) (w : d.storesWf) : (lpWrite a bs d).storesWf :=
  ⟨tabPut_wf a bs w.1, w.2⟩

/-- A posted write is queued: no byte changes by it. -/
theorem postWrite_stores (r : Req) (a : Nat) (bs : Bytes) (d : Die) : (postWrite r a bs d).stores = d.stores := by
  unfold postWrite
  dsimp only
  split <;> rfl

theorem postWrites_stores (r : Req) (a : Nat) (bs : Bytes) (d : Die) : (postWrites r a bs d).stores = d.stores :=
  stores_foldl _ (fun d _ => postWrite_stores r _ _ d) _ d

/-- Bytes brought to whole halves keep their beginning, and the die but for the count of its free values. -/
theorem padHalf_fst (bs : Bytes) (d : Die) : ∃ ps, (padHalf bs d).1 = bs ++ ps ∧ (padHalf bs d).2 =
    { d with free := d.free + (roundUp bs.length 32 - bs.length) } := ⟨_, rfl, rfl⟩

/-- A write of a requester of the device writes its bytes, and free ones up to the end of its last half. -/
theorem lpStore_stores (r : Req) (a : Nat) (bs : Bytes) (d : Die) :
    (lpStore r a bs d).stores = (tabPut zeroByte d.lpddr a (padHalf bs d).1, d.spd, d.acc) := by
  unfold lpStore
  dsimp only
  rw [postWrites_stores]
  rfl

theorem lpStore_wf (r : Req) (a : Nat) (bs : Bytes) (d : Die) (w : d.storesWf) : (lpStore r a bs d).storesWf := by
  have h := lpStore_stores r a bs d
  simp only [Die.stores, Prod.mk.injEq] at h
  exact ⟨h.1 ▸ tabPut_wf _ _ w.1, h.2.1 ▸ w.2.1, h.2.2 ▸ w.2.2⟩

theorem setTile_wf (d : Die) (t : Nat) (cs : List Nat) (w : d.storesWf) : (setTile d t cs).storesWf :=
  ⟨w.1, w.2.1, tabPut_wf _ _ w.2.2⟩

theorem zeroTile_wf (d : Die) (t : Nat) (w : d.storesWf) : (zeroTile d t).storesWf :=
  ⟨w.1, w.2.1, tabDrop_wf _ _ w.2.2⟩

/-- A die that holds nothing, as every die after reset, is in canonical form. -/
theorem die0_wf (p : Nat) : (die0 p).storesWf := ⟨rfl, rfl, rfl⟩

theorem reset_wf (p : Nat) : (State.reset.die p).storesWf := die0_wf p

/-- So is the NOR after reset. -/
theorem reset_nor_wf : State.reset.nor = [] := rfl

end Sys2Proof.Machine
end

