-- ==== Sys2Proof/Laws/PerInstr.lean ====
section
/-! SUPPORT. Family `Unspelled`: the table of the spec gives no row bits, so no word spells a command; one lemma per row. -/

namespace Sys2Proof.Laws.Unspelled

/-- No word of the table spells the command. -/
def Statement (i : Instr) : Prop := ∀ nbits w : Nat, decodeTableWord nbits w ≠ some i

theorem no_word (i : Instr) : Statement i := nofun

theorem registerWrite (a1) (a2) (a3) (a4) : Statement (.registerWrite a1 a2 a3 a4) := no_word _
theorem vddAonApply : Statement .vddAonApply := no_word _
theorem sysRstRelease : Statement .sysRstRelease := no_word _
theorem sysRstAssert : Statement .sysRstAssert := no_word _
theorem sysPwrokDeassert : Statement .sysPwrokDeassert := no_word _
theorem perst (a1) : Statement (.perst a1) := no_word _
theorem imageVerify : Statement .imageVerify := no_word _
theorem diesBoot (a1) (a2) (a3) : Statement (.diesBoot a1 a2 a3) := no_word _
theorem dieAnswerTimeout (a1) : Statement (.dieAnswerTimeout a1) := no_word _
theorem memoryBoot (a1) (a2) : Statement (.memoryBoot a1 a2) := no_word _
theorem engineBringup (a1) (a2) (a3) (a4) (a5) (a6) : Statement (.engineBringup a1 a2 a3 a4 a5 a6) := no_word _
theorem bootDoorbell (a1) : Statement (.bootDoorbell a1) := no_word _
theorem firmwareLoad (a1) : Statement (.firmwareLoad a1) := no_word _
theorem provision : Statement .provision := no_word _
theorem imageWrite (a1) (a2) (a3) : Statement (.imageWrite a1 a2 a3) := no_word _
theorem fwStart : Statement .fwStart := no_word _
theorem linksBoot (a1) : Statement (.linksBoot a1) := no_word _
theorem ready : Statement .ready := no_word _
theorem autostart (a1) (a2) (a3) : Statement (.autostart a1 a2 a3) := no_word _
theorem autostartPortTimeout : Statement .autostartPortTimeout := no_word _
theorem deviceReset (a1) (a2) (a3) : Statement (.deviceReset a1 a2 a3) := no_word _
theorem setpointChange (a1) (a2) (a3) (a4) : Statement (.setpointChange a1 a2 a3 a4) := no_word _
theorem avsFrameFail : Statement .avsFrameFail := no_word _
theorem avsRetry (a1) : Statement (.avsRetry a1) := no_word _
theorem rowOverVoltage (a1) : Statement (.rowOverVoltage a1) := no_word _
theorem overVoltageRelease (a1) : Statement (.overVoltageRelease a1) := no_word _
theorem rowOverCurrent (a1) : Statement (.rowOverCurrent a1) := no_word _
theorem packageExcursion (a1) : Statement (.packageExcursion a1) := no_word _
theorem paceLowerTick (a1) : Statement (.paceLowerTick a1) := no_word _
theorem paceRaiseTick (a1) : Statement (.paceRaiseTick a1) := no_word _
theorem issueRampStep (a1) : Statement (.issueRampStep a1) := no_word _
theorem thermalThrottle (a1) (a2) : Statement (.thermalThrottle a1 a2) := no_word _
theorem throttleRemoval (a1) : Statement (.throttleRemoval a1) := no_word _
theorem throttleSetpointLower (a1) : Statement (.throttleSetpointLower a1) := no_word _
theorem throttleRecover (a1) (a2) (a3) : Statement (.throttleRecover a1 a2 a3) := no_word _
theorem thermalClamp (a1) (a2) : Statement (.thermalClamp a1 a2) := no_word _
theorem thermalClampRelease (a1) (a2) : Statement (.thermalClampRelease a1 a2) := no_word _
theorem thermalHalt (a1) (a2) : Statement (.thermalHalt a1 a2) := no_word _
theorem thermtrip (a1) (a2) : Statement (.thermtrip a1 a2) := no_word _
theorem refclkLoss : Statement .refclkLoss := no_word _
theorem rowclkLoss (a1) : Statement (.rowclkLoss a1) := no_word _
theorem leclkLoss (a1) : Statement (.leclkLoss a1) := no_word _
theorem mgtclkLoss : Statement .mgtclkLoss := no_word _
theorem clockRestored (a1) : Statement (.clockRestored a1) := no_word _
theorem mma (a1) (a2) (a3) : Statement (.mma a1 a2 a3) := no_word _
theorem loada (a1) (a2) (a3) : Statement (.loada a1 a2 a3) := no_word _
theorem loadb (a1) (a2) (a3) : Statement (.loadb a1 a2 a3) := no_word _
theorem swap (a1) (a2) (a3) : Statement (.swap a1 a2 a3) := no_word _
theorem drain (a1) (a2) (a3) : Statement (.drain a1 a2 a3) := no_word _
theorem drainStart (a1) : Statement (.drainStart a1) := no_word _
theorem zeroAcc (a1) (a2) (a3) : Statement (.zeroAcc a1 a2 a3) := no_word _
theorem accFileAccess (a1) (a2) (a3) (a4) : Statement (.accFileAccess a1 a2 a3 a4) := no_word _
theorem opCompletion (a1) (a2) : Statement (.opCompletion a1 a2) := no_word _
theorem convert (a1) (a2) (a3) : Statement (.convert a1 a2 a3) := no_word _
theorem rngDraw (a1) (a2) (a3) : Statement (.rngDraw a1 a2 a3) := no_word _
theorem vadd (a1) (a2) (a3) : Statement (.vadd a1 a2 a3) := no_word _
theorem vsub (a1) (a2) (a3) : Statement (.vsub a1 a2 a3) := no_word _
theorem vmul (a1) (a2) (a3) : Statement (.vmul a1 a2 a3) := no_word _
theorem vfma (a1) (a2) (a3) : Statement (.vfma a1 a2 a3) := no_word _
theorem vdiv (a1) (a2) (a3) : Statement (.vdiv a1 a2 a3) := no_word _
theorem vsqrt (a1) (a2) (a3) : Statement (.vsqrt a1 a2 a3) := no_word _
theorem vmin (a1) (a2) (a3) : Statement (.vmin a1 a2 a3) := no_word _
theorem vmax (a1) (a2) (a3) : Statement (.vmax a1 a2 a3) := no_word _
theorem vminnum (a1) (a2) (a3) : Statement (.vminnum a1 a2 a3) := no_word _
theorem vmaxnum (a1) (a2) (a3) : Statement (.vmaxnum a1 a2 a3) := no_word _
theorem vcmp (a1) (a2) (a3) : Statement (.vcmp a1 a2 a3) := no_word _
theorem vsel (a1) (a2) (a3) : Statement (.vsel a1 a2 a3) := no_word _
theorem vexp2 (a1) (a2) (a3) : Statement (.vexp2 a1 a2 a3) := no_word _
theorem vlog2 (a1) (a2) (a3) : Statement (.vlog2 a1 a2 a3) := no_word _
theorem vrcp (a1) (a2) (a3) : Statement (.vrcp a1 a2 a3) := no_word _
theorem vrsqrt (a1) (a2) (a3) : Statement (.vrsqrt a1 a2 a3) := no_word _
theorem vcvt (a1) (a2) (a3) : Statement (.vcvt a1 a2 a3) := no_word _
theorem vreduce (a1) (a2) (a3) : Statement (.vreduce a1 a2 a3) := no_word _
theorem vload (a1) (a2) (a3) : Statement (.vload a1 a2 a3) := no_word _
theorem vstore (a1) (a2) (a3) : Statement (.vstore a1 a2 a3) := no_word _
theorem vsplat (a1) (a2) (a3) : Statement (.vsplat a1 a2 a3) := no_word _
theorem vget (a1) (a2) (a3) : Statement (.vget a1 a2 a3) := no_word _
theorem vregWrite (a1) (a2) (a3) : Statement (.vregWrite a1 a2 a3) := no_word _
theorem vregRead (a1) (a2) (a3) : Statement (.vregRead a1 a2 a3) := no_word _
theorem nop (a1) (a2) (a3) : Statement (.nop a1 a2 a3) := no_word _
theorem waitOp (a1) (a2) (a3) : Statement (.waitOp a1 a2 a3) := no_word _
theorem waitTimeout (a1) (a2) : Statement (.waitTimeout a1 a2) := no_word _
theorem signal (a1) (a2) (a3) : Statement (.signal a1 a2 a3) := no_word _
theorem branch (a1) (a2) (a3) : Statement (.branch a1 a2 a3) := no_word _
theorem loopOp (a1) (a2) (a3) : Statement (.loopOp a1 a2 a3) := no_word _
theorem endOp (a1) (a2) (a3) : Statement (.endOp a1 a2 a3) := no_word _
theorem yieldOp (a1) (a2) (a3) : Statement (.yieldOp a1 a2 a3) := no_word _
theorem fence (a1) (a2) (a3) : Statement (.fence a1 a2 a3) := no_word _
theorem seti (a1) (a2) (a3) : Statement (.seti a1 a2 a3) := no_word _
theorem alu (a1) (a2) (a3) : Statement (.alu a1 a2 a3) := no_word _
theorem sload (a1) (a2) (a3) : Statement (.sload a1 a2 a3) := no_word _
theorem sstore (a1) (a2) (a3) : Statement (.sstore a1 a2 a3) := no_word _
theorem rdtime (a1) (a2) (a3) : Statement (.rdtime a1 a2 a3) := no_word _
theorem launch (a1) (a2) (a3) : Statement (.launch a1 a2 a3) := no_word _
theorem progLoad (a1) (a2) (a3) : Statement (.progLoad a1 a2 a3) := no_word _
theorem progLoadComplete (a1) : Statement (.progLoadComplete a1) := no_word _
theorem scratchpadClear (a1) : Statement (.scratchpadClear a1) := no_word _
theorem spdWriteBack (a1) : Statement (.spdWriteBack a1) := no_word _
theorem dma (a1) (a2) (a3) : Statement (.dma a1 a2 a3) := no_word _
theorem skewcopy (a1) (a2) (a3) : Statement (.skewcopy a1 a2 a3) := no_word _
theorem gather (a1) (a2) (a3) : Statement (.gather a1 a2 a3) := no_word _
theorem scatter (a1) (a2) (a3) : Statement (.scatter a1 a2 a3) := no_word _
theorem widen (a1) (a2) (a3) : Statement (.widen a1 a2 a3) := no_word _
theorem send (a1) (a2) (a3) : Statement (.send a1 a2 a3) := no_word _
theorem recv (a1) (a2) (a3) : Statement (.recv a1 a2 a3) := no_word _
theorem peek (a1) (a2) (a3) : Statement (.peek a1 a2 a3) := no_word _
theorem peekRecvTimeout (a1) (a2) : Statement (.peekRecvTimeout a1 a2) := no_word _
theorem openOp (a1) (a2) (a3) : Statement (.openOp a1 a2 a3) := no_word _
theorem closeOp (a1) (a2) (a3) : Statement (.closeOp a1 a2 a3) := no_word _
theorem routerForward (a1) (a2) (a3) : Statement (.routerForward a1 a2 a3) := no_word _
theorem beadArrival (a1) (a2) (a3) (a4) : Statement (.beadArrival a1 a2 a3 a4) := no_word _
theorem openBead (a1) (a2) : Statement (.openBead a1 a2) := no_word _
theorem closeBead (a1) (a2) : Statement (.closeBead a1 a2) := no_word _
theorem credit (a1) (a2) : Statement (.credit a1 a2) := no_word _
theorem delivered (a1) (a2) : Statement (.delivered a1 a2) := no_word _
theorem nak (a1) (a2) : Statement (.nak a1 a2) := no_word _
theorem answerTimeout (a1) (a2) : Statement (.answerTimeout a1 a2) := no_word _
theorem stall (a1) (a2) : Statement (.stall a1 a2) := no_word _
theorem verUseBind (a1) (a2) (a3) : Statement (.verUseBind a1 a2 a3) := no_word _
theorem verUseByNumber (a1) (a2) (a3) : Statement (.verUseByNumber a1 a2 a3) := no_word _
theorem verUseLookup (a1) (a2) (a3) : Statement (.verUseLookup a1 a2 a3) := no_word _
theorem verUseTimeout (a1) (a2) : Statement (.verUseTimeout a1 a2) := no_word _
theorem verNewAlloc (a1) (a2) (a3) : Statement (.verNewAlloc a1 a2 a3) := no_word _
theorem verNewSeal (a1) (a2) (a3) : Statement (.verNewSeal a1 a2 a3) := no_word _
theorem verNewInitial (a1) (a2) (a3) : Statement (.verNewInitial a1 a2 a3) := no_word _
theorem verPin (a1) (a2) (a3) : Statement (.verPin a1 a2 a3) := no_word _
theorem verReleaseRef (a1) (a2) (a3) : Statement (.verReleaseRef a1 a2 a3) := no_word _
theorem verReleaseUnpin (a1) (a2) (a3) : Statement (.verReleaseUnpin a1 a2 a3) := no_word _
theorem verReleaseDiscard (a1) (a2) (a3) : Statement (.verReleaseDiscard a1 a2 a3) := no_word _
theorem accumPush (a1) (a2) (a3) : Statement (.accumPush a1 a2 a3) := no_word _
theorem rapArrival (a1) (a2) (a3) : Statement (.rapArrival a1 a2 a3) := no_word _
theorem sweepComplete (a1) (a2) (a3) : Statement (.sweepComplete a1 a2 a3) := no_word _
theorem tallyAdd (a1) (a2) (a3) : Statement (.tallyAdd a1 a2 a3) := no_word _
theorem tallyCombine (a1) (a2) (a3) (a4) : Statement (.tallyCombine a1 a2 a3 a4) := no_word _
theorem tallyCombineRelease (a1) (a2) (a3) : Statement (.tallyCombineRelease a1 a2 a3) := no_word _
theorem collectorTally (a1) (a2) : Statement (.collectorTally a1 a2) := no_word _
theorem ledgerTally (a1) (a2) : Statement (.ledgerTally a1 a2) := no_word _
theorem ledgerDeadline (a1) : Statement (.ledgerDeadline a1) := no_word _
theorem noticeResend (a1) : Statement (.noticeResend a1) := no_word _
theorem commitNotice (a1) (a2) : Statement (.commitNotice a1 a2) := no_word _
theorem repeatNotice (a1) (a2) : Statement (.repeatNotice a1 a2) := no_word _
theorem stopNotice (a1) (a2) : Statement (.stopNotice a1 a2) := no_word _
theorem ledgerDoneDone (a1) (a2) (a3) : Statement (.ledgerDoneDone a1 a2 a3) := no_word _
theorem ledgerDoneWaitctx (a1) (a2) (a3) : Statement (.ledgerDoneWaitctx a1 a2 a3) := no_word _
theorem ledgerDoneRelease (a1) (a2) (a3) : Statement (.ledgerDoneRelease a1 a2 a3) := no_word _
theorem ledgerDoneTimeout (a1) (a2) : Statement (.ledgerDoneTimeout a1 a2) := no_word _
theorem ldgEnable (a1) (a2) (a3) : Statement (.ldgEnable a1 a2 a3) := no_word _
theorem ldgDisable (a1) (a2) (a3) : Statement (.ldgDisable a1 a2 a3) := no_word _
theorem contextConfig (a1) (a2) (a3) (a4) (a5) (a6) : Statement (.contextConfig a1 a2 a3 a4 a5 a6) := no_word _
theorem collectorEnable (a1) (a2) (a3) (a4) : Statement (.collectorEnable a1 a2 a3 a4) := no_word _
theorem reshard (a1) : Statement (.reshard a1) := no_word _
theorem mcRequest (a1) (a2) : Statement (.mcRequest a1 a2) := no_word _
theorem mcReadReturn (a1) (a2) (a3) : Statement (.mcReadReturn a1 a2 a3) := no_word _
theorem writeBatchDrain (a1) (a2) (a3) : Statement (.writeBatchDrain a1 a2 a3) := no_word _
theorem mcEccWriteBack (a1) (a2) : Statement (.mcEccWriteBack a1 a2) := no_word _
theorem patrolScrub (a1) (a2) : Statement (.patrolScrub a1 a2) := no_word _
theorem refresh (a1) (a2) (a3) : Statement (.refresh a1 a2 a3) := no_word _
theorem tempReadout (a1) (a2) (a3) : Statement (.tempReadout a1 a2 a3) := no_word _
theorem tgStart (a1) (a2) (a3) (a4) (a5) : Statement (.tgStart a1 a2 a3 a4 a5) := no_word _
theorem tgPassDone (a1) (a2) (a3) (a4) : Statement (.tgPassDone a1 a2 a3 a4) := no_word _
theorem regionSet (a1) : Statement (.regionSet a1) := no_word _
theorem linkTransmit (a1) : Statement (.linkTransmit a1) := no_word _
theorem dataReceive (a1) (a2) : Statement (.dataReceive a1 a2) := no_word _
theorem idleReceive (a1) (a2) : Statement (.idleReceive a1 a2) := no_word _
theorem vcBufferRelease (a1) (a2) : Statement (.vcBufferRelease a1 a2) := no_word _
theorem linkIdleTimer (a1) : Statement (.linkIdleTimer a1) := no_word _
theorem gapTimeout (a1) : Statement (.gapTimeout a1) := no_word _
theorem replayTimeout (a1) : Statement (.replayTimeout a1) := no_word _
theorem replayReq (a1) (a2) : Statement (.replayReq a1 a2) := no_word _
theorem laneLossOfLock (a1) (a2) : Statement (.laneLossOfLock a1 a2) := no_word _
theorem laneWindowEnd (a1) (a2) (a3) : Statement (.laneWindowEnd a1 a2 a3) := no_word _
theorem laneFail (a1) (a2) : Statement (.laneFail a1 a2) := no_word _
theorem laneFailRepeat (a1) : Statement (.laneFailRepeat a1) := no_word _
theorem laneAck (a1) (a2) : Statement (.laneAck a1 a2) := no_word _
theorem linkResume (a1) (a2) : Statement (.linkResume a1 a2) := no_word _
theorem linkReset (a1) (a2) : Statement (.linkReset a1 a2) := no_word _
theorem linkResetAck (a1) (a2) : Statement (.linkResetAck a1 a2) := no_word _
theorem linkTrainingDone (a1) (a2) (a3) (a4) : Statement (.linkTrainingDone a1 a2 a3 a4) := no_word _
theorem linkTrainingFail (a1) : Statement (.linkTrainingFail a1) := no_word _
theorem linkDownRetry (a1) : Statement (.linkDownRetry a1) := no_word _
theorem retrainReq (a1) (a2) : Statement (.retrainReq a1 a2) := no_word _
theorem portDisable (a1) (a2) : Statement (.portDisable a1 a2) := no_word _
theorem relayFailover (a1) (a2) : Statement (.relayFailover a1 a2) := no_word _
theorem moduleInsert (a1) (a2) : Statement (.moduleInsert a1 a2) := no_word _
theorem moduleLock (a1) : Statement (.moduleLock a1) := no_word _
theorem moduleLoss (a1) (a2) : Statement (.moduleLoss a1 a2) := no_word _
theorem elsUsagePoll (a1) : Statement (.elsUsagePoll a1) := no_word _
theorem elsUsageWrite (a1) (a2) : Statement (.elsUsageWrite a1 a2) := no_word _
theorem elsReleaseBay (a1) (a2) : Statement (.elsReleaseBay a1 a2) := no_word _
theorem elsAccept (a1) : Statement (.elsAccept a1) := no_word _
theorem engineLightLoss (a1) : Statement (.engineLightLoss a1) := no_word _
theorem engineProbe (a1) : Statement (.engineProbe a1) := no_word _
theorem doorbell (a1) (a2) (a3) : Statement (.doorbell a1 a2 a3) := no_word _
theorem commandFetch (a1) (a2) (a3) (a4) : Statement (.commandFetch a1 a2 a3 a4) := no_word _
theorem completionPost (a1) (a2) : Statement (.completionPost a1 a2) := no_word _
theorem hostReadTimeout (a1) : Statement (.hostReadTimeout a1) := no_word _
theorem nopCommand (a1) : Statement (.nopCommand a1) := no_word _
theorem fenceCommand (a1) : Statement (.fenceCommand a1) := no_word _
theorem copyIn (a1) (a2) : Statement (.copyIn a1 a2) := no_word _
theorem copyOut (a1) : Statement (.copyOut a1) := no_word _
theorem bar2Read (a1) (a2) (a3) : Statement (.bar2Read a1 a2 a3) := no_word _
theorem bar2Write (a1) (a2) (a3) : Statement (.bar2Write a1 a2 a3) := no_word _
theorem diagApertureRead (a1) (a2) : Statement (.diagApertureRead a1 a2) := no_word _
theorem telemetrySnapshot : Statement .telemetrySnapshot := no_word _
theorem resultReturn (a1) (a2) : Statement (.resultReturn a1 a2) := no_word _
theorem inputDescriptor (a1) (a2) (a3) (a4) : Statement (.inputDescriptor a1 a2 a3 a4) := no_word _
theorem inputConsumed (a1) (a2) (a3) (a4) : Statement (.inputConsumed a1 a2 a3 a4) := no_word _
theorem registerRing (a1) : Statement (.registerRing a1) := no_word _
theorem unregisterRing (a1) : Statement (.unregisterRing a1) := no_word _
theorem mapWindow (a1) : Statement (.mapWindow a1) := no_word _
theorem unmapWindow (a1) : Statement (.unmapWindow a1) := no_word _
theorem queryUndelivered (a1) : Statement (.queryUndelivered a1) := no_word _
theorem redeliver (a1) : Statement (.redeliver a1) := no_word _
theorem discardUndelivered (a1) : Statement (.discardUndelivered a1) := no_word _
theorem readReg (a1) : Statement (.readReg a1) := no_word _
theorem elsRelease (a1) : Statement (.elsRelease a1) := no_word _
theorem recoverySet (a1) : Statement (.recoverySet a1) := no_word _
theorem hostLinkDown : Statement .hostLinkDown := no_word _
theorem functionLevelReset (a1) : Statement (.functionLevelReset a1) := no_word _
theorem busMasterDisable (a1) : Statement (.busMasterDisable a1) := no_word _
theorem worldAssign (a1) : Statement (.worldAssign a1) := no_word _
theorem keyRotate (a1) : Statement (.keyRotate a1) := no_word _
theorem debugUnlock (a1) : Statement (.debugUnlock a1) := no_word _
theorem attest (a1) (a2) : Statement (.attest a1 a2) := no_word _
theorem attestPubkey (a1) : Statement (.attestPubkey a1) := no_word _
theorem attestCert (a1) : Statement (.attestCert a1) := no_word _
theorem partitionForm (a1) : Statement (.partitionForm a1) := no_word _
theorem partitionDissolve (a1) : Statement (.partitionDissolve a1) := no_word _
theorem jobLoad (a1) : Statement (.jobLoad a1) := no_word _
theorem jobUnload (a1) : Statement (.jobUnload a1) := no_word _
theorem jobStart (a1) : Statement (.jobStart a1) := no_word _
theorem jobPause (a1) : Statement (.jobPause a1) := no_word _
theorem jobResume (a1) : Statement (.jobResume a1) := no_word _
theorem jobStopDrain (a1) : Statement (.jobStopDrain a1) := no_word _
theorem jobStopAbort (a1) : Statement (.jobStopAbort a1) := no_word _
theorem jobDrainTimeout (a1) : Statement (.jobDrainTimeout a1) := no_word _
theorem jobShare (a1) : Statement (.jobShare a1) := no_word _
theorem evalRun (a1) : Statement (.evalRun a1) := no_word _
theorem autoEval (a1) : Statement (.autoEval a1) := no_word _
theorem autoEvalTimeout (a1) : Statement (.autoEvalTimeout a1) := no_word _
theorem kernelSubmit (a1) : Statement (.kernelSubmit a1) := no_word _
theorem jobQuery (a1) : Statement (.jobQuery a1) := no_word _
theorem bucketRefill (a1) : Statement (.bucketRefill a1) := no_word _
theorem powerEstimate (a1) : Statement (.powerEstimate a1) := no_word _
theorem powerRequest (a1) (a2) (a3) : Statement (.powerRequest a1 a2 a3) := no_word _
theorem powerGrant (a1) (a2) : Statement (.powerGrant a1 a2) := no_word _
theorem tokenAudit : Statement .tokenAudit := no_word _
theorem tokenAuditRead : Statement .tokenAuditRead := no_word _
theorem centralDivision : Statement .centralDivision := no_word _
theorem setpointRaiseRetry (a1) (a2) (a3) : Statement (.setpointRaiseRetry a1 a2 a3) := no_word _
theorem watchdog (a1) : Statement (.watchdog a1) := no_word _
theorem reckonerKick : Statement .reckonerKick := no_word _
theorem reckonerWdog : Statement .reckonerWdog := no_word _
theorem partitionReset (a1) (a2) : Statement (.partitionReset a1 a2) := no_word _
theorem escalation (a1) : Statement (.escalation a1) := no_word _
theorem resetPartition (a1) : Statement (.resetPartition a1) := no_word _
theorem resetDevice (a1) : Statement (.resetDevice a1) := no_word _
theorem sparing (a1) (a2) : Statement (.sparing a1 a2) := no_word _
theorem bindTimeout (a1) : Statement (.bindTimeout a1) := no_word _
theorem jobRecovery (a1) : Statement (.jobRecovery a1) := no_word _
theorem replicaRestore (a1) (a2) : Statement (.replicaRestore a1 a2) := no_word _
theorem lehrRequest (a1) (a2) : Statement (.lehrRequest a1 a2) := no_word _
theorem lehrPartReceive (a1) : Statement (.lehrPartReceive a1) := no_word _
theorem capture (a1) (a2) (a3) : Statement (.capture a1 a2 a3) := no_word _
theorem lehrRestore (a1) (a2) (a3) : Statement (.lehrRestore a1 a2 a3) := no_word _
theorem shardReady (a1) (a2) (a3) : Statement (.shardReady a1 a2 a3) := no_word _
theorem parisonUnpin (a1) (a2) : Statement (.parisonUnpin a1 a2) := no_word _
theorem ledgerResume (a1) (a2) (a3) : Statement (.ledgerResume a1 a2 a3) := no_word _
theorem exportSlot (a1) : Statement (.exportSlot a1) := no_word _
theorem exportObject (a1) : Statement (.exportObject a1) := no_word _
theorem restore (a1) (a2) : Statement (.restore a1 a2) := no_word _
theorem teardownTimeout (a1) : Statement (.teardownTimeout a1) := no_word _
theorem receivedLightReturn (a1) : Statement (.receivedLightReturn a1) := no_word _

end Sys2Proof.Laws.Unspelled
end

