-- ==== Sys2Proof/Tests/Slice0.lean ====
section
/-! SUPPORT. The model's own tests: ill-formed commands that WellFormed refuses, small effects of commands whose results
the spec gives, and for each statement with hypotheses states and operands that meet them, clause by clause, at the
ends of their ranges. -/

namespace Sys2Proof.Tests

set_option Elab.async false

open Sys2Proof Sys2Proof.Machine

/-! ## Small states -/

/-- An active die whose scratchpad is clear and whose thread 0 is READY. -/
def actDie : Die := { run := .active, routerOk := true, regs := [(0x2000C, 0)], threads := [(0, { st := .ready })] }

/-- A block whose P0 is the die. -/
def blk (d : Die) : State := { dies := [(0, d)], pins := ⟨true, true, true, true⟩ }

/-- An op word of its operands alone. -/
def word (x : Nat) : OpWord := ⟨0, 0, BitVec.ofNat 96 x⟩

/-- What a command leaves. -/
def after (i : Instr) (s : State) : State :=
  match exec i s with
  | .next t => t
  | .fault _ => s
  | .refused _ => s

/-! ## Ill-formed commands -/

theorem test_illformed_sizes :
    (Instr.registerWrite .punty .mgmt 2 0).wellFormed = false ∧ (Instr.memoryBoot 0 []).wellFormed = false ∧
    (Instr.bootDoorbell (some [])).wellFormed = false ∧ (Instr.linksBoot []).wellFormed = false ∧
    (Instr.accFileAccess 0 0 0 none).wellFormed = false ∧ (Instr.accFileAccess 0 0 2 (some [1])).wellFormed = false ∧
    (Instr.beadArrival 0 0 [1] false).wellFormed = false ∧ (Instr.rapArrival 0 0 [1]).wellFormed = false ∧
    (Instr.mcRequest 0 ⟨.dma, true, false, 0, 0, []⟩).wellFormed = false := by decide

theorem test_illformed_lengths :
    (Instr.laneWindowEnd 0 [] (List.replicate 18 0)).wellFormed = false ∧
    (Instr.laneWindowEnd 0 (List.replicate 18 0) []).wellFormed = false ∧
    (Instr.elsUsagePoll []).wellFormed = false ∧ (Instr.commandFetch 0 0 [] none).wellFormed = false ∧
    (Instr.bar2Read 0 0 0).wellFormed = false ∧ (Instr.bar2Read 0 4095 2).wellFormed = false ∧
    (Instr.bar2Write 0 0 []).wellFormed = false ∧ (Instr.bar2Write 0 4095 [1, 2]).wellFormed = false ∧
    (Instr.inputDescriptor 0 0 [] []).wellFormed = false := by decide

theorem test_no_word_spells_a_command : decodeTableWord 32 0 = none := by decide

/-! ## Threads and scalar ops -/

/-- SETI writes its immediate and moves the thread on (R167). -/
theorem test_seti : (((after (.seti 0 0 (word (3 + 77 * 2 ^ 32))) (blk actDie)).die 0).thread 0).sreg 3 = 77 ∧
    (((after (.seti 0 0 (word (3 + 77 * 2 ^ 32))) (blk actDie)).die 0).thread 0).pc = 1 := by decide

/-- SRA of the most negative number by 63 (R167). -/
theorem test_alu_sra : aluFn 0x7 0x8000000000000000 63 = 0xFFFFFFFFFFFFFFFF := by decide

/-- SLTU orders unsigned numbers (R167). -/
theorem test_alu_sltu : aluFn 0xB 1 0xFFFFFFFFFFFFFFFF = 1 ∧ aluFn 0xB 0xFFFFFFFFFFFFFFFF 1 = 0 := by decide

/-- The op words of the witnesses: SLOAD of `DIE_ID`, and of the last scratchpad word. -/
def sloadReg : OpWord := word 0x20
def sloadLast : OpWord := word ((spdBytes / 8 - 1) * 64)

theorem witness_ScalarOpsComplete :
    Passes actDie 0 0x08 (word 3) [(4, 0), (95, 32)] ∧
    (Passes actDie 0 0x09 (word (0xB * 2 ^ 16)) [(19, 0), (95, 64)] ∧ opField (word (0xB * 2 ^ 16)).x 19 16 ≤ 0xB) ∧
    Passes actDie 0 0x0C (word 31) [(4, 0)] ∧
    (Passes actDie 0 0x0A sloadReg [(28, 0)] ∧ bitOf sloadReg.x.toNat 5 = true ∧
      inBlocks (4 * opField sloadReg.x 28 6) = true) ∧
    (Passes actDie 0 0x0A sloadLast [(28, 0)] ∧ bitOf sloadLast.x.toNat 5 = false ∧
      8 * opField sloadLast.x 28 6 + 8 = spdBytes ∧ spdBad actDie (8 * opField sloadLast.x 28 6) 8 = []) ∧
    (Passes actDie 0 0x0B sloadReg [(28, 0)] ∧ Passes actDie 0 0x0B sloadLast [(28, 0)]) := by decide

/-- A die whose token 2 of thread 0 is used once, and whose thread 1 is READY. -/
def tokDie : Die := actDie.setThread 1 { st := .ready, counts := [(2, 1), (3, 14)] }

/-- A WAIT on token 2, with a limit of 1 µs. -/
def waitTwo : OpWord := ⟨0, 4, 64⟩

theorem witness_ThreadOpsComplete :
    Passes tokDie 1 0x00 (word 0) [] ∧ Passes tokDie 1 0x06 (word 0) [] ∧
    (Passes tokDie 1 0x03 (word (4 * 2 ^ 22)) [(24, 0)] ∧ opField (word (4 * 2 ^ 22)).x 24 22 = 4) ∧
    Passes tokDie 1 0x04 (word 7) [(21, 0)] ∧ Passes tokDie 1 0x05 (word 0) [] ∧
    (Passes tokDie 0 0x01 waitTwo [(25, 0)] ∧ (tokDie.thread 0).tokensReady waitTwo.wait = true) ∧
    (Passes tokDie 1 0x01 waitTwo [(25, 0)] ∧ (tokDie.thread 1).tokensReady waitTwo.wait = false) ∧
    Passes tokDie 1 0x07 (word 1) [(0, 0)] ∧
    (Passes tokDie 0 0x02 (word (1 + 3 * 2 ^ 11)) [(15, 0)] ∧ (tokDie.thread 1).st ≠ .free ∧
      (tokDie.thread 1).cnt 3 = 14) ∧
    (Passes tokDie 0 0x02 (word (1 + 2 * 2 ^ 11 + 2 ^ 15)) [(15, 0)] ∧ (tokDie.thread 1).cnt 2 ≠ 0) := by decide

/-- LOOP at its last turn falls through, before it branches (R167). -/
theorem test_loop : (((after (.loopOp 0 1 (word 7)) (blk (actDie.setThread 1 { st := .ready, s := [(0, 1)] }))).die 0).thread
      1).pc = 1 ∧
    (((after (.loopOp 0 1 (word 7)) (blk (actDie.setThread 1 { st := .ready, s := [(0, 2)] }))).die 0).thread 1).pc = 7 := by
  decide

theorem witness_RejectedOpsReport :
    (canIssue actDie 0 = true ∧ preStall actDie 0 0x00 (word 1) = false ∧ (word 1).x ≠ 0) ∧
    (Passes actDie 0 0x03 (word (5 * 2 ^ 22)) [(24, 0)] ∧ 4 < opField (word (5 * 2 ^ 22)).x 24 22) ∧
    (Passes actDie 0 0x09 (word (0xC * 2 ^ 16)) [(19, 0), (95, 64)] ∧ 0xB < opField (word (0xC * 2 ^ 16)).x 19 16) := by
  decide

/-- A die whose thread 0 waits with a limit; one whose thread 0 waits for credit of entry 1, with a stall limit. -/
def heldDie : Die := actDie.setThread 0 { st := .waitToken, hold := .wait 4 true false 1 0 4 }
def stalledDie : Die := (((actDie.setThread 0 { st := .waitCredit }).setReg (ccBase 1 + 20) 1).setReg (blockedReg 0) (1 * 2 ^ 16 + 2 ^ 31))

/-- A die whose launch parameters name threads 2,046 and 2,047; one without threads. -/
def launchDie : Die := actDie.setReg 0x30010 (2046 + 1 * 2 ^ 11)
def idleDie : Die := { actDie with threads := [] }

theorem witness_ThreadEventsComplete :
    (heldDie.run = .active ∧ (heldDie.thread 0).hold = .wait 4 true false 1 0 4 ∧
      paused heldDie (heldDie.threadJob 0).toNat = false) ∧
    (rodUnitOn stalledDie = true ∧ (stalledDie.thread 0).st = .waitCredit ∧ stalledDie.flag (blockedReg 0) 31 = true ∧
      stalledDie.reg (ccBase (stalledDie.get ⟨blockedReg 0, 24, 16⟩) + 20) ≠ 0 ∧ stalledDie.flag 0x50008 0 = false) ∧
    (threadsFree launchDie (launchDie.get ⟨0x30010, 10, 0⟩) (launchDie.get ⟨0x30010, 21, 11⟩ + 1) = true ∧
      bitsOf (0x80000000 : BitVec 32).toNat 30 17 = 0 ∧ bitOf (0x80000000 : BitVec 32).toNat 31 = true) ∧
    threadsFree actDie (actDie.get ⟨0x30010, 10, 0⟩) (actDie.get ⟨0x30010, 21, 11⟩ + 1) = false ∧
    (bitsOf (0x80020000 : BitVec 32).toNat 30 18 = 0 ∧ bitsOf (0x80020000 : BitVec 32).toNat 17 0 = 131072 ∧
      progRefused idleDie (idleDie.get ⟨0x30024, 16, 0⟩) 131072 = false) := by decide

/-- LAUNCH leaves the thread's index in s0 (R160). -/
theorem test_launch : (((after (.launch 0 .mgmt 0x80000005) (blk launchDie)).die 0).thread 2047).sreg 0 = 1 ∧
    (((after (.launch 0 .mgmt 0x80000005) (blk launchDie)).die 0).thread 2047).pc = 5 ∧
    (((after (.launch 0 .mgmt 0x80000005) (blk launchDie)).die 0).thread 2047).st = .ready := by decide

/-- Region 0 of a die: the whole LPDDR, valid, for every class and job, read and write, with both controllers up. -/
def openRegion (d : Die) : Die :=
  (((d.setReg 0xC1000 0xFFFF0000).setReg 0xC1004 0x3FE0).setReg 0x70000 1).setReg 0x80000 1

/-- A die with a load of one op word to the last place of its program store; one whose scratchpad is being cleared,
and one with a word of it to write back. -/
def progDie : Die := { openRegion actDie with progLoad := some ⟨64, 131071, 1⟩ }
def clearDie : Die := { actDie with regs := [], spd := [(5, 1)] }
def spdWbDie : Die := { actDie with spdMarks := [(9, .single)], spdWb := some 9 }

theorem witness_ThreadEventsComplete_memory :
    (progDie.progLoad = some ⟨64, 131071, 1⟩ ∧ lpServes false 64 16 progDie = true ∧
      (unitsOk progDie ⟨.dma, false, progDie.world, 0⟩ (ceilDiv 1 4) 64).2 = none ∧ lpBad progDie 64 16 = []) ∧
    (clearDie.run = .active ∧ clearDie.clearing = true ∧ clearDie.clkLost = false) ∧
    (spdWbDie.spdWb = some 9 ∧ tabGet goodSpd spdWbDie.spdMarks 9 = .single) := by decide +kernel

/-- SCRATCHPAD_CLEAR ends the clearing pass with zeros (R175). -/
theorem test_scratchpad_clear : ((after (.scratchpadClear 0) (blk clearDie)).die 0).clearing = false ∧
    tabGet zeroByte ((after (.scratchpadClear 0) (blk clearDie)).die 0).spd 5 = 0 := by decide +kernel

/-- The corrected word loses its mark (R176). -/
theorem test_spdWriteBack : ((after (.spdWriteBack 0) (blk spdWbDie)).die 0).spdMarks = [] ∧
    ((after (.spdWriteBack 0) (blk spdWbDie)).die 0).spdWb = none := by decide

/-! ## The cube array -/

/-- A die whose thread 0 holds descriptors of 4 × 4 tiles of INT8, of one block at the end of the scratchpad. -/
def mmaDie : Die := actDie.setThread 0
  { st := .ready, descA := ⟨BitVec.ofNat 17 (spdWords - blockWords 7 4), 0, 7, 3, 3⟩
    descB := ⟨BitVec.ofNat 17 (spdWords - blockWords 7 4), 0, 7, 3, 0⟩ }

def mmaWord : OpWord := word (3 * 2 ^ 9 + 3 * 2 ^ 11 + 65535 * 2 ^ 16)
def drainWord : OpWord := word (3 * 2 ^ 9 + 3 * 2 ^ 11 + (spdWords - 128) * 2 ^ 25)
def loadWord : OpWord := word (spdWords - blockWords 12 4 + blockWords 12 4 * 2 ^ 20 + 12 * 2 ^ 36 + 3 * 2 ^ 40 + 3 * 2 ^ 42)
def loadWordB : OpWord := word (spdWords - blockWords 12 4 + blockWords 12 4 * 2 ^ 20 + 12 * 2 ^ 36 + 3 * 2 ^ 40)

theorem witness_MatrixComplete :
    (Passes mmaDie 0 0x10 mmaWord mmaFields ∧ HasRoom mmaDie 0 0x10 mmaWord ∧
      mmaChk mmaWord mmaDie (mmaDie.thread 0) = none) ∧
    (Passes actDie 0 0x13 (word 0) swapFields ∧ HasRoom actDie 0 0x13 (word 0)) ∧
    (Passes actDie 0 0x14 drainWord drainFields ∧ HasRoom actDie 0 0x14 drainWord ∧
      drainChk drainWord actDie (actDie.thread 0) = none) ∧
    (Passes actDie 0 0x15 (word (0xFFFF * 32)) zeroFields ∧ HasRoom actDie 0 0x15 (word (0xFFFF * 32))) ∧
    (Passes actDie 0 0x11 loadWord (loadFields true) ∧ opField loadWord.x 39 36 = 12 ∧
      blockWords (opField loadWord.x 39 36) (opField loadWord.x 41 40 + 1) ≤ opField loadWord.x 35 20) ∧
    Passes actDie 0 0x12 loadWordB (loadFields false) := by decide

/-- A die with a DRAIN queued, and one with a finished ZERO_ACC. -/
def drainDie : Die := (after (.drain 0 0 drainWord) (blk actDie)).die 0
def zeroDie : Die := (after (.zeroAcc 0 0 (word (0xFFFF * 32))) (blk actDie)).die 0

theorem witness_MatrixComplete_events :
    (drainDie.halted = false ∧ drainDie.clearing = false ∧ arrBusy drainDie 0x14 = false ∧
      ∃ m ∈ headMarker drainDie.ops, (drainDie.op? m.2).isSome = true) ∧
    (∃ o ∈ zeroDie.ops, o.phase = .done .ok ∧ o.kind = .op ∧ mayComplete zeroDie o = true) ∧ zeroDie.halted = false ∧
    accAccessOk 130560 512 = true ∧ accAccessOk 0 4 = true ∧ accAccessOk 2 4 = false := by decide +kernel

/-- ZERO_ACC clears the tiles of its mask in the inactive half (R117). -/
theorem test_zeroAcc : leNat (tabSlice zeroByte ((after (.zeroAcc 0 0 (word (1 * 32 + 2 ^ 21)))
    (blk { actDie with acc := [(16 * 4096, 5), (17 * 4096, 6)] })).die 0).acc (16 * 4096) 4) = 0 ∧
    leNat (tabSlice zeroByte ((after (.zeroAcc 0 0 (word (1 * 32 + 2 ^ 21)))
      (blk { actDie with acc := [(16 * 4096, 5), (17 * 4096, 6)] })).die 0).acc (17 * 4096) 4) = 6 := by decide +kernel

/-- SWAP flips the half and moves nothing (R106). -/
theorem test_swap : activeHalf ((after (.swap 0 0 (word 0)) (blk actDie)).die 0) = true := by decide

theorem witness_ArrayStepEffects :
    (∃ o ∈ zeroDie.ops, o.kind = .op ∧ bitOf o.x.toNat (5 + 15 % 16) = true) ∧ groupOk 15 1 1 = true ∧
    31 ∉ (groupTiles 15 1 1).map (physTile (activeHalf actDie)) ∧
    15 ∈ (groupTiles 15 1 1).map (physTile (activeHalf actDie)) := by decide +kernel

/-- −128 × −128 saturates the highest sum (R98). -/
theorem test_int8_saturates : accInt (some 0x7FFFFFFF) [⟨elemNum 7 0x80, false⟩] [⟨elemNum 7 0x80, false⟩] =
    (some 0x7FFFFFFF, { ov := true }) := by decide

theorem witness_Int8SumsSaturate : [(0 : Fin 256), 255].length = [(1 : Fin 256), 128].length := by decide

theorem witness_CompletionSignalsThread : ∃ o ∈ zeroDie.ops, o.kind = .op ∧ o.sig = false ∧ o.flags.getLsbD 0 = false := by
  decide +kernel

/-! ## The vector unit -/
/-- V64 to V127 from V0 to V63, the longest range whose destination is apart from its sources. -/
def vecWord : OpWord := word (64 * 2 ^ 5 + 63 * 2 ^ 37)
/-- A register op of the vector queue on the first scale register. -/
def vecRegWord : OpWord := word (0x100 * 2 ^ 12)

theorem witness_VectorOpsComplete :
    (∀ op ∈ [0x20, 0x21, 0x22, 0x23, 0x24, 0x25, 0x26, 0x27, 0x28, 0x29, 0x2A, 0x2B, 0x2C, 0x2D, 0x2E, 0x2F, 0x30, 0x31,
        0x32, 0x33, 0x34, 0x35],
      Passes actDie 0 op vecWord (vecFields op) ∧ HasRoom actDie 0 op vecWord ∧
        vecChk op vecWord actDie (actDie.thread 0) = none) ∧
    (∀ op ∈ [0x3A, 0x3B], Passes actDie 0 op vecRegWord (vecFields op) ∧ HasRoom actDie 0 op vecRegWord ∧
        vecChk op vecRegWord actDie (actDie.thread 0) = none) := by decide

/-- CONVERT of 4 blocks from binary32 to BF16; RNG_DRAW of 1,536 blocks at the end of the scratchpad. -/
def cvtWord : OpWord := word (12 * 2 ^ 5 + 3 * 2 ^ 9 + 100 * 2 ^ 24 + 200 * 2 ^ 41 + 4 * 2 ^ 75)
def drawWord : OpWord := word (2 ^ 5 + (spdWords - 384) * 2 ^ 24 + 1536 * 2 ^ 75)

theorem witness_VectorOpsComplete_streams :
    (Passes actDie 0 0x38 cvtWord [(22, 0), (40, 24), (57, 41), (74, 58), (90, 75)] ∧ HasRoom actDie 0 0x38 cvtWord ∧
      cvtChk cvtWord actDie (actDie.thread 0) = none) ∧
    (Passes actDie 0 0x39 drawWord [(6, 0), (40, 24), (90, 75)] ∧ HasRoom actDie 0 0x39 drawWord ∧
      opField drawWord.x 6 5 = 1 ∧
      inSpd (512 * (opField drawWord.x 40 24 + (oregOff (actDie.thread 0) drawWord).toNat)) (128 * opField drawWord.x 90 75) = true ∧
      512 * opField drawWord.x 40 24 + 128 * opField drawWord.x 90 75 = spdBytes) := by decide

theorem witness_VectorValuesFrame :
    (∀ op ∈ [0x20, 0x2F], rangesOk op (vecF vecWord.x) = true) ∧
    (vecF vecWord.x).vd + (vecF vecWord.x).len = 127 := by decide

/-- An op of the vector queue as it runs. -/
def vecOp (op : Nat) (x : Nat) (v : Word64) : LongOp :=
  { newOp actDie 0 op (word x) .vector with sval := v }

/-- V2 becomes V0 + V1, with 1 and 2 in every lane. -/
def sumDie : Die := runValues 0x20 (vecOp 0x20 (2 * 2 ^ 5 + 0 * 2 ^ 12 + 1 * 2 ^ 19) 0)
  (setVreg (setVreg actDie 0 (List.replicate 64 0x3F800000)) 1 (List.replicate 64 0x40000000))

/-- 1 + 2 = 3 in every lane, and the register beside it stays (R186). -/
theorem test_vadd : (vreg sumDie 2).getD 0 0 = 0x40400000 ∧ (vreg sumDie 2).getD 63 0 = 0x40400000 ∧
    (vreg sumDie 3).getD 0 0 = 0 := by decide +kernel

/-- 1 / 0 is an infinity and raises DIVZERO (R129). -/
theorem test_vdiv_zero : (vecVal 0x24 0 0x3F800000 0 0).1 = 0x7F800000 ∧ (vecVal 0x24 0 0x3F800000 0 0).2.dz = true := by
  decide +kernel

/-- The maximum of +0 and −0 is +0 (R129). -/
theorem test_vmax_zeros : (vecVal 0x27 0 0x80000000 0 0).1 = 0 := by decide +kernel

/-- √2 to the nearest binary32 (R129). -/
theorem test_vsqrt : (vecVal 0x25 0 0x40000000 0 0).1 = 0x3FB504F3 := by decide +kernel

theorem witness_VectorMovesValues :
    (vecF vecWord.x).vd + (vecF vecWord.x).len ≤ 127 ∧ (vecF vecWord.x).f64 = false ∧
    spdBad actDie (256 * (vecOp 0x32 (196607 * 2 ^ 12) 0).addr 29 12) 256 = [] ∧
    (vecOp 0x32 (196607 * 2 ^ 12) 0).addr 29 12 = 196607 := by decide

/-- VSPLAT and VGET (R186). -/
theorem test_vsplat_vget :
    (vreg (runVec (vecOp 0x34 (5 * 2 ^ 5) 0x12345678) actDie).2.2 5).getD 63 0 = 0x12345678 ∧
    (runVec (vecOp 0x35 (9 * 2 ^ 45 + 2 * 2 ^ 12 + 1 * 2 ^ 26) 0) (setVreg actDie 2 [7, 8])).2.1 = some (9, 8) := by
  decide +kernel

/-- Halves round to even (R131): 2.5 is 2 and 3.5 is 4, and both are 3 away from zero upward. -/
theorem test_rounding : (roundAt .rne false 5 (-1) 0 false).q = 2 ∧ (roundAt .rne false 7 (-1) 0 false).q = 4 ∧
    (roundAt .rup false 5 (-1) 0 false).q = 3 ∧ (roundAt .rtz false 5 (-1) 0 false).q = 2 ∧
    (roundAt .rdn true 5 (-1) 0 false).q = 3 := by decide

theorem witness_NumberFormats : (-1 : Int) < 0 ∧ 127 < 2 ^ (1 + fmtE4M3.eb + fmtE4M3.mb) ∧
    decodeF fmtE4M3 126 ≠ .nan false ∧ decodeF fmtE4M3 126 ≠ .nan true := by decide +kernel

/-- E4M3: 0x7E is 448, the largest number; 0x7F is a NaN (R121, R122). -/
theorem test_e4m3 : packF fmtB32 .rne false (decodeF fmtE4M3 0x7E) false = (0x43E00000, fl0) ∧ canonNan fmtE4M3 = 0x7F := by decide +kernel

/-! ## Movement -/
/-- One port word from the last of the scratchpad to the end of LPDDR; one beyond the scratchpad. -/
def dmaWord : OpWord := word (2 ^ 5 + (spdWords - 1) * 2 ^ 6 + (2 ^ 29 - 8) * 2 ^ 23 + 1 * 2 ^ 52)
def dmaOver : OpWord := word ((spdWords - 1) * 2 ^ 6 + 2 * 2 ^ 52)
/-- A SKEWCOPY of one block to the end of the scratchpad; a GATHER of 16 items; a WIDEN of one block. -/
def skewWord : OpWord := word (2 ^ 6 + 7 * 2 ^ 7 + (spdWords - 2) * 2 ^ 15 + 2 * 2 ^ 32 + 1 * 2 ^ 48)
def needleWord : OpWord := word ((spdWords - 1) * 2 ^ 5 + 0 * 2 ^ 22 + 16 * 2 ^ 69)
def widenWord : OpWord := word (0 * 2 ^ 5 + 10 * 2 ^ 9 + 0 * 2 ^ 13 + 8 * 2 ^ 31 + 1 * 2 ^ 60)

theorem witness_MovementOpsComplete :
    (Passes actDie 0 0x40 dmaWord [(68, 0)] ∧ HasRoom actDie 0 0x40 dmaWord ∧
      opField dmaWord.x 22 6 + opField dmaWord.x 68 52 = spdWords ∧
      64 * opField dmaWord.x 51 23 + 512 * opField dmaWord.x 68 52 = 2 ^ 35) ∧
    (Passes actDie 0 0x41 skewWord [(92, 0)] ∧ HasRoom actDie 0 0x41 skewWord ∧
      skewChk skewWord actDie (actDie.thread 0) = none) ∧
    (Passes actDie 0 0x42 needleWord [(4, 0), (84, 5)] ∧ HasRoom actDie 0 0x42 needleWord ∧
      needleChk needleWord actDie (actDie.thread 0) = none) ∧
    (Passes actDie 0 0x43 needleWord [(4, 0), (84, 5)] ∧ HasRoom actDie 0 0x43 needleWord) ∧
    (Passes actDie 0 0x44 widenWord [(75, 0)] ∧ HasRoom actDie 0 0x44 widenWord ∧
      widenChk widenWord actDie (actDie.thread 0) = none) := by decide

/-- A DMA op of one word as it runs: from LPDDR 64 to scratchpad word 1, or back. -/
def dmaOp (toLp : Bool) : LongOp :=
  newOp actDie 0 0x40 (word (bit toLp * 2 ^ 5 + 1 * 2 ^ 6 + 1 * 2 ^ 23 + 1 * 2 ^ 52)) .dma

theorem witness_DmaCopiesBytes :
    (Passes actDie 0 0x40 dmaOver [(68, 0)] ∧ spdWords < opField dmaOver.x 22 6 + opField dmaOver.x 68 52) ∧
    (∀ b, (unitsOk (openRegion actDie) (dmaReq (openRegion actDie) (dmaOp b) b) 8 64) = (8, none)) ∧
    (∀ b, (unitsOk actDie (dmaReq actDie (dmaOp b) b) 8 64) = (0, some .malformed)) ∧
    lpBad (openRegion actDie) 64 512 = [] ∧ spdBad (openRegion actDie) 512 512 = [] := by decide +kernel

/-- A DMA moves 512 bytes and leaves the byte after them (R178). -/
theorem test_dma : let d := (runDma (dmaOp false) { openRegion actDie with lpddr := [(64, 7), (575, 8), (576, 9)] }).2
    (tabGet zeroByte d.spd 512, tabGet zeroByte d.spd 1023, tabGet zeroByte d.spd 1024) = (7, 8, 0) := by decide +kernel

/-! ## Rods and beads -/

/-- A die whose entry 1 names rod 9 of die 4 in package 2, OPEN with 20 of 30 units, and whose rod 9 has a ring of 16. -/
def rodDie : Die := { actDie with
  regs := [(0x2000C, 0), (ccBase 1, 0x80484002), (ccBase 1 + 4, 5), (ccBase 1 + 8, 20), (ccBase 1 + 12, 30),
           (rodBase 9, 1), (rodBase 9 + 8, 1)]
  threads := [(0, { st := .ready, s := [(1, 0x20860000000009), (2, 0)] })] }

/-- SENDs to it: of 7 units of payload, and in bulk of 19 and of 20 units. -/
def sendWord : OpWord := word (1 * 2 ^ 5 + 2 * 2 ^ 10 + 7 * 2 ^ 47)
def sendBulk (n : Nat) : OpWord := word (1 * 2 ^ 5 + 2 * 2 ^ 10 + 2 ^ 15 + n * 2 ^ 47)

theorem witness_MessageOpsComplete :
    (Passes rodDie 0 0x52 (word (9 * 32)) [(42, 0)] ∧ HasRoom rodDie 0 0x52 (word (9 * 32))) ∧
    (Passes rodDie 0 0x51 (word (9 * 32 + 2 ^ 17 + 98303 * 2 ^ 18)) [(55, 36), (34, 0)] ∧
      HasRoom rodDie 0 0x51 (word (9 * 32 + 2 ^ 17 + 98303 * 2 ^ 18))) ∧
    (Passes rodDie 0 0x53 (word (9 * 32 + 3 * 2 ^ 17 + 16 * 2 ^ 22)) [(46, 0)] ∧
      HasRoom rodDie 0 0x53 (word (9 * 32 + 3 * 2 ^ 17 + 16 * 2 ^ 22)) ∧
      openChk (word (9 * 32 + 3 * 2 ^ 17 + 16 * 2 ^ 22)) rodDie (rodDie.thread 0) = none) ∧
    (Passes rodDie 0 0x54 (word (9 * 32 + 2 ^ 18 + 3 * 2 ^ 19)) [(23, 0)] ∧
      HasRoom rodDie 0 0x54 (word (9 * 32 + 2 ^ 18 + 3 * 2 ^ 19)) ∧ badWriter ((rodDie.thread 0).sreg 3) = false) := by
  decide

theorem witness_MessageOpsComplete_send :
    (Passes rodDie 0 0x50 (sendBulk 19) [(70, 0)] ∧ sendChk (sendBulk 19) rodDie (rodDie.thread 0) = none ∧
      sendEntry rodDie ((rodDie.thread 0).sreg 1) = some 1 ∧ sendUnits (sendBulk 19).x = ccAvail rodDie 1 ∧
      rodDie.sendsOut < 1024 ∧ tokenFull (rodDie.thread 0) (sendBulk 19) = false) ∧
    (Passes rodDie 0 0x50 (sendBulk 20) [(70, 0)] ∧ sendChk (sendBulk 20) rodDie (rodDie.thread 0) = none ∧
      ccAvail rodDie 1 < sendUnits (sendBulk 20).x) ∧
    sendChk sendWord rodDie (rodDie.thread 0) = none := by decide +kernel

/-- A SEND takes its units from AVAIL (R203), though its memory does not serve yet, and an OPEN grants them (R204). -/
theorem test_send_open : ccAvail ((after (.send 0 0 ⟨0, 0, (sendBulk 3).x + 2 ^ 16⟩) (blk rodDie)).die 0) 1 = 16 ∧
    ((after (.openOp 0 0 (word (9 * 32 + 3 * 2 ^ 17 + 16 * 2 ^ 22))) (blk rodDie)).die 0).reg (grantedReg 9) = 16 := by
  decide +kernel

/-- A die with a PEEK that waits on rod 9 with a limit of 1; one whose handle 5 waits for the answer of a SEND. -/
def peekDie : Die := (after (.peek 0 0 (word (9 * 32 + 1 * 2 ^ 23))) (blk rodDie)).die 0
def sentDie : Die := { rodDie with handles := [(5, some ⟨0, .send 1 8, 5, 0, 0⟩)] }

theorem witness_OpTimersComplete :
    (∃ o ∈ peekDie.ops, o.unit = .msg ∧ o.opcode = 0x52 ∧ rodTimeoutOf o ≠ 0 ∧ paused peekDie o.job.toNat = false) ∧
    (tabGet noHandle sentDie.handles 5 = some ⟨0, .send 1 8, 5, 0, 0⟩ ∧ ccEpoch sentDie 1 = 5 ∧ ccState sentDie 1 = 0) := by
  decide

/-- Bulk beads of 16 units to rod 9 of the die, bit by bit by R195: of epoch 0, of epoch 0 to the secure world, of epoch 1. -/
def dataBead : BitVec 256 := 0xe18d00000000000010000000000000000000000000100000400200480000
def dataSecure : BitVec 256 := 0x3fad00000000000010000000000000000000000000100000400280480000
def dataLate : BitVec 256 := 0x137200000000000010000000000000000000001000100000400200480000

/-- OPEN, CLOSE, CREDIT, DELIVERED and NAK beads from rod 9 of die 4 in package 2 for epoch 5, and some of another epoch or
from rod 8. -/
def openB : BitVec 256 := 0xba8e00ffffe1000001000000000000000000005000300048400200000000
def openLate : BitVec 256 := 0xebc70000000a000001000000000000000000006000300048400200000000
def closeB : BitVec 256 := 0x84d400000000000001000000000000000000005000400048400200000000
def closeLate : BitVec 256 := 0x83f400000000000001000000000000000000006000400048400200000000
def closeOther : BitVec 256 := 0xda7700000000000001000000000000000000005000400040400200000000
def creditB : BitVec 256 := 0x2f870000000b000001000000000000000000005001500048400200000000
def creditLate : BitVec 256 := 0x28a70000000b000001000000000000000000006001500048400200000000
def creditOther : BitVec 256 := 0x7900000000a000001000000000000000000005001500040400200000000
def deliveredB : BitVec 256 := 0x893600000000000001000000000000500000005000500000400200000000
def nakB : BitVec 256 := 0xb9f300000000000001000000000000500000005010200000400200000000

/-- The same die with rod 9 in the secure world, and with rod 9 closed. -/
def secureRod : Die := rodDie.setReg (rodBase 9) 5
def closedRod : Die := rodDie.setReg (rodBase 9) 0

/-- The payload of a bead of 16 units. -/
def pay480 : Bytes := List.replicate 480 1

/-- A die with a bead alone in its inbox. -/
def withBead (h : BitVec 256) (bs : Bytes) (d : Die) : Die := { d with inbox := [.bead h bs] }

def whole (d : Die) (h : BitVec 256) : Bool :=
  let b := beadOf h
  decide (d.run = .active) && hdrOk h && decide (b.kind ≤ 1) && !beadBad h && decide (b.dstDie ≠ 127) &&
    decide (pay480.length + 32 = 32 * b.length) && decide ((withBead h pay480 d).inbox = .bead h pay480 :: [])

/-- The data bead with a status that R195 reserves, and to die 127. -/
def badBead : BitVec 256 := packBead { beadOf dataBead with status := 1 }
def bead127 : BitVec 256 := packBead { beadOf dataBead with dstDie := 127 }
/-- The same die with its ring full, and one whose scratchpad is being cleared. -/
def fullRod : Die := (setRodBeads 9 [⟨dataBead, false, 0⟩] rodDie).setReg (rodBase 9 + 20) 16
def clearRod : Die := { rodDie with regs := rodDie.regs.drop 1 }

theorem witness_BeadArrivalComplete :
    (whole rodDie dataBead = true ∧ worldOk (beadOf dataBead).world (rodWorld rodDie 9) = true ∧
      (beadOf dataBead).epoch = rodEpoch rodDie 9 ∧ rodOpen rodDie 9 = true ∧ (beadOf dataBead).job = rodJob rodDie 9 ∧
      rodPlace rodDie 9 16 = some (false, 0) ∧ rodDie.clearing = false) ∧
    (whole clearRod dataBead = true ∧ rodPlace clearRod 9 16 = some (false, 0) ∧ clearRod.clearing = true) ∧
    worldOk (beadOf dataSecure).world (rodWorld rodDie 9) = true ∧
    (whole secureRod dataBead = true ∧ worldOk (beadOf dataBead).world (rodWorld secureRod 9) = false) ∧
    (whole rodDie dataLate = true ∧ worldOk (beadOf dataLate).world (rodWorld rodDie 9) = true ∧
      (beadOf dataLate).epoch ≠ rodEpoch rodDie 9) ∧
    (whole closedRod dataBead = true ∧ worldOk (beadOf dataBead).world (rodWorld closedRod 9) = true ∧
      (beadOf dataBead).epoch = rodEpoch closedRod 9 ∧ rodOpen closedRod 9 = false) ∧
    (whole fullRod dataBead = true ∧ rodOpen fullRod 9 = true ∧ rodPlace fullRod 9 16 = none) := by decide +kernel

theorem witness_BeadArrivalComplete_bad :
    (hdrOk badBead = true ∧ (beadOf badBead).kind ≤ 1 ∧ beadBad badBead = true) ∧
    (hdrOk bead127 = true ∧ (beadOf bead127).kind ≤ 1 ∧ (beadOf bead127).dstDie = 127) ∧
    ([] : Bytes).length + 32 ≠ 32 * (beadOf dataBead).length := by decide +kernel

/-- A bead of 16 units fills the ring of 16 (R205), and the next finds no room. -/
theorem test_bead_arrival :
    let d := (after (.beadArrival 0 dataBead pay480 false) (blk (withBead dataBead pay480 rodDie))).die 0
    rodPlace d 9 1 = none ∧ tabGet zeroByte d.spd 32 = 1 ∧ tabGet zeroByte d.spd 511 = 1 := by decide +kernel

def good (h : BitVec 256) (k : Nat) : Bool :=
  hdrOk h && !beadBad h && decide ((beadOf h).kind = k) && decide ((beadOf h).dstDie ≠ 127)

/-- The entry a bead's source finds in the die. -/
def srcOf (d : Die) (h : BitVec 256) : Option Nat := ccFind d (beadOf h).srcPkg (beadOf h).srcDie (beadOf h).srcRod

theorem witness_CreditBeadsComplete :
    (good openB 3 = true ∧ srcOf rodDie openB = some 1 ∧ ccState rodDie 1 = 0 ∧ ccEpoch rodDie 1 = (beadOf openB).epoch ∧
      ccGrant rodDie 1 + (beadOf openB).credit = 16777215) ∧
    (good openLate 3 = true ∧ srcOf rodDie openLate = some 1 ∧ ccEpoch rodDie 1 ≠ (beadOf openLate).epoch) ∧
    (good closeB 4 = true ∧ srcOf rodDie closeB = some 1 ∧ ccEpoch rodDie 1 = (beadOf closeB).epoch) ∧
    (good closeLate 4 = true ∧ srcOf rodDie closeLate = some 1 ∧ ccEpoch rodDie 1 ≠ (beadOf closeLate).epoch) ∧
    (good closeOther 4 = true ∧ srcOf rodDie closeOther = none) ∧
    (good creditB 5 = true ∧ (beadOf creditB).csub = 1 ∧ srcOf rodDie creditB = some 1 ∧
      ccEpoch rodDie 1 = (beadOf creditB).epoch ∧ ccGrant rodDie 1 < ccAvail rodDie 1 + (beadOf creditB).credit) ∧
    (good creditLate 5 = true ∧ (beadOf creditLate).csub = 1 ∧ srcOf rodDie creditLate = some 1 ∧
      ccEpoch rodDie 1 ≠ (beadOf creditLate).epoch) ∧
    (good creditOther 5 = true ∧ (beadOf creditOther).csub = 1 ∧ srcOf rodDie creditOther = none) ∧
    (withBead openB [] rodDie).inbox = .bead openB [] :: [] := by decide +kernel

/-- The same beads with a destination rod, which R205 rejects. -/
def badOf (h : BitVec 256) : BitVec 256 := packBead { beadOf h with dstRod := 1 }

theorem witness_CreditBeadsComplete_bad :
    [openB, closeB, creditB, deliveredB].all (fun h => hdrOk (badOf h) && beadBad (badOf h) &&
      decide ((beadOf (badOf h)).kind = (beadOf h).kind) && decide ((beadOf (badOf h)).csub = (beadOf h).csub)) = true := by
  decide +kernel

theorem witness_CreditBeadsComplete_handles :
    (good deliveredB 5 = true ∧ (beadOf deliveredB).csub = 0 ∧
      handleFor sentDie (beadOf deliveredB) = some ⟨0, .send 1 8, 5, 0, 0⟩) ∧
    (good nakB 2 = true ∧ statusOf (beadOf nakB).status ≠ none ∧
      handleFor sentDie (beadOf nakB) = some ⟨0, .send 1 8, 5, 0, 0⟩) := by decide +kernel

/-- CREDIT of 11 on 20 of 30 leaves 30 (R202); a CLOSE leaves none; a CREDIT of another epoch is late. -/
theorem test_credit_close :
    ccAvail ((after (.credit 0 creditB) (blk (withBead creditB [] rodDie))).die 0) 1 = 30 ∧
    ccAvail ((after (.closeBead 0 closeB) (blk (withBead closeB [] rodDie))).die 0) 1 = 0 ∧
    ccAvail ((after (.closeBead 0 closeLate) (blk (withBead closeLate [] rodDie))).die 0) 1 = 20 ∧
    ((after (.credit 0 creditLate) (blk (withBead creditLate [] rodDie))).die 0).reg 0x50018 = 1 := by decide +kernel

/-- A die whose router names: logical 1 here, 2 to the north, 3 nowhere and 4 to the west; and two such in a block. -/
def routeDie : Die := { actDie with
  regs := [(0x2000C, 0), (0x50104, 0), (0x50108, 1), (0x5010C, 7), (0x50110, 4)] }
def routeBlk (segs : Tab (List Seg)) : State :=
  { dies := [(0, routeDie), (1, { routeDie with rt := segs }), (10, routeDie)], pins := ⟨true, true, true, true⟩ }

/-- Frames to logical dies 1 to 3 of package 0; and the first with a bit of its header wrong. -/
def toL1 : BitVec 256 := 0x52bf00000000000001000000000000000000000000000000000000001000
def toL2 : BitVec 256 := 0x987c00000000000001000000000000000000000000000000000000002000
def toL3 : BitVec 256 := 0xde3d00000000000001000000000000000000000000000000000000003000
def toBad : BitVec 256 := 0xde3d00000000000001000000000000000000000000000000000000003001

/-- A segment that is a whole frame. -/
def segOf (h : BitVec 256) : Seg := { frame := .bead h [] }
/-- P1 with a frame at its senders' input. -/
def fwdBlk (h : BitVec 256) : State := routeBlk [(0, [segOf h])]
/-- P1 with frames for the north from its senders and from its west seam. -/
def twoBlk : State := routeBlk [(0, [segOf toL2]), (8, [segOf toL2])]

theorem witness_RouterForwardComplete :
    [toL1, toL2, toL3, toBad].all (fun h => routerOn (fwdBlk h) 1 &&
      [0, 1, 7].all (fun out => decide (dueTally (fwdBlk h) 1 out = none))) = true ∧
    turnOf (fwdBlk toL1) 1 0 = some (0, 0, 0, segOf toL1, .go 0 0 none) ∧
    neighbour 1 1 = some 10 ∧ isTally (.bead toL2 []) = false ∧ frameOk (.bead toBad []) = false := by decide +kernel

theorem witness_RouterForwardComplete_ways :
    turnOf (fwdBlk toL2) 1 1 = some (0, 0, 0, segOf toL2, .go 1 0 none) ∧
    turnOf (fwdBlk toL3) 1 7 = some (0, 0, 0, segOf toL3, .refused .unreachable) ∧
    (contenders twoBlk 1 1 1).isEmpty = true := by decide +kernel

theorem witness_RouterForwardComplete_turns :
    (contenders twoBlk 1 1 0).map (fun c => c.1) = [0, 4] ∧ turnOf (fwdBlk toBad) 1 7 = some (0, 0, 0, segOf toBad, .discard) := by decide +kernel

/-- A frame to the north waits at the neighbour's south side (R215); the two inputs are served in turn. -/
theorem test_router_forward :
    rtQueue ((after (.routerForward 1 1 (.bead toL2 [])) (fwdBlk toL2)).die 10) 6 = [segOf toL2] ∧
    (turnOf twoBlk 1 1).map (fun x => x.2.1) = some 0 ∧
    (turnOf (after (.routerForward 1 1 (.bead toL2 [])) twoBlk) 1 1).map (fun x => x.2.1) = some 4 := by decide +kernel

/-- A bead with every field at the end of its range. -/
def maxBead : Bead :=
  { dstPkg := 4095, dstDie := 127, dstRod := 4095, srcPkg := 4095, srcDie := 127, srcRod := 4095, job := 15, kind := 15
    csub := 15, status := 255, epoch := 65535, seq := 65535, handle := 1023, tag := 4294967295, version := 255
    length := 16777215, credit := 16777215 }

theorem witness_BeadHeaderRoundTrip : maxBead.dstPkg < 2 ^ 12 ∧ maxBead.job < 16 ∧ maxBead.credit < 2 ^ 24 ∧
    (packBead maxBead).toNat ≠ 0 := by decide +kernel

theorem witness_CreditWithinGrant : ccAvail rodDie 1 ≤ ccGrant rodDie 1 ∧ ccAvail rodDie 511 ≤ ccGrant rodDie 511 ∧
    ccAvail rodDie 1 < ccGrant rodDie 1 := by decide

/-! ## Versions -/

/-- Stage 1 of 8 slots to the end of LPDDR, LAG 1, START 1 and last commit 7: slot 0 LIVE with number 5 and one reference
short of the most, 1 OPEN with 6, 2 OPEN_COMMITTED with 7, 3 LIVE with 8 and one pin short of the most, 4 LIVE with 9. -/
def verDie : Die := { actDie with
  regs := [(0x2000C, 0), (0x60100, 0x701), (0x60104, 8 + 4095 * 2 ^ 15), (0x60108, 1), (0x60110, 0x01070000),
    (0x60120, 4 + 5 * 2 ^ 8 + 65534 * 2 ^ 16), (0x60128, 1 + 6 * 2 ^ 8), (0x60130, 3 + 7 * 2 ^ 8),
    (0x60138, 4 + 8 * 2 ^ 8), (0x6013C, 14), (0x60140, 4 + 9 * 2 ^ 8)]
  threads := [(0, { st := .ready, s := [(1, 5), (2, 20), (3, 6), (4, 7), (5, 8), (6, 9), (7, 261), (8, 2 ^ 48 - 248),
    (9, 2 ^ 48 - 1)] })] }

/-- The same stage with no version and START 0. -/
def emptyVer : Die := { verDie with regs := [(0x2000C, 0), (0x60100, 0x701), (0x60104, 8 + 4095 * 2 ^ 15)] }

/-- A version op on stage 1 whose number is in scalar `sa`. -/
def verWord' (sa : Nat) : OpWord := word (2 ^ 5 + 10 * 2 ^ 9 + sa * 2 ^ 14)
def releaseWord (sa : Nat) : OpWord := word (2 ^ 5 + sa * 2 ^ 14)

def verReady (d : Die) (op m sa bits : Nat) (fs : List (Nat × Nat)) : Bool :=
  let w := if op = 0x72 then verWord' sa else withMode 8 7 (if op = 0x73 then releaseWord sa else verWord' sa) m
  decide (Passes d 0 op w fs) && decide (HasRoom d 0 op w) && decide (verSa w.x (d.thread 0) < 2 ^ bits) &&
    verEnable d 1 && decide (verJob d 1 = (d.threadJob 0).toNat)

theorem witness_VersionUseComplete :
    (verReady verDie 0x70 0 7 48 [(38, 0)] = true ∧ verStart verDie 1 ≤ 261 ∧ slotOf verDie 1 (windowNumber verDie 1 261) = some 0 ∧
      slotState verDie 1 0 = 4 ∧ slotRefs verDie 1 0 = 65534) ∧
    (verReady verDie 0x70 0 8 48 [(38, 0)] = true ∧ slotOf verDie 1 (windowNumber verDie 1 (2 ^ 48 - 248)) = some 3 ∧
      slotState verDie 1 3 = 4) ∧
    (verReady verDie 0x70 1 1 8 [(38, 0)] = true ∧ slotOf verDie 1 5 = some 0) ∧
    (verReady verDie 0x70 1 2 8 [(38, 0)] = true ∧ slotOf verDie 1 20 = none ∧ absentWaits verDie 1 20 = true) ∧
    (verReady verDie 0x70 1 3 8 [(38, 0)] = true ∧ slotOf verDie 1 6 = some 1 ∧ slotState verDie 1 1 = 1) ∧
    (verReady verDie 0x70 2 1 8 [(38, 0)] = true) := by decide +kernel

theorem witness_VersionNewComplete :
    (verReady verDie 0x71 0 9 48 [(18, 0)] = true ∧ slotOf verDie 1 0 = none ∧ freeSlot verDie 1 = some 5 ∧
      bitsOf (verDie.reg (verBase 1 + 4)) 14 0 + verSlots verDie 1 * bitsOf (verDie.reg (verBase 1 + 4)) 26 15 = 32768) ∧
    (verReady verDie 0x71 1 3 8 [(18, 0)] = true ∧ slotOf verDie 1 6 = some 1 ∧ slotState verDie 1 1 = 1) ∧
    (verReady verDie 0x71 1 4 8 [(18, 0)] = true ∧ slotOf verDie 1 7 = some 2 ∧ slotState verDie 1 2 = 3) ∧
    (verReady emptyVer 0x71 2 9 48 [(18, 0)] = true ∧ (List.range 8).all (fun i => decide (slotState emptyVer 1 i = 0)) = true ∧
      2 ^ 48 - 1 = (verStart emptyVer 1 + 2 ^ 48 - 1) % 2 ^ 48 ∧ freeSlot emptyVer 1 = some 0) := by decide +kernel

theorem witness_VersionPinReleaseComplete :
    (verReady verDie 0x72 0 5 8 [(6, 0), (19, 9)] = true ∧ slotOf verDie 1 8 = some 3 ∧ slotState verDie 1 3 = 4 ∧
      slotPins verDie 1 3 = 14) ∧
    (verReady verDie 0x73 0 1 8 [(8, 0), (18, 14)] = true ∧ slotRefs verDie 1 0 ≠ 0) ∧
    (verReady verDie 0x73 1 5 8 [(8, 0), (18, 14)] = true ∧ slotPins verDie 1 3 ≠ 0) ∧
    (verReady verDie 0x73 2 3 8 [(8, 0), (18, 14)] = true ∧ slotState verDie 1 1 ≠ 4) ∧
    (verReady verDie 0x73 2 6 8 [(8, 0), (18, 14)] = true ∧ slotOf verDie 1 9 = some 4 ∧ slotState verDie 1 4 = 4 ∧
      slotRefs verDie 1 4 = 0 ∧ slotPins verDie 1 4 = 0) := by decide +kernel

theorem witness_VersionReferenceCounts : slotRefs verDie 1 0 < 65535 ∧ slotRefs verDie 3 7 < 65535 ∧
    verAhead 8 5 = true ∧ verAhead 5 5 = false ∧ verAhead 128 1 = true ∧ verAhead 129 1 = false := by decide

/-- VER_USE BIND of window 261 takes number 5 (R231) and adds a reference (R233). -/
theorem test_ver_use : let d := (after (.verUseBind 0 0 (verWord' 7)) (blk verDie)).die 0
    slotRefs d 1 0 = 65535 ∧ verNewest d 1 = 5 ∧ verUsedValid d 1 = true := by decide +kernel

/-- SEAL of an OPEN_COMMITTED slot makes it LIVE (R234). -/
theorem test_ver_seal : slotState ((after (.verNewSeal 0 0 (verWord' 4)) (blk verDie)).die 0) 1 2 = 4 := by decide +kernel

/-! ## Remote accumulation -/

/-- Context 5 of the first controller, U64 of two units at LPDDR 64 for generation 7, in a state word of its own: IDLE,
SWEEPING, ARMED or COMPLETE in bits 2:0 and CLEAN in bit 6, with pair (9, 4). -/
def ctxDie (status : Nat) : Die := { actDie with
  regs := [(0x2000C, 0), (0x70000, 1), (0x740A0, 1 + 2 * 2 ^ 6 + 7 * 2 ^ 16), (0x740A4, 1), (0x740A8, 2),
    (0x740AC, status + 4 * 2 ^ 24), (0x740B0, 9), (0xC1000, 0xFFFF0000), (0xC1004, 0x3FE0)] }

/-- Packets for it by R249: of its pair and generation, of another generation, and of older and newer pairs. -/
def rapNow : BitVec 512 := 0x535d000900000000000000000000020000400000000000900070050040000000000000000080
def rapGen : BitVec 512 := 0xa01f000900000000000000000000020000400000000000900080050040000000000000000080
def rapOld : BitVec 512 := 0xb954000900000000000000000000020000300000000000900070050040000000000000000040
def rapNewAtt : BitVec 512 := 0x7057000900000000000000000000020000500000000000900070050040000000000000000080
def rapNewStep : BitVec 512 := 0xe0c000900000000000000000000060000000000000000a00070050040000000000000000040
def pay64 (n : Nat) : Bytes := List.replicate (64 * n) 1

/-- A packet that the context takes up to the comparison of pairs. -/
def rapFits (d : Die) (h : BitVec 512) (payload : Bytes) : Bool :=
  let r := rapOf h
  let b := ctxBase r.mc r.ctx
  let a := bitsOf r.target 40 0
  let k := accPerUnit r.op
  decide (d.run = .active) && rapHdrOk h && !rapBad h payload && worldOk r.world (ctxWorld d b) && ctxEnable d b &&
    decide (r.job = ctxJob d b) && decide (r.op = ctxOp d b) && decide (ctxRange d b ≤ a) &&
    decide ((a - ctxRange d b) % k = 0) && decide (a + k * (r.len + 1) ≤ ctxRange d b + k * ctxUnits d b) &&
    lpServes false a (k * (r.len + 1)) d

/-- A die with a packet alone in its inbox. -/
def withRap (h : BitVec 512) (bs : Bytes) (d : Die) : Die := { d with inbox := [.rap h bs] }

theorem witness_PacketArrivalComplete :
    sweeping (ctxDie 2) false = false ∧ ctxState (ctxDie 2) 0x740A0 = 2 ∧
    (withRap rapNow (pay64 1) (ctxDie 2)).inbox = .rap rapNow (pay64 1) :: [] ∧
    ctxState (ctxDie 0x40) 0x740A0 = 0 ∧ ctxClean (ctxDie 0x40) 0x740A0 = true ∧ ctxClean (ctxDie 0) 0x740A0 = false ∧
    (rapFits (ctxDie 2) rapGen (pay64 1) = true ∧ (rapOf rapGen).gen ≠ ctxGen (ctxDie 2) 0x740A0) ∧
    (rapFits (ctxDie 2) rapOld (pay64 1) = true ∧ pairLt 9 3 9 4 = true) ∧
    (rapFits (ctxDie 2) rapNow (pay64 1) = true ∧ (rapOf rapNow).gen = ctxGen (ctxDie 2) 0x740A0 ∧
      (rapOf rapNow).step = ctxStep (ctxDie 2) 0x740A0 ∧ (rapOf rapNow).attempt = ctxAttempt (ctxDie 2) 0x740A0) ∧
    rapFits (ctxDie 0x40) rapNow (pay64 1) = true ∧ rapFits (ctxDie 0) rapNow (pay64 1) = true ∧
    (rapFits (ctxDie 2) rapNewAtt (pay64 1) = true ∧ (rapOf rapNewAtt).attempt = 5) ∧
    (rapFits (ctxDie 2) rapNewStep (pay64 2) = true ∧ (rapOf rapNewStep).step = 10) := by decide +kernel

/-- A packet of 64 units of TBI16 at the end of the second controller's range, to context 1535. -/
def bigRap : Rap := { target := 2 ^ 35 - 2 ^ 30 - 8192, ctx := 1535, mc := true, len := 63, lmaxe := 255 }
def bigBase : Nat := ctxBase true 1535
def bigDie : Die := { actDie with
  regs := [(0x2000C, 0), (bigBase, 1), (bigBase + 4, 0x1EFFFF80), (bigBase + 8, 64), (bigBase + 12, 2),
    (0xC1000, 0xFFFF0000), (0xC1004, 0x3FE0)] }

theorem witness_AcceptedPacketAdds :
    Memory.wf bigDie.lpddr = true ∧ bitsOf bigRap.target 40 0 % 64 = 0 ∧ accPerUnit bigRap.op = 128 ∧
    ctxPoison bigDie bigBase = false ∧ bigRap.eb = ctxEb bigDie bigBase ∧
    ctxReceived bigDie bigBase + 64 ≤ ctxContrib bigDie bigBase * ctxUnits bigDie bigBase ∧
    (List.range 128).all (fun i => decide (regionChk bigDie (ctxReq bigDie bigBase) (bigRap.target + 64 * i) 64 = none)) =
      true ∧
    lpBad bigDie bigRap.target 8192 = [] := by decide +kernel

/-- A packet of ones adds 1 to every byte of its unit (R250) and completes a context of one contributor and one more
unit (R255). -/
theorem test_rap_arrival : let d := (after (.rapArrival 0 rapNow (pay64 1)) (blk (withRap rapNow (pay64 1) (ctxDie 2)))).die 0
    tabGet zeroByte d.lpddr 127 = 0 ∧ tabGet zeroByte d.lpddr 128 = 1 ∧ tabGet zeroByte d.lpddr 191 = 1 ∧
    ctxReceived d 0x740A0 = 1 ∧ ctxState d 0x740A0 = 2 := by decide +kernel

/-- TBI16 adds −1 to 2^31 (R250). -/
theorem test_tbi16 : natAt (addUnit 0 (leBytes 128 (2 ^ 31)) (leBytes 64 0xFFFF)) 0 4 = 2 ^ 31 - 1 := by decide +kernel

/-- A die whose job 0 reduces step 9 at attempt 4 of generation 7, with a push of one unit in its scalars, and its
scalars for LEDGER_DONE. -/
def pushDie : Die := { actDie with
  regs := [(0x2000C, 0), (0x90100, 1), (0x90108, 7), (0x9010C, 9), (0x90110, 4 * 2 ^ 16)]
  threads := [(0, { st := .ready, s := [(1, 4 * 2 ^ 45 + 128), (2, 5 + 2 * 2 ^ 24 + 4 * 2 ^ 42), (3, 4), (4, 3),
    (5, 5 + 4 * 2 ^ 12), (6, 9), (7, 1535 + 2 ^ 11 + 4 * 2 ^ 12), (8, 0x2003)] })] }
def pushWord (off n : Nat) : OpWord := word (1 * 2 ^ 5 + 2 * 2 ^ 10 + off * 2 ^ 15 + n * 2 ^ 49)

theorem witness_PushSweepConfigComplete :
    (Passes pushDie 0 0x60 (pushWord 0 1) [(64, 0)] ∧ HasRoom pushDie 0 0x60 (pushWord 0 1) ∧
      pushChk 0 (pushWord 0 1) pushDie (pushDie.thread 0) = none) ∧
    (Passes pushDie 0 0x60 (pushWord 90112 65535) [(64, 0)] ∧
      pushChk 0 (pushWord 90112 65535) pushDie (pushDie.thread 0) = none) ∧
    (ctxState (ctxDie 1) 0x740A0 = 1 ∧ (unitsOk (ctxDie 1) (ctxReq (ctxDie 1) 0x740A0) 2 64).2 = none ∧
      lpServes false 64 128 (ctxDie 1) = true ∧
      (ledgerOps (ctxDie 1) 2).find? (fun o => decide (scCtx o = 0x740A0)) = none) ∧
    (ctxEnable actDie (ctxBase true 1535) = false ∧ ctxServed true 0 0 0 = true ∧
      ctxServed true (2 ^ 28 + 15 * 2 ^ 24 - 1) 1 2 = true ∧ ctxServed true (2 ^ 28 + 15 * 2 ^ 24) 1 2 = false) ∧
    (ctxEnable (ctxDie 2) 0x740A0 = true ∧ 2 * 2 ^ 6 + 7 * 2 ^ 16 + 1 = (ctxDie 2).reg 0x740A0) := by decide +kernel

/-- SWEEP_COMPLETE arms a clean context (R253, R255). -/
theorem test_sweep : let d := (after (.sweepComplete 0 false 5) (blk (ctxDie 1))).die 0
    ctxState d 0x740A0 = 2 ∧ ctxClean d 0x740A0 = true := by decide +kernel

/-- A user tally 0x0100 of count 1 to die 3 of package 2, from scalar 8; and one whose count is the most. -/
def tallyWord (id cnt : Nat) : OpWord := word (8 * 2 ^ 5 + id * 2 ^ 10 + cnt * 2 ^ 26)

/-- Tallies by R263 for job 0 of step 1023, and of later attempts and steps. -/
def tally1 : BitVec 256 := 0xccb30000000000000103000000003ff01000001002500000400000003000
def tallyMax : BitVec 256 := 0x3470000000000000103000000003ff0100ffff002500000400000003000
def tallyMax1 : BitVec 256 := 0xf1b80000000000000103000000003ff0100fffe002500000400000003000
def tallyAtt : BitVec 256 := 0xbab0000000000000104000000003ff01000001002500000400000003000
def tallyStep : BitVec 256 := 0xd9b100000000000001000000000000001000001002500000400000003000
def tallyFar : BitVec 256 := 0xef590000000000000100000000001fe01000001002500000400000003000

/-- A die that holds a tally of count 1 for its north side; and whose last collector entry counts identifier 0x0100. -/
def tallyDie : Die := { actDie with held := [⟨1, 0, none, tally1, 0, [], false⟩] }
def colDie : Die := { actDie with
  regs := [(0x2000C, 0), (0xA2FE0, 2 ^ 31 + 0x100 * 2 ^ 4), (0xA2FF4, 1023), (0xA2FF8, 3 * 2 ^ 16)] }

def tallyFits (h : BitVec 256) : Bool :=
  let b := beadOf h
  hdrOk h && tallyOk h && decide (0x100 ≤ b.seq) &&
    decide ((withBead h [] colDie).inbox = .bead h [] :: []) && decide (colFind colDie b.job b.seq = some 255)

theorem witness_TallyCommandsComplete :
    (Passes pushDie 0 0x61 (tallyWord 0x100 1) [(41, 0)] ∧ HasRoom pushDie 0 0x61 (tallyWord 0x100 1)) ∧
    (Passes pushDie 0 0x61 (tallyWord 65535 65535) [(41, 0)] ∧ badWriter ((pushDie.thread 0).sreg 8) = false) ∧
    [tally1, tallyMax, tallyMax1, tallyAtt].all (fun h => isTally (.bead h [])) = true := by decide +kernel

/-- P0 with a tally at its senders' input whose die lies to the north, and a tally of count 1 held there. -/
def tallyBlk (h : BitVec 256) : State :=
  { dies := [(0, { tallyDie with regs := [(0x2000C, 0), (0x5010C, 1)], rt := [(0, [segOf h])] }), (9, actDie)]
    pins := ⟨true, true, true, true⟩ }
/-- The same block whose north neighbour is off, and whose north neighbour's buffer is full. -/
def tallyAlone : State := { tallyBlk tally1 with dies := [(0, (tallyBlk tally1).die 0)] }
def tallyFull : State := (tallyBlk tally1).modDie 9 (rtPush 6 (List.replicate 4 (segOf toL2)))

theorem witness_TallyCommandsComplete_router :
    [tally1, tallyMax, tallyMax1, tallyAtt].all (fun h => routerOn (tallyBlk h) 0 &&
      decide (dueTally (tallyBlk h) 0 1 = none) &&
      decide (turnOf (tallyBlk h) 0 1 = some (0, 0, 0, segOf h, .go 1 0 none))) = true ∧
    (let e : HeldTally := ⟨1, 0, none, tally1, 0, [], false⟩
     ((tallyBlk tally1).die 0).held = [e] ∧ outputFree (tallyBlk tally1) 0 1 0 (heldSeg e) = true ∧
     beyond (tallyBlk tally1) 0 1 = true ∧ beyond tallyFull 0 1 = true ∧ outputFree tallyFull 0 1 0 (heldSeg e) = false ∧
     beyond tallyAlone 0 1 = false) := by decide +kernel

theorem witness_TallyCommandsComplete_keys :
    (tallyKey tallyMax1 = tallyKey tally1 ∧ tallyKey tallyMax = tallyKey tally1 ∧ tallyKey tallyAtt ≠ tallyKey tally1 ∧
      (beadOf tally1).epoch + (beadOf tallyMax1).epoch = 65535 ∧ (beadOf tally1).epoch + (beadOf tallyMax).epoch = 65536) := by decide +kernel

theorem witness_TallyCommandsComplete_collector :
    colDie.reg48 0xA2FF4 = 1023 ∧ colDie.get ⟨0xA2FF8, 23, 16⟩ = 3 ∧
    [tally1, tallyAtt, tallyStep, tallyFar].all tallyFits = true ∧
    ((beadOf tally1).handle = 1023 ∧ (beadOf tally1).version = 3) ∧
    ((beadOf tallyAtt).handle = 1023 ∧ (beadOf tallyAtt).version = 4) ∧
    ((beadOf tallyStep).handle = (1023 + 1) % 1024 ∧ (beadOf tallyFar).handle = (1023 + 511) % 1024) := by decide +kernel

/-- Tallies of one key combine (R264), and a collector entry adds the count (R266). -/
theorem test_tally : ((after (.tallyCombine 0 1 none tallyMax1) (tallyBlk tallyMax1)).die 0).held.map (fun e => (beadOf e.h).epoch) =
      [65535] ∧
    ((after (.collectorTally 0 tally1) (blk (withBead tally1 [] colDie))).die 0).reg48 (colBase 255 + 4) = 1 := by decide +kernel

/-! ## The ledger -/

/-- A ledger unit that collects step 9, attempt 0 of job 0, N 1, with one context and one die and counts of its own. -/
def ldgDie (limit : Nat) (counts : List (Nat × Word32)) : Die := { actDie with
  regs := List.append [(0x2000C, 0), (0x92000, 1 + BitVec.ofNat 32 (limit * 2 ^ 5)), (0x92004, 5), (0x92008, 9), (0x92010, 1), (0x92014, 1)] counts }
def ldgNow : BitVec 256 := 0x229800000000000001000000000000900010002002500000400000003000
def ldgAtt : BitVec 256 := 0x654b00000000000001010000000000900010002002500000400000003000
def ldgLate : BitVec 256 := 0xbf0700000000000001000000000000900ff0002002500000400000003000

def ldgFits (h : BitVec 256) : Bool :=
  hdrOk h && isLedgerTally h && tallyOk h && decide ((withBead h [] (ldgDie 3 [])).inbox = .bead h [] :: [])

theorem witness_LedgerCommandsComplete :
    [ldgNow, ldgAtt, ldgLate].all ldgFits = true ∧ tallyOk (packBead { beadOf ldgNow with tag := 1 }) = false ∧
    (ldgMatches (ldgDie 3 []) (beadOf ldgNow) = true ∧ ldgMatches (ldgDie 3 []) (beadOf ldgAtt) = false ∧
      ldgMatches (ldgDie 3 []) (beadOf ldgLate) = false) ∧
    (ldgState (ldgDie 3 []) = 1 ∧ ldgRuns (ldgDie 3 []) = true ∧ paused (ldgDie 3 []) (ldgJob (ldgDie 3 [])) = false) ∧
    (actDie.flag 0x92000 0 = false ∧ bitsOf (0x001FFFFF : BitVec 32).toNat 12 5 ≠ 0) ∧
    ((ldgDie 3 []).flag 0x92000 0 = true ∧ bitsOf (0x60 : BitVec 32).toNat 20 1 = (ldgDie 3 []).get ⟨0x92000, 20, 1⟩) := by
  decide +kernel

/-- The counts of R267 by their identifiers 1 to 7. -/
def counted (cs : List Nat) : Die := ldgDie 3 ((List.range 7).map (fun i => (0x92040 + 4 * i, BitVec.ofNat 32 (cs.getD i 0))))

/-- Each row of R267 at its boundary counts. -/
theorem witness_LedgerDecides :
    ldgDecides (counted [1, 1, 1, 1, 1, 1, 1]) = some (2, 9) ∧ ldgDecides (counted [1, 1, 1, 1, 0, 1, 1]) = some (1, 0x0A) ∧
    ldgDecides (counted [1, 1, 1, 1, 0, 1, 0]) = some (1, 3) ∧ ldgDecides (counted [1, 1, 1, 0, 0, 1, 0]) = some (1, 0x0A) ∧
    ldgDecides (counted [2, 0, 0, 0, 0, 1, 0]) = some (1, 0x0A) ∧ ldgDecides (counted [1, 0, 0, 0, 0, 2, 0]) = some (1, 0x0A) ∧
    ldgDecides (counted [1, 1, 0, 0, 0, 1, 0]) = some (1, 9) ∧ ldgDecides (counted [1, 0, 0, 0, 0, 1, 0]) = some (0, 0) ∧
    ldgDecides (counted [0, 1, 0, 0, 0, 1, 0]) = none ∧ ldgDecides (counted [1, 1, 0, 0, 0, 0, 0]) = none := by decide +kernel

theorem witness_LedgerDecides_limit : ldgState (ldgDie 1 []) = 1 ∧ ldgAttempt (ldgDie 1 []) < ldgLimit (ldgDie 1 []) ∧
    ldgLimit (ldgDie 0 []) ≤ ldgAttempt (ldgDie 0 []) := by decide

/-- The last report of a window commits it: the next step is collected (R267, R268). -/
theorem test_ledger : let d := ldgDecide (0, 0) (ldgDie 3 [])
    ldgStep d = 10 ∧ ldgState (ldgDecide (1, 3) (ldgDie 0 [])) = 2 ∧ ldgAttempt (ldgDecide (1, 3) (ldgDie 1 [])) = 1 := by
  decide +kernel

/-- Notices by R268 for step 9, attempt 4 of job 0, and for other steps and attempts. -/
def commitB : BitVec 256 := 0x6d3200000000000001040000000000000090001003500000400000003000
def repeatB : BitVec 256 := 0xc1500000000000001040000000000300090001004500000400000003000
def stopB : BitVec 256 := 0x438300000000000001040000000000a00090001005500000400000003000
def commitLate : BitVec 256 := 0x4e3800000000000001040000000000000080001003500000400000003000
def repeatLate : BitVec 256 := 0xcb0d00000000000001030000000000300090001004500000400000003000
def stopLate : BitVec 256 := 0x45000000000000001050000000000a00090001005500000400000003000

/-- The job's die forwards to none. -/
def noticeDie : Die := { pushDie with
  regs := [(0x2000C, 0), (0x90100, 1 + 127 * 2 ^ 9), (0x90108, 7), (0x9010C, 9), (0x90110, 4 * 2 ^ 16)] }

def applies (h : BitVec 256) (csub : Nat) : Bool :=
  hdrOk h && decide ((withBead h [] noticeDie).inbox = .bead h [] :: []) && noticeOk h csub && noticeApplies noticeDie (beadOf h)
def late (h : BitVec 256) (csub : Nat) : Bool := hdrOk h && noticeOk h csub && !noticeApplies noticeDie (beadOf h)

theorem witness_NoticesComplete : noticeDie.get ⟨redBase 0, 15, 9⟩ = 127 ∧
    (applies commitB 3 && applies repeatB 4 && applies stopB 5) = true ∧
    (late commitLate 3 && late repeatLate 4 && late stopLate 5) = true := by decide +kernel

/-- A COMMIT notice moves the job to the next window's step at attempt 0 (R269). -/
theorem test_commit : let d := (after (.commitNotice 0 commitB) (blk (withBead commitB [] noticeDie))).die 0
    redStep d 0 = 10 ∧ redAttempt d 0 = 0 ∧
    redAttempt ((after (.repeatNotice 0 repeatB) (blk (withBead repeatB [] noticeDie))).die 0) 0 = 5 := by decide +kernel

/-- LEDGER_DONE words: of an attempt in scalar 3 or 4; of a context and a step in 5 or 7 and 6. -/
def doneOp (m sc ss : Nat) : OpWord := withMode 6 5 (word (10 * 2 ^ 7 + sc * 2 ^ 12 + ss * 2 ^ 37)) m
/-- The die of the pushes, with contexts of COMPLETE and of poisoned IDLE state. -/
def doneDie : Die := { pushDie with
  regs := [(0x2000C, 0), (0x740AC, 3), (ctxBase true 1535 + 12, 0x10), (0x90100, 1), (0x90108, 7), (0x9010C, 9),
    (0x90110, 4 * 2 ^ 16)] }

theorem witness_LedgerDoneComplete :
    (Passes doneDie 0 0x62 (doneOp 0 3 0) [(41, 0)] ∧ HasRoom doneDie 0 0x62 (doneOp 0 3 0) ∧ redAttempt doneDie 0 = 4) ∧
    (Passes doneDie 0 0x62 (doneOp 0 4 0) [(41, 0)] ∧ HasRoom doneDie 0 0x62 (doneOp 0 4 0)) ∧
    (Passes doneDie 0 0x62 (doneOp 1 5 6) [(41, 0)] ∧ HasRoom doneDie 0 0x62 (doneOp 1 5 6) ∧
      pairLt (redStep doneDie 0) (redAttempt doneDie 0) 9 4 = false) ∧
    (Passes doneDie 0 0x62 (doneOp 2 5 0) [(41, 0)] ∧ HasRoom doneDie 0 0x62 (doneOp 2 5 0) ∧
      ctxState doneDie (ctxBase false 5) = 3) ∧
    (Passes doneDie 0 0x62 (doneOp 2 7 0) [(41, 0)] ∧ HasRoom doneDie 0 0x62 (doneOp 2 7 0) ∧
      ctxPoison doneDie (ctxBase true 1535) = true ∧ ctxState doneDie (ctxBase true 1535) = 0) := by decide +kernel

/-! ## Memory -/

/-- A die whose two controllers are up, region 0 open, scrub on, and generator 3 of the first ready to write all. -/
def mcDie : Die := { actDie with
  regs := [(0x2000C, 0), (0x70000, 1), (0x70004, 0x140), (0x80000, 1), (0xC1000, 0xFFFF0000), (0xC1004, 0x3FE0)] }
def mcReq (addr : BitVec 35) (write : Bool) : McReq := ⟨.dma, write, false, 0, addr, []⟩

/-- The same die with a read waiting at the first controller, and with a half to write back and the last half to scrub. -/
def mcBusy : Die := { mcDie with
  mcReqs := [(0, [⟨mcReq 64 false, 1, false, 0⟩])]
  lpWb := [(0, some 5)]
  lpMarks := [(5, .single)]
  scrubPos := [(0, mcHalves - 2)] }

/-- The same die with a write batch due on a channel of the first controller. -/
def mcFull : Die := { mcDie with mcWrites := [(0, List.replicate 64 ⟨mcReq 64 true, 1, true, 0⟩)] }

/-- A die with a generator that runs a write pass of one unit of 1,920 bytes on channel 3. -/
def tgDie : Die := { actDie with
  regs := [(0x2000C, 0), (0x70000, 1), (0x710C0, 0x21), (0x710C4, 2097151), (0x710C8, 1)] }

theorem witness_MemoryCommandsComplete :
    (mcOpen mcDie true = true ∧ mcRoom mcDie true (mcReq (2 ^ 35 - 64) true) = true ∧
      regionChk mcDie (mcReqOf (mcReq (2 ^ 35 - 64) true)) (2 ^ 35 - 64) 64 = none) ∧
    (mcOpen mcDie false = true ∧ mcRoom mcDie false (mcReq 0 false) = true ∧
      regionChk { mcDie with regs := [(0x70000, 1)] } (mcReqOf (mcReq 0 false)) 0 64 = some .malformed) ∧
    ((mcSlots mcBusy false)[0]? = some ⟨mcReq 64 false, 1, false, 0⟩ ∧ mcServes mcBusy false 1 = true ∧
      drainDue mcBusy false 1 = false ∧ nextRead mcBusy false 1 = some (⟨mcReq 64 false, 1, false, 0⟩, 0) ∧
      lpBad mcBusy 64 64 = []) ∧
    (mcServes mcFull false 1 = true ∧ drainDue mcFull false 1 = true) ∧
    (channelIdle mcDie false (mcChannel (32 * 5)) = true ∧ channelIdle mcBusy false (mcChannel (32 * (mcHalves - 2))) = true) ∧
    (tabGet (fun _ => none) mcBusy.lpWb (mcIx false) = some 5 ∧ tabGet goodLp mcBusy.lpMarks 5 = .single) ∧
    (mcServes mcBusy false 0 = true ∧ mcBusy.flag 0x70004 8 = true ∧
      tabGet (fun _ => 0) mcBusy.scrubPos (mcIx false) + 1 = mcHalves - 1) ∧
    (mcDie.flag (mcReg true) 2 = false) ∧
    ((blk mcDie).formed 0 = false ∧ tgBusy mcDie false 3 = false ∧ bitsOf (0x3D : BitVec 32).toNat 2 0 = 5 ∧
      mcDie.reg (tgReg false 3 + 4) + mcDie.reg (tgReg false 3 + 8) ≤ 2 ^ 21) ∧
    (tgBusy tgDie false 3 = true ∧ tgDie.get ⟨tgReg false 3, 2, 0⟩ = 1 ∧
      tgDie.reg (tgReg false 3 + 4) + tgDie.reg (tgReg false 3 + 8) = 2 ^ 21) := by decide +kernel

/-- 95 degrees set `HOT` and its event; 92 leave them (R299). -/
theorem test_temp : ((after (.tempReadout 0 true 95) (blk mcDie)).die 0).flag (mcReg true + 8) 1 = true ∧
    ((after (.tempReadout 0 true 91) (blk mcDie)).die 0).flag (mcReg true + 8) 1 = false := by decide +kernel

/-- Entry 0 for one job and one class, entry 1 secure over its second MiB. -/
def regDie : Die := { actDie with
  regs := [(0x2000C, 0), (0xC1000, 2 ^ 31), (0xC1004, 0x01C6), (0xC1008, 2 ^ 31 + 1), (0xC100C, 0x3FE1)] }

/-- Each answer of R290 at its boundary: an access across two entries, the wrong job, the wrong class, a write; and a
refusal that finds a first one recorded, or none. -/
theorem witness_RegionCheckOrder :
    (List.range 64).all (fun k => !regionHas regDie (2 ^ 20 - 32) 64 k) = true ∧
    regionHas regDie (2 ^ 20 - 64) 64 0 = true ∧
    (regionHas regDie (2 ^ 20) 64 1 = true ∧ regionHas regDie (2 ^ 20) 64 0 = false) ∧
    regionChk regDie ⟨.dma, false, false, 3⟩ (2 ^ 20 - 64) 64 = none ∧
    regionChk regDie ⟨.dma, false, false, 2⟩ (2 ^ 20 - 64) 64 = some .invalidState ∧
    regionChk regDie ⟨.needle, false, false, 3⟩ (2 ^ 20 - 64) 64 = some .invalidState ∧
    regionChk regDie ⟨.dma, false, false, 0⟩ (2 ^ 20) 64 = some .worldViolation ∧
    regionChk regDie ⟨.dma, false, true, 0⟩ (2 ^ 20) 64 = none ∧
    actDie.flag 0xC1200 31 = false ∧ (regionRefused ⟨.dma, false, false, 3⟩ (2 ^ 35 - 32) .malformed actDie).flag 0xC1200 31 = true :=
  by decide +kernel

theorem witness_StorageReadAfterWrite : Memory.wf actDie.lpddr = true ∧ Memory.wf actDie.spd = true ∧
    tabWf goodLp actDie.lpMarks = true ∧ 64 % 32 = 0 ∧ ([1, 2] : Bytes).length = 2 := by decide

/-! ## Ports -/

/-- A die that carries a port in a state with epoch 5 that expects packet 7. -/
def portDie (st : Nat) : Die := { actDie with
  regs := [(0x2000C, 0), (0xD0000, BitVec.ofNat 32 (0x508 + st)), (0xD0004, 2 ^ 16), (0xD001C, 7 * 2 ^ 12), (0xD0080, 5)] }

/-- Packets by R312 and R313 for epoch 5, byte by byte, from the first up. -/
def idleP : Bytes := leBytes 20 0xd7301b5d00000500000000000000000004000007
def badCrcP : Bytes := leBytes 20 0xd7301b5d00000500000000000000000004000008
def badTypeP : Bytes := leBytes 20 0x8d33c8300000050000000000000000000c000007
def dataP : Bytes := sealPkt 0x00000500000000000000000080000007 (leBytes 256 (2 ^ 168))
def dataAheadP : Bytes := sealPkt 0x00000500000000000000000080000047 (leBytes 256 (2 ^ 168))
def replayP : Bytes := leBytes 52 0x26a79b83000000000000000000000000000000000000000000000000000000000000000300000500000000000000000008000003
def laneFailP : Bytes := leBytes 52 0xfd91b706000000000000000000000000000000000000000000000000000000000003ff0100000500000000000000000008000003
def laneAckP : Bytes := leBytes 52 0xc455a75a000000000000000000000000000000000000000000000000000000000000030200000500000000000000000008000003
def resumeP : Bytes := leBytes 52 0x92289ce3000000000000000000000000000000000000000000000000000000090000000400000500000000000000000008000003
def resetP : Bytes := leBytes 52 0x71a27103000000000000000000000000000000000000000000000000000060000000000500000500000000000000000008000003
def resetAckP : Bytes := leBytes 52 0x2d24ba1a000000000000000000000000000000000000000000000000000000000000000600000600000000000000000008000003

def wholeP (pkt : Bytes) (type code epoch : Nat) : Bool :=
  crcOk pkt && !pktBad pkt && decide (ph pkt 27 26 = type) && (decide (type ≠ 2) || decide (pc pkt 7 0 = code)) &&
    decide (ph pkt 111 104 = epoch)

theorem witness_PortReceivesComplete :
    (wlkCarries (portDie 1) = true ∧ wlkState (portDie 1) = 1 ∧ wlkState (portDie 4) = 4 ∧ wlkEpoch (portDie 2) = 5 ∧
      wlkNextRx (portDie 2) = 7) ∧
    (crcOk badCrcP = false ∧ crcOk badTypeP = true ∧ pktBad badTypeP = true) ∧
    (wholeP idleP 1 0 5 && wholeP replayP 2 3 5 && wholeP laneFailP 2 1 5) =
      true ∧
    (wholeP laneAckP 2 2 5 && wholeP resumeP 2 4 5 && wholeP resetP 2 5 5 && wholeP resetAckP 2 6 6) = true ∧
    laneCount (BitVec.ofNat 18 (pc laneFailP 25 8) ||| (portDie 2).wlk.txFailed) = 10 ∧
    pc resetP 51 44 ≠ wlkEpoch (portDie 2) ∧ (portDie 2).wlk.history = false ∧ wlkState (portDie 3) = 3 ∧
    (wlkEpoch (portDie 4) = 5 ∧ ph resetAckP 111 104 = 6) := by decide +kernel

/-- A port that has proposed epoch 6, and one that expects more of a segment than a packet that begins another. -/
def askedPort : Die := { portDie 4 with wlk := { proposed := 6 } }
def midPort : Die := { portDie 2 with wlk := { accLeft := [(0, 3)] } }

theorem witness_PortReceivesComplete_states :
    (wlkState askedPort = 4 ∧ ph resetAckP 111 104 = askedPort.wlk.proposed ∧ askedPort.wlk.proposed ≠ wlkEpoch askedPort) ∧
    (dataContradicts dataP midPort = true ∧ dataContradicts dataP (portDie 2) = false ∧ wlkState midPort = 2) ∧
    ((portDie 2).wlk.held.any (fun e => decide (e.1.seq = ph dataAheadP 11 0))) = false := by decide +kernel

theorem witness_PortReceivesComplete_data :
    (crcOk dataP = true ∧ crcOk dataAheadP = true) ∧ (pktBad dataP = false ∧ pktBad dataAheadP = false) ∧
    (ph dataP 27 26 = 0 ∧ ph dataP 111 104 = 5 ∧ ph dataP 11 0 = 7) ∧
    (ph dataAheadP 27 26 = 0 ∧ ph dataAheadP 111 104 = 5 ∧ ph dataAheadP 11 0 = 7 + 64) :=
  ⟨⟨crcOk_sealPkt _ _, crcOk_sealPkt _ _⟩, by decide +kernel⟩

/-- A whole packet whose CRC is wrong is counted (R312); one in order moves `NEXT_RX` (R318). -/
theorem test_port_receive : ((after (.idleReceive 0 badCrcP) (blk (portDie 2))).die 0).reg 0xD0030 = 1 ∧
    wlkNextRx (acceptData (dataOf dataP) (portDie 2)).2 = 8 := by decide +kernel

/-- A port with something for each of its events. -/
def dataPkt : DataPkt := ⟨7, 0, true, false, false, 1, List.replicate 256 0⟩
def busyPort (replay : Option Nat) (ctl : List Bytes) : Die := { portDie 2 with
  wlk := { cullet := [dataPkt], replay := replay, ctl := ctl, tx := [(3, [⟨false, false, true, List.replicate 64 0⟩])]
           rx := [(3, [dataPkt])], seg := [(3, some ⟨false, false, [], 3⟩)], unacked := 1, lastVc := 2, held := [(dataPkt, 0)] } }
/-- VC 3 may still send. -/
def readyPort : Die := { busyPort none [] with
  regs := [(0x2000C, 0), (0xD0000, 0x50A), (0xD0004, 2 ^ 16), (0xD001C, 7 * 2 ^ 12), (0xD0098, 32767)] }

theorem witness_PortEventsComplete :
    (wlkCarries (busyPort (some 0) []) = true ∧ wlkState (busyPort (some 0) []) = 2 ∧
      (busyPort (some 0) []).wlk.cullet[0]? = some dataPkt) ∧
    ((busyPort none [leBytes 32 3]).wlk.ctl = leBytes 32 3 :: [] ∧ natAt (leBytes 32 1) 0 1 = 1) ∧
    (wlkState (portDie 4) = 4 ∧ (portDie 4).wlk.replay = none ∧ (portDie 4).wlk.ctl = []) ∧
    ((blk readyPort).darkDie 0 = false ∧ ({ blk readyPort with engines := [(0, { on := true, dark := true })] } : State).darkDie
      ((portDies 0).1) = true) ∧
    portRoom 3 readyPort = true ∧
    (wlkState readyPort = 2 ∧ readyPort.wlk.replay = none ∧ readyPort.wlk.ctl = [] ∧ readyPort.wlk.cullet.length < 2048 ∧
      ([1, 2, 3, 4].map fun k => (readyPort.wlk.lastVc + k) % 4).find? (vcReady readyPort) = some 3) ∧
    (tabGet (fun _ => []) readyPort.wlk.rx 3 = [dataPkt] ∧
      tabGet (fun _ => none) readyPort.wlk.seg 3 = some ⟨false, false, [], 3⟩ ∧ dataPkt.unitsM1 + 1 < 3) ∧
    (readyPort.wlk.held ≠ [] ∧ readyPort.wlk.unacked ≠ 0 ∧ readyPort.flag 0xD0004 1 = false) ∧
    (wlkState (portDie 1) = 1 ∧ 8 ≤ laneCount (0xFF : BitVec 18) ∧ laneCount (0x7F : BitVec 18) = 7) ∧
    (wlkState (portDie 3) = 3 ∧ wlkState (portDie 5) = 5 ∧ wlkState (portDie 4) ≠ 5) ∧
    (portDie 2).flag 0xD0000 7 = false := by decide +kernel

/-- An image of one section, PORTROLE, that gives port 0 a role (R62, R63). -/
theorem witness_PortEventsComplete_retry :
    ({ blk (portDie 5) with image := leBytes 0x81 (2 ^ 48 + 3 * 2 ^ 512 + 0x80 * 2 ^ 544 + 2 ^ 576 + 2 ^ 1024) } : State).role (wlkPort (portDie 5)) ≠ 0 := by decide +kernel

theorem witness_LaneSparing : serviceLanes false 0x00005 = (false, 0x3FFFA) ∧ serviceLanes false 0x00007 = (true, 0x007F8) ∧
    serviceLanes true 0 = (true, 0xFF) := by decide

/-! ## Laser sources -/

/-- A module of 1,600 (0.1 mW) and a rated life of 5, new, and accepted under its name (R342, R344, R346). -/
def goodEeprom : Bytes := leBytes 0x1040
  (0x534C5A54 + 2 ^ 32 + 1600 * 2 ^ 336 + 5 * 2 ^ 352 + (2 ^ 512 - 1) * 2 ^ 32768)
def elsBlk : State := { blk actDie with punty := [(0, 7)], bays := [(7, { accepted := some (0, List.replicate 16 0) })] }
/-- Bay 7 with a state, seated and lit. -/
def bayBlk (st : Word32) (fails : Nat) : State :=
  { blk actDie with punty := [(0x20000, 4), (0x20060, 4), (0x20070, st + 0x18)], bays := [(7, { writeFails := fails })]
                    engines := [(7, { on := true, dark := true })] }

theorem witness_LaserCommandsComplete :
    (elsBlk.pins.vddAon = true ∧ elsBlk.flag (bayReg 7) 3 = false) ∧
    (moduleChk [] (elsBlk.bay 7).accepted 0 ⟨true, goodEeprom, false⟩ = none ∧
      moduleChk [] (elsBlk.bay 7).accepted 4 ⟨true, goodEeprom, false⟩ = none ∧
      moduleChk [] (elsBlk.bay 7).accepted 0 ⟨false, [], false⟩ = some .unreachable) ∧
    ((bayBlk 3 0).bayState 7 = 3 ∧ (bayBlk 4 0).bayState 7 = 4 ∧ (bayBlk 3 0).flag (bayReg 7) 3 = true) ∧
    ((bayBlk 4 1).bayLit 7 = true ∧ (List.range 7).all (fun i => !(bayBlk 4 1).bayLit i) = true) ∧
    (((bayBlk 4 1).bay 7).writeFails < 2 ∧ ((bayBlk 4 2).bay 7).writeFails = 2) ∧
    (((bayBlk 4 0).engine 7).on = true ∧ ((bayBlk 4 0).engine 7).dark = true) := by decide +kernel

theorem witness_LaserCommandsComplete_release :
    releaseRefused 7 ((bayBlk 4 0).put ⟨0x20100, 2, 0⟩ (7 + 8)) = false ∧ elsBlk.bayChecks = true ∧
    ({ elsBlk with punty := [(0, 5)] } : State).bayChecks = false ∧ (bayBlk 5 0).bayWaits 7 = true ∧
    elsBlk.bayWaits 7 = false ∧ (bayBlk 4 0).engineFed 7 = true ∧ releaseRefused 7 (bayBlk 3 0) = true := by decide +kernel

/-! ## The host interface -/

/-- A function whose CMD queue 3 and its completion ring hold an entry each, with IN ring 7 registered, BAR2 entry 0 on logical
die 0, a held result slot there, and a mailbox operation with its arguments. -/
def hostFn (op : Nat) (args : List Nat) : Fn :=
  { regs := List.append [(0xC0, 5), (0xC4, 4), (0xC8, 1), (0xCC, 4), (0x1C8, 1), (0x3C0, 1), (0x3C8, 1),
      (0x100100, BitVec.ofNat 32 op)]
      (List.append ((List.range 6).map (fun i => (0x100104 + 4 * i, BitVec.ofNat 32 (args.getD i 0)))) [(0x100128, 0x100)])
    windows := [(0, some ⟨0, 0, false⟩)]
    slots := [⟨0, 0, 64, true⟩]
    records := [⟨9, 3, ⟨0, 4, .ok, false, 1, 0, .bytes [1], 0, false, none⟩⟩] }

/-- READY, with partition 0 of row 0 formed, job 1 LOADED in it and an IN ring bound. -/
def hostBlk (x : Fn) (cs : List Cmd) : State :=
  { blk (openRegion actDie) with
    punty := [(0, 8), (0x100, 0x101), (0x144, 1)], binds := [(0, some 0)], fns := [(0, x)], cmds := cs,
    binding := [⟨0, 3, 1, 4096, 2, 2, [], [], [], none, 1, some (0, 7)⟩] }
def hostCmd (op srcLen resultLen part : Nat) (payload : Bytes) (imm : BitVec 128) : Cmd :=
  ⟨7, 0, 3, false, op, true, false, 0, part, 0, 0, srcLen, payload, 0, resultLen, imm, false, 0, false, 0, none⟩
def host0 : State := hostBlk (hostFn 0 []) []

theorem witness_CommandCompletes :
    (hostCmd 1 0 0 255 [] 0).slot = none ∧ host0.current (hostCmd 1 0 0 255 [] 0) = true ∧
    host0.current { hostCmd 1 0 0 255 [] 0 with attach := 1 } = false := by decide +kernel

/-- A completion entry goes out in two writes, its index last (R369). -/
theorem test_cpl : (writeCpl 0 3 ⟨5, 1, .ok, true, 0, 0, .none, 0, false, none⟩ host0).outputs.length = 2 ∧
    ((writeCpl 0 3 ⟨5, 1, .ok, true, 0, 0, .none, 0, false, none⟩ host0).fn 0).devIdx 7 = 1 := by decide +kernel

/-- NOP entries by R366: whole, and with a reserved opcode. -/
def nopEntry : Bytes := leBytes 64 0x00000000000000FF_00040001
def badEntry : Bytes := leBytes 64 0x00000000000000FF_0004FFFF
def finBlk (attach : Nat) (record : Option Nat) : State :=
  hostBlk { hostFn 0 [] with finished := [(3, [⟨5, 1, .ok, true, 0, 0, .none, attach, false, record⟩])] } []

theorem witness_HostCommandsComplete :
    host0.hostOpen = true ∧
    ((host0.fn 0).ringState 3 = 1 ∧ doorbellBad (host0.fn 0) 3 (4 + 17) = true ∧
      doorbellBad (host0.fn 0) 3 (4 + 16) = false ∧ (host0.fn 0).ringState 0 = 0) ∧
    ((host0.fn 0).hostIdx 3 ≠ (host0.fn 0).devIdx 3 ∧ fetchBlocked host0 0 3 = false ∧ nopEntry.length = 64) ∧
    (formChk 0 (entryOf badEntry) badEntry = some .malformed ∧ formChk 0 (entryOf nopEntry) nopEntry = none ∧
      (entryOf nopEntry).srcLen = 0) := by decide +kernel

theorem witness_HostCommandsComplete_completions :
    ((tabGet (fun _ => []) ((finBlk 0 none).fn 0).finished 3).length = 1 ∧ ((finBlk 0 none).fn 0).attach = 0 ∧
      ((finBlk 0 none).fn 0).ringState 7 = 1 ∧
      idxDiff (((finBlk 0 none).fn 0).devIdx 7) (((finBlk 0 none).fn 0).hostIdx 7) < ((finBlk 0 none).fn 0).ringSize 7) ∧
    (((finBlk 1 none).fn 0).attach ≠ 1 ∧ ((finBlk 1 none).fn 0).records.length < 1024) ∧
    (tabGet (fun _ => []) ((finBlk 1 (some 9)).fn 0).finished 3).all (fun x => decide (x.record ≠ none)) = true ∧
    ((hostBlk (hostFn 0 []) [hostCmd 1 0 0 255 [] 0]).cmd? 7 = some (hostCmd 1 0 0 255 [] 0)) ∧
    (earlier (hostCmd 2 0 0 255 [] 0) (hostBlk (hostFn 0 []) [hostCmd 2 0 0 255 [] 0]) = false) ∧
    ((hostBlk (hostFn 0 []) [hostCmd 3 64 0 255 [] 0]).cmd? 7 = some (hostCmd 3 64 0 255 [] 0) ∧ (pay64 1).length = 64 ∧
      (hostCmd 3 64 0 255 [] 0).readsHost = true ∧ host0.winServes 0 0 64 = true) ∧
    ((copyOutUnits 0 false 1 0 host0).2.1 = false ∧ (copyOutUnits 0 false 1 0 host0).2.2.1 = none ∧
      (copyOutUnits 0 false 1 0 host0).2.2.2.current (hostCmd 4 0 64 255 [] 0) = true) := by decide +kernel

/-- An access through the window is allowed, and leads to physical die 0. -/
def winOk (off len : Nat) (write : Bool) (s : State) (a : Nat) : Bool :=
  match (winChk 0 off len (s.fnWorld 0) write false s).1 with
  | .ok (p, b) => decide (p = 0) && decide (b = a)
  | .error _ => false
def winBad (off len : Nat) (write : Bool) (s : State) : Bool :=
  match (winChk 0 off len (s.fnWorld 0) write false s).1 with
  | .ok _ => false
  | .error _ => true

/-- Descriptors by R376: of 64 bytes for window 1, and of 65. -/
def goodDesc : Bytes := leBytes 32 (64 * 2 ^ 64 + 2 ^ 128)
def longDesc : Bytes := leBytes 32 (65 * 2 ^ 64 + 2 ^ 128)

theorem witness_WindowInputComplete :
    (host0.hostOpen = true ∧ host0.pins.rstReleased = true) ∧
    (host0.winServes 0 (2 ^ 30 - 8) 8 = true ∧ host0.winServes 0 (2 ^ 30) 8 = true ∧ host0.winServes 0 64 8 = true ∧
      host0.winServes 0 56 8 = true) ∧
    (winOk (2 ^ 30 - 8) 8 false host0 (2 ^ 30 - 8) = true ∧ lpBad (host0.die 0) (2 ^ 30 - 8) 8 = [] ∧
      winBad (2 ^ 30) 8 false host0 = true) ∧
    (winOk 64 8 true host0 64 = true ∧ winBad 56 8 true host0 = true) ∧
    (host0.window 0 (((host0.fn 0).reg 0x1008) + (0 : BitVec 32).toNat * 2 ^ 32) = some (⟨0, 0, false⟩, 0) ∧
      (host0.fn 0).slots.any (fun k => decide (k.die = 0) && decide (k.off = 0) && k.held) = true) ∧
    ((host0.fn 0).ringState 15 = 1 ∧ (host0.fn 0).hostIdx 15 ≠ (host0.fn 0).devIdx 15 ∧
      (host0.binding.find? (fun x => decide (x.ring = some (0, 7)))).isSome = true) := by decide +kernel

/-- The binding of host0. -/
def bound0 : Binding := ⟨0, 3, 1, 4096, 2, 2, [], [], [], none, 1, some (0, 7)⟩

theorem witness_WindowInputComplete_descriptors :
    descBad bound0 longDesc = true ∧ descBad bound0 goodDesc = false ∧ bound0.expect = none ∧ host0.physOf 0 = some 0 ∧
    idxDiff (inputCount (host0.die 0) 3) (inputUsed (host0.die 0) 3) < bound0.slots ∧
    bound0.wins.length < 16 ∧ (pay64 1).length = natAt goodDesc 8 4 ∧
    lpServes false (bound0.base + inputCount (host0.die 0) 3 % bound0.slots * bound0.slotBytes) bound0.slotBytes
      (host0.die 0) = true := by decide +kernel

/-- The binding with both its slots full, and one whose registration requires another descriptor first, or another
descriptor to be skipped. -/
theorem witness_WindowInputComplete_waits :
    (let s := host0.modDie 0 fun d => d.setReg (inputReg 3 + 4) 2
     bound0.slots ≤ idxDiff (inputCount (s.die 0) 3) (inputUsed (s.die 0) 3)) ∧
    ({ bound0 with first := some (2, 0) } : Binding).expect = some (2, 0) ∧
    (natAt goodDesc 16 6, natAt goodDesc 24 3) = (1, 0) ∧
    ({ bound0 with skip := [(1, 0)] } : Binding).expect = some (natAt goodDesc 16 6, natAt goodDesc 24 3) := by decide +kernel

/-- Reads through the window after a write of it (R359). -/
theorem test_bar2 : (after (.bar2Read 0 64 2) (after (.bar2Write 0 64 [1, 2]) host0)).outputs =
    [.hostRead 0 [1, 2]] := by decide +kernel

/-! ## The mailbox -/

def mbx0 (op : Nat) (args : List Nat) : State := hostBlk (hostFn op args) []
def mbxReady (op : Nat) (args : List Nat) : Bool :=
  let s := mbx0 op args
  s.reckoner && (s.fn 0).mbxBusy && decide ((s.fn 0).mbxOp = op)

theorem witness_MailboxComplete :
    (mbxReady 1 [0x100 + 2, 4096] && !ringArgsBad 0 (hostFn 1 [0x100 + 2, 4096]) &&
      decide ((hostFn 1 [0x100 + 2]).ringState 2 = 0)) = true ∧
    (mbxReady 1 [0x100 + 3, 4096] && !ringArgsBad 0 (hostFn 1 [0x100 + 3, 4096]) &&
      decide ((hostFn 1 [0x100 + 3]).ringState 3 ≠ 0)) = true ∧
    (mbxReady 1 [0x40 + 8, 4096, 0, 1 + 63 * 2 ^ 4, 64, 0x10002] && !fnDie (mbx0 1 []) 0 63 &&
      !ringArgsBad 0 (hostFn 1 [0x40 + 8, 4096, 0, 1 + 63 * 2 ^ 4, 64, 0x10002])) = true ∧
    (mbxReady 1 [0x40 + 8, 4096, 0, 1 + 2 * 2 ^ 10, 64, 0x10002] && decide ((hostFn 1 []).ringState 8 = 0) &&
      fnDie (mbx0 1 []) 0 0 && decide ((mbx0 1 []).binding? 0 2 = none) &&
      decide (regionChk ((mbx0 1 []).die 0) ⟨.host, true, (mbx0 1 []).fnWorld 0, 0⟩ (64 * 64) 128 = none)) = true ∧
    (mbxReady 1 [0x40 + 8, 4096, 0, 1 + 3 * 2 ^ 10, 64, 0x10002] &&
      !ringArgsBad 0 (hostFn 1 [0x40 + 8, 4096, 0, 1 + 3 * 2 ^ 10, 64, 0x10002])) = true ∧
    (mbxReady 2 [3] && !queueBusy (mbx0 2 [3]) 0 3) = true ∧
    (mbxReady 2 [6] && decide (((mbx0 2 [6]).fn 0).ringState 2 = 0)) = true ∧ mbxReady 2 [15] = true ∧
    (mbxReady 3 [63 + 31 * 2 ^ 12 + 2 ^ 17] && fnDie (mbx0 3 []) 0 0) = true ∧ mbxReady 4 [63] = true ∧
    (mbxReady 5 [0] && ((mbx0 5 [0]).fn 0).records[0]?.isSome) = true ∧
    (mbxReady 6 [9, 64] && decide ((hostFn 6 [9, 64]).argAddr 1 = 64) && decide ((hostFn 6 [9, 64]).ringState (4 + 3) = 1) &&
      ((hostFn 6 [9, 64]).records.find? (fun u => decide (u.id = 9))).isSome && !(hostFn 6 [9, 64]).inFlight 9) = true ∧
    mbxReady 7 [9] = true ∧ mbxReady 8 [71, 0] = true ∧ mbxReady 9 [7] = true := by decide +kernel

theorem witness_MailboxComplete_recovery :
    mbxReady 0x301 [1 + 3 * 2 ^ 4, 0, 0xFFFF, 64 * 2 ^ 15, 2 ^ 12 - 1] = true ∧
    (mbx0 0x301 []).jobState 1 = 1 ∧ bitsOf (1 + 3 * 2 ^ 4) 3 0 = 1 ∧ bitsOf (64 * 2 ^ 15) 21 15 = 64 := by decide +kernel

/-- MAP_WINDOW maps (R380, R358). -/
theorem test_map_window : tabGet (fun _ => none) ((after (.mapWindow 0) (mbx0 3 [63 + 31 * 2 ^ 12 + 2 ^ 17])).fn 0).windows 63 =
    some ⟨0, 31, true⟩ := by decide +kernel

theorem witness_InvalidateClears : ((invalidate 0 host0).fn 0).windows = [] ∧ ((invalidate 0 host0).fn 0).attach = 1 ∧
    (host0.fn 0).windows ≠ [] := by decide +kernel

/-! ## The Crucible -/

/-- A payload of WORLD_ASSIGN that keeps every world, and one that makes logical die 0 secure (R389). -/
def sameWorlds : Bytes := leBytes 32 1
def otherWorlds : Bytes := leBytes 32 (1 + 2 ^ 32)
/-- A region table of one entry, for logical die 0; and KEY_ROTATE of the device key. -/
def tablePay : Bytes := leBytes 520 (0x3FE0_80000000 * 2 ^ 64)
def rotatePay : Bytes := leBytes 8 (0xFF + 2 ^ 32)

theorem witness_CrucibleCommandsComplete :
    ((hostBlk (hostFn 0 []) [hostCmd 0x0203 0 0 255 sameWorlds 0]).cmd? 7).isSome = true ∧
    (worldsOk sameWorlds = true ∧ worldsBusy (worldsOf sameWorlds) host0 = false) ∧
    (worldsOk otherWorlds = true ∧ worldsBusy (worldsOf otherWorlds) host0 = true) ∧
    (natAt rotatePay 0 1 = 0xFF ∧ host0.keyVer 8 < natAt rotatePay 4 4) ∧
    (host0.crucible.attEnd ≤ host0.crucible.attNext ∧
      ({ host0.crucible with attEnd := 1024 } : Crucible).attNext < 1024) ∧
    (tableOk (tableOf (tablePay.drop 8)) = true ∧ host0.rowPart (natAt tablePay 0 1 / 8) = some 0 ∧
      (host0.partJobs 0).all (fun j => decide (host0.jobState j ≠ 2)) = true) := by decide +kernel

/-- DEBUG_UNLOCK for this device (R396). -/
theorem witness_CrucibleCommandsComplete_debug :
    natAt (leBytes 8 2 ++ leBytes 16 Config.deviceId.toNat) 8 16 = Config.deviceId.toNat ∧
    natAt (leBytes 8 2 ++ leBytes 16 Config.deviceId.toNat) 0 1 = 2 ∧ host0.debugLevel ≤ 2 ∧
    (List.range 16).all (fun j => decide (host0.jobState j ≠ 2)) = true ∧ (3 : BitVec 2).getLsbD 1 = true := by
  refine ⟨?_, ?_, by decide +kernel⟩
  · have h := natAt_append_leBytes (leBytes 8 2) 16 Config.deviceId.toNat
    rw [leBytes_length] at h
    rw [h]
    have := Config.deviceId.isLt
    omega
  · rw [natAt, sliceB_append_left _ _ 0 1 (by simp)]
    decide

/-- IMAGE_WRITE through the boot page by R397: its first 48 bytes with counter 1, its payload, and a recovery key. -/
def critHead : Bytes := leBytes 48 (0x0202 + 0xFF * 2 ^ 24 + 16 * 2 ^ 32 + 2 ^ 64)
def critPay : Bytes := List.replicate 16 0
def critKey : Bytes := List.replicate 32 1
def critTag : Bytes := kmac256 critKey (critHead ++ critPay) 16 (ascii "TUZESHA-CMD")
def critBlk (last : Nat) : State :=
  { host0 with crucible := { otp := some ([], critKey), streams := [(16 * 36 + 9, last)] } }

theorem critTag_length : critTag.length = 16 := by decide +kernel

/-- What a packet with any tag of 16 bytes reads as. -/
theorem crit_slice (t : Bytes) (o n : Nat) (h : o + n ≤ 48) :
    sliceB (critHead ++ t ++ critPay) o n = sliceB critHead o n := by
  rw [List.append_assoc, sliceB_append_left _ _ _ _ (by simpa [critHead] using h)]

theorem crit_drop (t : Bytes) (ht : t.length = 16) : (critHead ++ t ++ critPay).drop 64 = critPay := by
  have h : (critHead ++ t).length = 64 := by simp [critHead, ht]
  rw [← h, List.drop_left]

theorem crit_tag (t : Bytes) (ht : t.length = 16) : sliceB (critHead ++ t ++ critPay) 48 16 = t := by
  have h : critHead.length = 48 := by simp [critHead]
  have hd : ((critHead ++ t) ++ critPay).drop 48 = t ++ critPay := by rw [List.append_assoc, ← h, List.drop_left]
  have hk : (t ++ critPay).take 16 = t := by rw [← ht, List.take_left]
  simp only [sliceB, hd, hk, ht]
  simp

/-- The checks of a packet with any tag of 16 bytes. -/
theorem critChk_tagged (t : Bytes) (ht : t.length = 16) (last : Nat) :
    (critChk .bootPage (critHead ++ t ++ critPay) (critBlk last)).1 =
      if critTag ≠ t then some .badTag else if 1 ≤ last then some .counterReplay else none := by
  have hl : (critHead ++ t ++ critPay).length = 80 := by simp [critHead, critPay, ht]
  have h0 : natAt (critHead ++ t ++ critPay) 0 2 = 0x0202 := by
    rw [natAt, crit_slice t 0 2 (by omega)]; decide +kernel
  have h1 : natAt (critHead ++ t ++ critPay) 3 1 = 0xFF := by
    rw [natAt, crit_slice t 3 1 (by omega)]; decide +kernel
  have h2 : natAt (critHead ++ t ++ critPay) 4 4 = 16 := by
    rw [natAt, crit_slice t 4 4 (by omega)]; decide +kernel
  have h3 : natAt (critHead ++ t ++ critPay) 8 8 = 1 := by
    rw [natAt, crit_slice t 8 8 (by omega)]; decide +kernel
  have h4 : natAt (critHead ++ t ++ critPay) 16 16 = 0 := by
    rw [natAt, crit_slice t 16 16 (by omega)]; decide +kernel
  have h5 : zeroAt (critHead ++ t ++ critPay) 2 1 = true := by
    rw [zeroAt, crit_slice t 2 1 (by omega)]; decide +kernel
  have h6 : zeroAt (critHead ++ t ++ critPay) 40 8 = true := by
    rw [zeroAt, crit_slice t 40 8 (by omega)]; decide +kernel
  have h7 : payloadOk 0x0202 critPay = true := by decide +kernel
  have h8 : sliceB (critHead ++ t ++ critPay) 0 48 = critHead := by
    rw [crit_slice t 0 48 (by omega)]; decide +kernel
  have h9 := crit_drop t ht
  have h10 := crit_tag t ht
  generalize critHead ++ t ++ critPay = pkt at *
  have hp : packetOk .bootPage pkt = true := by
    simp [packetOk, hl, h0, h1, h2, h3, h5, h6, h9, h7]
  have hk : (critBlk last).keyFor 0x0202 0xFF = some (9, critKey) := by simp [State.keyFor, critBlk]
  have hn0 : host0.nonce = 0 := by decide +kernel
  have hn : (critBlk last).nonce = 0 := hn0
  have hs : tabGet (fun _ => 0) (critBlk last).crucible.streams (16 * FetchPoint.bootPage.index + 9) = last := by
    simp [tabGet, critBlk, FetchPoint.index]
  unfold critChk
  simp only [hp, h0, h1, h3, h4, h8, hk, hn, hs, h9, h10, Bool.not_true, Bool.false_eq_true, if_false]
  change (if critTag ≠ t then _ else _ : Option Status × State).1 = _
  split
  · rfl
  · simp only [ne_eq, not_true_eq_false, false_or]
    split <;> rfl

/-- A packet passes, one with another tag fails, and one whose counter is not above the last is a replay. -/
theorem witness_CriticalCheck :
    (critChk .bootPage (critHead ++ critTag ++ critPay) (critBlk 0)).1 = none ∧
    (critChk .bootPage (critHead ++ critTag ++ critPay) (critBlk 1)).1 = some .counterReplay ∧
    ∃ t, (critChk .bootPage (critHead ++ t ++ critPay) (critBlk 0)).1 = some .badTag := by
  refine ⟨?_, ?_, if critTag = List.replicate 16 0 then List.replicate 16 1 else List.replicate 16 0, ?_⟩
  · rw [critChk_tagged _ critTag_length]; simp
  · rw [critChk_tagged _ critTag_length]; simp
  · rw [critChk_tagged _ (by split <;> simp)]
    split <;> rename_i h
    · rw [h, if_pos (by decide)]
    · rfl

/-! ## Partitions, jobs and recovery -/

/-- A manifest by R415 of job 1: a RANGE entry of thread 2047 and a KERNEL entry for kernel 2, with a PROG entry of one op word
between them. -/
def manBytes : Bytes := leBytes 112 (0x4D4A5A54 + 2 ^ 32 + 2 ^ 48 + 3 * 2 ^ 64 + (3 + 2047 * 2 ^ 16) * 2 ^ 512 +
  (2 + 64 * 2 ^ 32 + 7 * 2 ^ 64 + 2 ^ 96) * 2 ^ 640 + (5 + 2 * 2 ^ 16 + 9 * 2 ^ 32) * 2 ^ 768)
def cellsOf (bs : Bytes) : List Host.Cell := (bs.zipIdx.filter (fun e => decide (e.1 ≠ 0))).map (fun e => (e.2, e.1))

/-- A die with that manifest in LPDDR and a version 5 of stage 0 LIVE and pinned for job 1. -/
def jobDie : Die := { actDie with
  regs := [(0x2000C, 0), (0x60000, 0x11), (0x60004, 1 + 2 ^ 15), (0x60020, 4 + 5 * 2 ^ 8), (0x60024, 1),
    (0x70000, 1), (0x80000, 1), (0xC1000, 0xFFFF0000), (0xC1004, 0x3FE0)]
  lpddr := cellsOf manBytes
  ranges := [⟨1, 0, 1, 0⟩] }

/-- READY, with job 1 in a state in partition 0 of row 0, and one command in progress. -/
def jobBlk (st : Word32) (i : JobInfo) (x : Cmd) : State :=
  { dies := [(0, jobDie)], punty := [(0, 8), (0x100, 0x101), (0x144, st)], binds := [(0, some 0)]
    pins := ⟨true, true, true, true⟩, jobs := [(1, i)], cmds := [x] }
def jobCmd' (op : Nat) (payload : Bytes) (imm : BitVec 128) : Cmd := hostCmd op 0 (2 ^ 20) 0 payload imm

def jobReady (st : Word32) (x : Cmd) : Bool :=
  let s := jobBlk st {} x
  decide (s.cmd? 7 = some x) && !x.begun && s.reckoner && decide (s.partState x.partition = 1) &&
    decide (s.jobState 1 = st.toNat) && decide (s.jobPart 1 = 0)

/-- Payloads that name job 1: of a DRAIN, of an ABORT, of a RESHARD of one context and of a RESTORE. -/
def pay1 : Bytes := leBytes 8 1
def abortPay : Bytes := leBytes 8 0x101
def reshardPay : Bytes := leBytes 48 (1 + 2 ^ 16 + 3 * 2 ^ 32 + 9 * 2 ^ 64 +
  ((1535 + 2 ^ 11) * 2 ^ 8 + (1 + 2 * 2 ^ 6) * 2 ^ 32 + 2 ^ 28 * 2 ^ 64 + 2 ^ 96) * 2 ^ 256)

theorem witness_JobsComplete :
    jobReady 2 (jobCmd' 0x0106 [] 0x102) = true ∧
    (jobBlk 0 {} (jobCmd' 0x0107 [] 0)).partJobs 0 = [] ∧
    (jobReady 0 (jobCmd' 0x0108 [] 1) = true ∧ (jobBlk 0 {} (jobCmd' 0x0108 [] 1)).partState 0 = 1 ∧
      ((jobBlk 0 {} (jobCmd' 0x0108 [] 1)).partBound 0).lookup 0 = some 0) ∧
    (jobReady 1 (jobCmd' 0x0101 pay1 0) = true ∧ (jobCmd' 0x0101 pay1 0).payloadJob = 1) ∧
    jobReady 2 (jobCmd' 0x0103 pay1 0) = true ∧ jobReady 3 (jobCmd' 0x0104 pay1 0) = true ∧
    (jobReady 2 (jobCmd' 0x0102 pay1 0) = true ∧ natAt pay1 1 1 = 0) ∧
    (jobReady 5 (jobCmd' 0x0102 abortPay 0) = true ∧ natAt abortPay 1 1 = 1 ∧
      (jobBlk 5 {} (jobCmd' 0x0102 abortPay 0)).partJobs 0 = [1]) ∧
    (jobReady 5 (jobCmd' 0x010A [] 0x1FF01) = true ∧ (jobCmd' 0x010A [] 0x1FF01).immJob = 1) ∧
    jobReady 1 (jobCmd' 0x010D [] 1) = true ∧ jobReady 1 (jobCmd' 0x0109 [] 1) = true ∧
    ((jobBlk 3 {} (jobCmd' 0x0104 pay1 0)).job 1).stopPause = false ∧
    ((jobBlk 5 {} (jobCmd' 0x0301 pay1 0)).job 1).restoring = 0 := by decide +kernel

/-- PARTITION_FORM of row 1, free, by partition 0 of none. -/
def formBlk : State := { jobBlk 0 {} (jobCmd' 0x0106 [] 0x102) with punty := [(0, 8)] }

theorem witness_JobsComplete_form :
    formBlk.partState 0 = 0 ∧ (maskRows 2).all (fun n => decide (formBlk.rowPart n = none) && !formBlk.degraded n) = true := by
  decide +kernel

/-- The manifest of the die is read and passes its checks. -/
def loads (s : State) : Bool :=
  match readManifest 0 0 s with
  | (some (m, false), s') => decide (manifestChk s' 0 1 m = none) && loadServes 0 0 s
  | _ => false

theorem witness_JobsComplete_load : loads (jobBlk 0 {} (jobCmd' 0x0108 [] 1)) = true := by decide +kernel

theorem witness_JobsComplete_launch :
    (launchClass 1 0 (startJob 1 (jobBlk 1 {} (jobCmd' 0x0101 pay1 0)))).1 = true ∧
    (launchClass 1 3 (jobBlk 1 {} (jobCmd' 0x0109 [] 1))).1 = true := by decide +kernel

theorem witness_JobsComplete_eval :
    isParison (jobBlk 2 {} (jobCmd' 0x010B [] 0x501)) 1 5 = true ∧
    (startEval 1 5 (jobBlk 2 {} (jobCmd' 0x010B [] 0x501))).1 = true ∧
    (kernelEntry ((jobBlk 2 {} (jobCmd' 0x010C [] 0x201)).manifest 1) 2).isSome = true := by decide +kernel

theorem witness_JobsComplete_reshard :
    jobReady 2 (jobCmd' 0x0105 reshardPay 0) = true ∧ natAt reshardPay 2 2 = 1 ∧ natAt reshardPay 4 2 = 3 ∧
    natAt reshardPay 8 6 = 9 ∧ bitOf (natAt reshardPay 1 1) 0 = false ∧
    redStep jobDie 1 < 9 + redN jobDie 1 ∧ jobReady 5 (jobCmd' 0x0301 (leBytes 32 0x101) 0) = true := by decide +kernel

theorem witness_JobsComplete_context :
    reshardOk (jobBlk 2 {} (jobCmd' 0x0105 reshardPay 0)) 1 (sliceB reshardPay 32 16) = true ∧
    jobDie.flag (redBase 1 + 16) 24 = false ∧ redGen jobDie 1 = 0 := by decide +kernel

theorem witness_JobsComplete_events :
    ((jobBlk 4 { limitMs := 1 } (jobCmd' 1 [] 0)).jobState 1 = 4 ∧ (jobBlk 4 { limitMs := 1 } (jobCmd' 1 [] 0)).partState 0 = 1) ∧
    ([{ jobCmd' 0x0109 [] 1 with begun := true }].filter (isUnload 1)).length = 1 ∧
    (stageKeys (evalPinGo 1 (jobBlk 2 { evalWait := some 4, evalPins := [0] } (jobCmd' 1 [] 0))) 1 = [0] ∧
      ((evalPinGo 1 (jobBlk 2 { evalWait := some 4, evalPins := [0] } (jobCmd' 1 [] 0))).job 1).evalPins = [0] ∧
      ((evalPinGo 1 (jobBlk 2 { evalWait := some 4, evalPins := [0] } (jobCmd' 1 [] 0))).job 1).evalWait = some 4 ∧
      (startEval 1 5 (evalPinGo 1 (jobBlk 2 { evalWait := some 4, evalPins := [0] } (jobCmd' 1 [] 0)))).1 = true) ∧
    windowsSince (jobBlk 2 { evalWait := some 4, commits := [(0, 205)] } (jobCmd' 1 [] 0)) 1 4 = 200 ∧
    (pinnedSlot jobDie 0 5 = some 0 ∧ jobDie.get ⟨verBase 0 + 4, 26, 15⟩ * 2 ^ 20 = 2 ^ 20 ∧
      lehrServes [(2 ^ 20, 2 ^ 20)] jobDie = true ∧ lpBad jobDie (2 ^ 20) (2 ^ 20) = []) ∧
    (((4 : BitVec 48).toNat + 1) % 256 = bitsOf (0x1050000 : BitVec 128).toNat 23 16 ∧ bitOf (0x1050000 : BitVec 128).toNat 24 = true) := by
  decide +kernel

/-- The check of an extent looks at each half; here at the first and the last of that slot. -/
theorem witness_JobsComplete_export : [2 ^ 20, 2 ^ 21 - 32].all (fun a =>
    decide ((halvesOk jobDie ⟨.lehr, false, jobDie.world, verJob jobDie 0⟩ 1 a).2 = none)) = true ∧
    halfCount (2 ^ 20) (2 ^ 20) = 2 ^ 15 := by decide +kernel

/-- JOB_PAUSE and JOB_RESUME (R421). -/
theorem test_pause : (after (.jobPause 7) (jobBlk 2 {} (jobCmd' 0x0103 pay1 0))).jobState 1 = 3 ∧
    paused ((after (.jobPause 7) (jobBlk 2 {} (jobCmd' 0x0103 pay1 0))).die 0) 1 = true ∧
    (after (.jobResume 7) (jobBlk 3 {} (jobCmd' 0x0104 pay1 0))).jobState 1 = 2 := by decide +kernel

/-- A retired die 0 that waits for its spare, die 1, outside any partition. -/
def spareBlk : State :=
  { dies := [(0, jobDie), (1, { actDie with run := .routeOnly })], sparing := [0], binds := [(0, some 0)],
    punty := [(0, 8), (0x30, 0xFFFFFFF4)], pins := ⟨true, true, true, true⟩ }

/-- A request by R452 for the PROG extent 0 of job 1. -/
def lehrB : BitVec 256 := 0x60d500000000000001000000000000200000000007510000100000000000

/-- A die whose Lehr rod holds a bead of one unit and waits for a part of 4 bytes. -/
def partDie' : Die := { jobDie with
  regs := [(0x2000C, 0), (0x100000, 1), (0x100008, 1)]
  rods := [(0, [⟨lehrB, false, 0⟩])]
  lehrWant := [{ pkg := 0, part := 1, stage := 0, index := 5, slot := 0, dst := 0, len := 4, got := [] }] }
def recBlk (d : Die) (st : Word32) : State := { jobBlk st {} (jobCmd' 1 [] 0) with dies := [(0, d)] }

theorem witness_RecoveryComplete :
    ((recBlk jobDie 2).reckoner = true ∧ jobDie.threads.all (fun t => decide (t.2.st ≠ .free)) = true ∧
      (jobDie.threadJob (BitVec.ofNat 11 0)).toNat = 1 ∧ (recBlk jobDie 2).jobState 1 = 2 ∧ paused jobDie 1 = false) ∧
    (({ recBlk jobDie 2 with punty := [(0, 8), (0x100, 0x102)] } : State).partState 0 = 2 ∧ (recBlk jobDie 2).rowLost 0 = false) ∧
    (jobReady 2 (jobCmd' 0x0303 [] 0) = true ∧ bitOf (0x100 : BitVec 128).toNat 8 = true) ∧
    (spareBlk.reckoner = true ∧ spareBlk.logicalOf 0 = some 0 ∧
      ({ spareBlk with sparing := spareBlk.sparing.filter fun x => decide (x ≠ 0) } : State).spareOf 0 = some 1 ∧
      wlkCarries (spareBlk.die 0) = false ∧ spareBlk.rowPart 0 = none) ∧
    ((recBlk jobDie 2).partState 0 = 1 ∧ (recBlk jobDie 2).sparing = [] ∧ (recBlk jobDie 5).jobState 1 = 5) := by decide +kernel

theorem witness_RecoveryComplete_lehr :
    (hdrOk lehrB = true ∧ isControl lehrB 7 = true ∧ lehrRequestOk lehrB = true ∧ (beadOf lehrB).handle = 2 ∧
      (withBead lehrB [] jobDie).inbox = .bead lehrB [] :: [] ∧
      lehrReady (jobBlk 2 {} (jobCmd' 1 [] 0)) { jobDie with logical := 0 } (beadOf lehrB) = true ∧
      (lehrHolds (jobBlk 2 {} (jobCmd' 1 [] 0)) { jobDie with logical := 0 } (beadOf lehrB)).isSome = true ∧
      (progEntries ((jobBlk 2 {} (jobCmd' 1 [] 0)).manifest (beadOf lehrB).job) 0)[(beadOf lehrB).tag]? = some (64, 7, 1)) ∧
    ((rodBeads partDie' (partDie'.get ⟨0xE0000, 11, 0⟩)).length = 1 ∧ (recBlk partDie' 2).logicalOf 0 = some 0 ∧
      rodServes partDie' 0 ⟨lehrB, false, 0⟩ = true ∧
      partWhole { pkg := 0, part := 1, stage := 0, index := 5, slot := 0, dst := 0, len := 4, got := [] } = false ∧
      partWhole { pkg := 0, part := 1, stage := 0, index := 5, slot := 0, dst := 0, len := 4, got := [1, 2, 3, 4] } = true) ∧
    (lehrRequestOk (packBead { beadOf lehrB with version := 1 }) = false ∧
      lehrHolds (jobBlk 2 {} (jobCmd' 1 [] 0)) jobDie { beadOf lehrB with handle := 0 } = none) ∧
    (jobDie.lehrSent = [] ∧ (jobDie.lehrOut.any fun o => o.journal) = false) := by decide +kernel

theorem witness_CaptureRestores : lhrQuiet jobDie = true ∧ captureRegs.length = 292 ∧ (2 ^ 48 - 1 : Nat) < 2 ^ 48 := by
  decide +kernel

/-! ## Power and clocks -/

/-- Two dies that hold 100 tokens each; the first one throttled at a temperature. -/
def powDie (junction : BitVec 8) : Die := { actDie with
  regs := [(0x2000C, 0), (0xB0000, 100), (0xB0008, 0x1F)], junction := junction }
/-- READY in a mode, row 0 at 700 mV with 720 mV requested, 5 W. -/
def powBlk (central : Word32) (junction : BitVec 8) : State :=
  { dies := [(0, powDie junction), (1, powDie junction)]
    rows := [(0, { rail := 700 })], punty := [(0, 8), (0x10000, 5 * 2 ^ 4 + central), (0x10010, 720 + 700 * 2 ^ 16)], pins := ⟨true, true, true, true⟩ }

/-- POWER beads by R431: a request for 8 tokens and a grant of 8. -/
def powReq : BitVec 256 := 0xf1a900000000000001000000000000000000008006500000100000000000
def powGrantB : BitVec 256 := 0xd2a300000000000001000000000000000010008006500000100000000000

theorem witness_PowerComplete :
    ((powBlk 0 91).reckoner = true ∧ (powBlk 0 91).pins.vddAon = true ∧ (powBlk 0 91).currentMv 0 = 700 ∧
      ((powBlk 0 91).row 0).rail = 700) ∧
    (mvOk 550 = true ∧ mvOk 850 = true ∧ mvOk 851 = false ∧ raiseFits 700 850 100 1000 5 = true ∧
      raiseFits 700 850 1000 5001 5 = false) ∧
    ((powBlk 0 91).currentMv 0 < (powBlk 0 91).requestedMv 0 ∧ raiseFits 700 720 100 1000 5 = true ∧
      rowThrottled ({ powBlk 0 91 with dies := [(0, actDie)] } : State) 0 = false) ∧
    (rowThrottled (powBlk 0 91) 0 = true ∧ throttled ((powBlk 0 91).die 0) = true ∧
      ((powBlk 0 91).die 0).junction.toInt < 92 ∧ 92 ≤ ((powBlk 0 92).die 0).junction.toInt) ∧
    ((powBlk 0 91).central = false ∧ (powBlk 1 91).central = true) := by decide +kernel

theorem witness_PowerComplete_tokens :
    (((powBlk 0 91).die 0).run = .active ∧ ((powBlk 0 91).die 0).classes = false ∧ hdrOk powReq = true ∧
      powerOk powReq = true ∧ isPowerRequest powReq = true ∧ ((powBlk 0 91).die 1).run = .active ∧
      (withBead powReq [] (powDie 91)).inbox = .bead powReq [] :: [] ∧ frozen ((powBlk 0 91).die 0) = false ∧ (neighbours 0).contains 1 = true ∧
      min (beadOf powReq).epoch (holding (powDie 91) - ceilDiv (estimate (powDie 91) * 17) 16) = 8) ∧
    (hdrOk powGrantB = true ∧ powerOk powGrantB = true ∧ isPowerGrant powGrantB = true) ∧
    [(powReq, 0), (powGrantB, 1)].all (fun e => let h := packBead { beadOf e.1 with srcRod := 1 }
      hdrOk h && !powerOk h && decide (isPowerGrant h = (e.2 == 1)) && decide (isPowerRequest h = (e.2 == 0))) = true :=
  by decide +kernel

/-- POWER_REQUEST moves the tokens (R431), and CENTRAL_DIVISION shares 32 × 5 between two dies that ask for nothing. -/
theorem test_power : holding ((after (.powerRequest 0 1 powReq) ((powBlk 0 91).modDie 0 (withBead powReq []))).die 0) = 92 ∧
    fairShares 3 160 [(0, 10), (1, 200)] = [(0, 10), (1, 150)] := by decide +kernel

/-- Temperatures at the limits of R52 and R94, and what the other clauses ask. -/
def rowBlk : State := { powBlk 0 91 with
  rows := [(0, { rail := 700, ocOn := true, clkLost := true })], excOn := true, avsPaced := true, avsFails := 2
  avsSent := some (.avsRate 0 5) }

theorem witness_PowerComplete_limits :
    ((95 : BitVec 8).toInt = 95 ∧ (100 : BitVec 8).toInt = 100 ∧ (96 : BitVec 8).toInt < 97 ∧ (110 : BitVec 8).toInt = 110 ∧
      (115 : BitVec 8).toInt = 115 ∧ (powDie 91).thermHalt = false) ∧
    ((rowBlk.row 0).ocOn = true ∧ rowBlk.excOn = true ∧ rowBlk.avsSent.isSome = true ∧ rowBlk.avsFails = 2 ∧ (powBlk 0 91).avsFails < 2 ∧ rowBlk.avsPaced = true) ∧
    (rowBlk.rowLost 0 = true ∧ actDie.thermHalt = false ∧ (blk actDie).rowLost 7 = false ∧ (blk actDie).boot ≠ 3 ∧
      (blk actDie).boot ≠ 4 ∧ (blk actDie).reckoner = false ∧ rowBlk.mgtLost = false) := by decide +kernel

/-- Port 0 on its primary die. -/
theorem witness_PowerComplete_port :
    (blk { actDie with regs := [(0x2000C, 0), (0xD0000, 0x8050A)] }).carrier 0 = some 0 ∧
    wlkCarries { actDie with regs := [(0x2000C, 0), (0xD0000, 0x8050A)] } = true := by decide +kernel

/-- One slot is lost per period of an over-current (R44), down to 1. -/
theorem test_pace : ((after (.paceLowerTick (.overCurrent 0 500000)) rowBlk).row 0).oc = 15 := by decide +kernel

/-! ## Bring-up -/

/-- A block in a boot state whose dies 3 to 5 are on, with boot commands in progress. -/
def bootBlk (st : Word32) (otp : Option (Bytes × Bytes)) (cs : List Cmd) : State :=
  { dies := [(3, actDie), (4, actDie), (5, actDie)], punty := [(0, st)], pins := ⟨true, true, true, true⟩
    crucible := { otp := otp }, cmds := cs }
def bootCmd' (op srcLen : Nat) (payload : Bytes) : Cmd := { hostCmd op srcLen 0 255 payload 0 with boot := true }

/-- The clauses that hang on no signature; those that do follow below. -/
theorem witness_BootComplete :
    (({ (bootBlk 0 none []) with pins := ⟨true, true, false, false⟩ } : State).pins.vddAon = true) ∧
    ((bootBlk 1 none []).boot = 1 ∧ imageChk none (norImage (bootBlk 1 none []).nor) = some .malformed) ∧
    ((bootBlk 3 none []).boot = 3 ∧ (bootBlk 3 none []).retired = [] ∧ ((bootBlk 3 none []).die 4).clkLost = false ∧
      (bootBlk 3 none []).dieMap 4 ≠ 2) ∧
    ((bootBlk 4 none []).boot = 4 ∧ (List.range 72).all (fun p => decide (((bootBlk 4 none []).die p).run = .off) ||
      (0x38 : BitVec 72).getLsbD p) = true) ∧
    (wlkCarries ((bootBlk 5 none []).die (portDies 7).1) = false ∧ wlkCarries ((bootBlk 5 none []).die (portDies 7).2) = false ∧
      natAt (sliceB (sectionBytes (bootBlk 5 none []).image 5) 56 8) 0 2 = 0) ∧
    ((bootBlk 6 none []).boot = 6 ∧ (bootBlk 7 none []).boot = 7 ∧ (bootBlk 0xA none []).boot = 0xA) := by decide +kernel

theorem witness_BootComplete_commands :
    ((bootBlk 4 none [bootCmd' 0x0201 64 []]).bootCmd? 0x0201 = some (bootCmd' 0x0201 64 []) ∧
      (bootBlk 4 none []).flag 0 5 = false ∧ firmwareChk (sectionBytes (bootBlk 4 none []).image 8) (List.replicate 64 0) =
        some .malformed) ∧
    ((bootBlk 1 none [bootCmd' 0x0210 0 []]).bootCmd? 0x0210 = some (bootCmd' 0x0210 0 []) ∧
      (bootBlk 1 none []).provisioned = false ∧ (bootBlk 1 (some ([], [])) []).provisioned = true) ∧
    ((bootBlk 2 none [bootCmd' 0x0202 0 (leBytes 16 0)]).cmd? 7 = some (bootCmd' 0x0202 0 (leBytes 16 0)) ∧
      natAt (leBytes 16 0) 8 4 = 0 ∧ (bootBlk 2 none []).boot = 2 ∧ imageChk none (norImage []) = some .malformed) ∧
    ((bootBlk 1 none []).flag 0x2C 8 = false ∧ critChk .bootPage (leBytes 64 0x0201) (bootBlk 1 none []) =
      (some .malformed, bootBlk 1 none [])) ∧
    (({ (bootBlk 8 none []) with autostart := true } : State).boot = 8 ∧ autostartPorts (bootBlk 8 none []) = true ∧
      autostartServes none (bootBlk 8 none []) = true ∧ (bootBlk 8 none []).partState (natAt (bootBlk 8 none []).autoSec 3 1) ≠ 2 ∧
      (autostartFetch none none (bootBlk 8 none [])).1.isNone = true) ∧
    ((bootBlk 8 none []).hostOpen = true ∧ ((bootBlk 8 none []).die 3).run ≠ .off) := by decide +kernel

/-- A packet of R397 with a right tag starts an IMAGE_WRITE through the boot page. -/
theorem witness_BootComplete_doorbell : (critBlk 0).hostLink = true ∧ (critBlk 0).flag 0x2C 8 = false ∧
    (critChk .bootPage (critHead ++ critTag ++ critPay) (critBlk 0)).1 = none ∧
    natAt (critHead ++ critTag ++ critPay) 0 2 = 0x0202 := by
  refine ⟨by decide +kernel, by decide +kernel, by rw [critChk_tagged _ critTag_length]; simp, ?_⟩
  rw [natAt, crit_slice critTag 0 2 (by omega)]
  decide +kernel

/-- An image of one section, PORTROLE, that gives port 0 role 1, whose port is down (R62, R63). -/
def portImage : Bytes := leBytes 0x81 (2 ^ 48 + 3 * 2 ^ 512 + 0x80 * 2 ^ 544 + 2 ^ 576 + 2 ^ 1024)
theorem witness_BootComplete_autostart :
    autostartPorts ({ (bootBlk 8 none []) with autostart := true, image := portImage } : State) = false := by decide +kernel

/-- An AUTOSTART section (R66) for job 1 in partition 0, whose manifest is 64 bytes of die 0 with no program. -/
def autoManifest : Bytes := List.replicate 64 0
def autoHead : Bytes := leBytes 64 (0x101 + 2 ^ 168 + 64 * 2 ^ 256 + 2 ^ 288)
def autoImage : Bytes :=
  leBytes 0x80 (2 ^ 48 + 0xB * 2 ^ 512 + 0x80 * 2 ^ 544 + 128 * 2 ^ 576) ++ autoHead ++ shake256 autoManifest ++ shake256 []
def autoBlk : State :=
  { jobBlk 0 {} (jobCmd' 1 [] 0) with punty := [(0, 8), (0x100, 0x101)], autostart := true, image := autoImage }

/-- The extents of AUTOSTART pass (R82). -/
theorem witness_BootComplete_extents : autoBlk.autostart = true ∧ autoBlk.boot = 8 ∧ autostartPorts autoBlk = true ∧
    autoBlk.partState (natAt autoBlk.autoSec 3 1) ≠ 2 ∧ autostartServes (some autoManifest) autoBlk = true ∧
    (autostartFetch (some autoManifest) (some []) autoBlk).1 = some autoManifest := by decide +kernel

/-- A block whose NOR holds an image that passes, provisioned with the keys it is signed under. -/
def imageBlk (st : Word32) (nor : List Host.Cell) (cs : List Cmd) : State :=
  { bootBlk st (some (SignedImage.ownerKey, SignedImage.recoveryKey)) cs with nor := nor }

/-- The image passes and its keys are taken (R64, R395). -/
theorem witness_BootComplete_image : (imageBlk 1 SignedImage.goodNor []).boot = 1 ∧
    imageChk (imageBlk 1 SignedImage.goodNor []).crucible.otp (norImage (imageBlk 1 SignedImage.goodNor []).nor) = none ∧
    ∃ t, takeKeys (norImage (imageBlk 1 SignedImage.goodNor []).nor) true (imageBlk 1 SignedImage.goodNor []) = some t := by
  refine ⟨rfl, ?_, ?_⟩
  · exact (congrArg _ SignedImage.norImage_goodNor).trans SignedImage.imageChk_goodImage
  · have e : norImage (imageBlk 1 SignedImage.goodNor []).nor = SignedImage.goodImage := SignedImage.norImage_goodNor
    rw [e]
    simp only [takeKeys, imageBlk, bootBlk, SignedImage.wrapOk_goodImage, if_true]
    exact ⟨_, rfl⟩

/-- IMAGE_WRITE of that image, the NOR empty (R79). -/
def writeCmd : Cmd := bootCmd' 0x0202 0 (leBytes 16 ((0x10B40 + 2820) * 2 ^ 64))
theorem witness_BootComplete_write : (imageBlk 2 [] [writeCmd]).cmd? writeCmd.id = some writeCmd ∧ writeCmd.opcode = 0x0202 ∧
    SignedImage.goodImage.length = natAt writeCmd.payload 8 4 ∧ (imageBlk 2 [] [writeCmd]).current writeCmd = true ∧
    imageChk (imageBlk 2 [] [writeCmd]).crucible.otp
      (norImage (tabPut norFree (tabDrop (imageBlk 2 [] [writeCmd]).nor 0 imageArea) 0 SignedImage.goodImage)) = none := by
  refine ⟨by decide +kernel, by decide, ?_, by decide +kernel, ?_⟩
  · rw [SignedImage.goodImage_length]; decide
  · exact (congrArg _ SignedImage.norImage_goodNor).trans SignedImage.imageChk_goodImage

/-- FIRMWARE_LOAD of a firmware image that passes under that image's KEYS (R404). -/
def loadCmd : Cmd := bootCmd' 0x0201 2884 []
theorem witness_BootComplete_firmware :
    let s : State := { imageBlk 4 [] [loadCmd] with image := SignedImage.goodImage }
    s.bootCmd? 0x0201 = some loadCmd ∧ (3 ≤ s.boot ∧ s.boot ≤ 5) ∧ s.flag 0 5 = false ∧
    SignedImage.goodFirmware.length = loadCmd.srcLen ∧ s.current loadCmd = true ∧
    firmwareChk (sectionBytes s.image 8) SignedImage.goodFirmware = none := by
  refine ⟨by decide +kernel, by decide +kernel, by decide +kernel, ?_, by decide +kernel,
    SignedImage.firmwareChk_goodFirmware⟩
  rw [SignedImage.goodFirmware_length]; rfl

theorem witness_OneTimeStorage : ∃ t, exec .provision (bootBlk 1 none [bootCmd' 0x0210 0 []]) = .next t ∧
    t.crucible.otp ≠ none := ⟨_, rfl, by decide +kernel⟩

/-- DIE_ANSWER_TIMEOUT retires the die (R68). -/
theorem test_die_answer : (after (.dieAnswerTimeout 5) (bootBlk 3 none [])).retired = [5] := by decide +kernel

/-! ## The whole block -/

theorem witness_StepTakesFront :
    ({ blk actDie with pending := [.mgtclkLoss, .imageVerify] } : State).pending = .mgtclkLoss :: [.imageVerify] ∧
    (blk actDie).pending = [] := by decide

/-- A step runs the front of the queue, an idle one counts MGTCLK (R48). -/
theorem test_step :
    (match step ({ blk actDie with pending := [.mgtclkLoss] } : State) with
      | .next t => t.mgtLost && t.pending.isEmpty
      | _ => false) = true ∧
    (match step (blk actDie) with | .next t => decide (t.mgtclk = 1) | _ => false) = true := by decide +kernel

/-- The block before VDD_AON keeps the range of the paces, and a step from there answers a next state. -/
theorem witness_PacesStayInRange :
    ((1 ≤ State.reset.excPace ∧ State.reset.excPace ≤ 16) ∧ ∀ n, 1 ≤ (State.reset.row n).oc ∧ (State.reset.row n).oc ≤ 16) ∧
    ∃ t, step State.reset = .next t := ⟨⟨by decide, fun _ => ⟨(by decide : (1 : Nat) ≤ 16), (by decide : (16 : Nat) ≤ 16)⟩⟩, _, rfl⟩

theorem witness_QueueIsTheSenders : ∃ t, exec .mgtclkLoss (blk actDie) = .next t ∧ t.mgtLost = true := ⟨_, rfl, by decide⟩

theorem witness_QuietDieNothingFollows :
    ((blk actDie).die 0).lhrGo = false ∧ ((blk actDie).die 0).lehrOut = [] ∧ actDie.lehrWant = [] ∧
    ((blk actDie).die 0).flag 0xE0010 0 = lehrBusy ((blk actDie).die 0) ∧
    (∀ j, ((blk actDie).job j).parisons = []) ∧ registryNow ((blk actDie).die 0) = registryNow actDie ∧
    (∀ j, redWords ((blk actDie).die 0) j = redWords actDie j) ∧ (blk actDie).reckoner = false :=
  ⟨by decide, by decide, by decide, by decide +kernel, fun _ => rfl, by decide +kernel, fun _ => rfl, by decide⟩

/-- The same holds while jobs may run: READY, none loaded, and no fault since. -/
theorem witness_QuietDieNothingFollows_ready :
    host0.reckoner = true ∧ (∀ j : Fin 16, ({ host0 with punty := [(0, 8)] } : State).jobState j.val = 0) ∧
    newFaults actDie actDie = [] ∧ ueCount actDie < actDie.patrol.2 + 16 := by decide +kernel
end Sys2Proof.Tests
end

section
/-! PROOFS. Movement ops: the rejection of a long op, the units of an extent that the region table lets through, reads
of stored bytes that carry no mark, and DMA (R178). -/

namespace Sys2Proof.Machine

/-! ## A long op that a check turns away (R156 to R158) -/

/-- A rejected op is issued, its thread's `LAST_STATUS` is the status, and `HOE` turns that into a fault. -/
theorem reject_eq (d : Die) (t : ThreadId) (opcode : Nat) (w : OpWord) (st : Status) :
    reject d t opcode w st =
      let d' := (issued d t).modThread t fun th => { th with last := st }
      if wHoe w then threadFault t st opcode d' else d' := rfl

/-- A long op that a check turns away never reaches its unit. -/
theorem issueLong_rejects {opcode : Nat} {u : OpUnit} {t : ThreadId} {w : OpWord} {fields : List (Nat × Nat)}
    {chk : Die → Thread → Option Status} {mk : Thread → LongOp → LongOp} {post : LongOp → Die → Die} {d : Die}
    {st : Status} (h : Passes d t opcode w fields) (c : chk d (d.thread t) = some st) :
    issueLong opcode u t w fields chk mk post d = reject d t opcode w st :=
  issueOp_rejects h c

/-- Both field checks of a DMA answer `MALFORMED` (R178). -/
theorem dieDma_outside {d : Die} {t : ThreadId} {w : OpWord} (h : Passes d t 0x40 w [(68, 0)])
    (out : spdWords < opField w.x 22 6 + (oregOff (d.thread t) w).toNat + opField w.x 68 52 ∨
      2 ^ 35 < 64 * (opField w.x 51 23 + (oregOff (d.thread t) w).toNat) + 512 * opField w.x 68 52) :
    dieDma t w d = reject d t 0x40 w .malformed := by
  rw [dieDma, issueMove]
  refine issueLong_rejects h ?_
  dsimp only
  by_cases inSpd : spdWords < opField w.x 22 6 + (oregOff (d.thread t) w).toNat + opField w.x 68 52
  · rw [if_pos inSpd]
  · rw [if_neg inSpd, if_pos (out.resolve_left inSpd)]

/-! ## The units of an extent (R178, R290) -/

theorem unitsOk_succ_refused {d : Die} {r : Req} {a : Nat} {st : Status} (n : Nat)
    (h : regionChk d r a 64 = some st) : unitsOk d r (n + 1) a = (0, some st) := by
  simp [unitsOk, h]

theorem unitsOk_succ_passes {d : Die} {r : Req} {a : Nat} (n : Nat) (h : regionChk d r a 64 = none) :
    unitsOk d r (n + 1) a = ((unitsOk d r n (a + 64)).1 + 1, (unitsOk d r n (a + 64)).2) := by
  simp [unitsOk, h]

/-- Every counted unit passes the region table. -/
theorem unitsOk_counted_pass (d : Die) (r : Req) (n a : Nat) :
    ∀ i, i < (unitsOk d r n a).1 → regionChk d r (a + 64 * i) 64 = none := by
  induction n generalizing a with
  | zero => exact fun i hi => absurd hi (Nat.not_lt_zero i)
  | succ n ih =>
    intro i hi
    cases c : regionChk d r a 64 with
    | some st =>
      rw [unitsOk_succ_refused n c] at hi
      exact absurd hi (Nat.not_lt_zero i)
    | none =>
      rw [unitsOk_succ_passes n c] at hi
      cases i with
      | zero => exact c
      | succ i =>
        have next := ih (a + 64) i (Nat.lt_of_succ_lt_succ hi)
        rwa [show a + 64 * (i + 1) = a + 64 + 64 * i by omega]

/-- Without a refusal every unit is counted. -/
theorem unitsOk_all_of_none (d : Die) (r : Req) (n a : Nat) (h : (unitsOk d r n a).2 = none) :
    (unitsOk d r n a).1 = n := by
  induction n generalizing a with
  | zero => rfl
  | succ n ih =>
    cases c : regionChk d r a 64 with
    | some st =>
      rw [unitsOk_succ_refused n c] at h
      exact absurd h (Option.some_ne_none st)
    | none =>
      rw [unitsOk_succ_passes n c] at h ⊢
      exact congrArg Nat.succ (ih (a + 64) h)

/-- A refusal is that of the unit after the counted ones, which lies in the extent. -/
theorem unitsOk_refused_at (d : Die) (r : Req) (n a : Nat) (st : Status) (h : (unitsOk d r n a).2 = some st) :
    (unitsOk d r n a).1 < n ∧ regionChk d r (a + 64 * (unitsOk d r n a).1) 64 = some st := by
  induction n generalizing a with
  | zero => exact absurd h.symm (Option.some_ne_none st)
  | succ n ih =>
    cases c : regionChk d r a 64 with
    | some st' =>
      rw [unitsOk_succ_refused n c] at h ⊢
      exact ⟨Nat.succ_pos n, c.trans h⟩
    | none =>
      rw [unitsOk_succ_passes n c] at h ⊢
      obtain ⟨lt, refused⟩ := ih (a + 64) h
      refine ⟨Nat.succ_lt_succ lt, ?_⟩
      rwa [show a + 64 * ((unitsOk d r n (a + 64)).1 + 1) = a + 64 + 64 * (unitsOk d r n (a + 64)).1 by omega]

/-! ## Stored bytes that carry no mark (R176, R177, R282, R283) -/

/-- Value `i` of a slice is what the table reads at its key. -/
theorem tabSlice_getD {α : Type} (d : Nat → α) (t : List (Nat × α)) (k n i : Nat) (x : α) (h : i < n) :
    (tabSlice d t k n).getD i x = tabGet d t (k + i) := by
  induction n generalizing k i with
  | zero => omega
  | succ n ih =>
    cases i with
    | zero => rfl
    | succ i =>
      rw [tabSlice, List.getD_cons_succ, ih (k + 1) i (by omega), show k + 1 + i = k + (i + 1) by omega]

/-- A slice of one table written to another: the destination reads the source, every other key as before. -/
theorem tabGet_tabPut_tabSlice {α : Type} [DecidableEq α] (d e : Nat → α) (t u : List (Nat × α)) (k j n i : Nat) :
    tabGet d (tabPut d t k (tabSlice e u j n)) i =
      if k ≤ i ∧ i < k + n then tabGet e u (j + (i - k)) else tabGet d t i := by
  rw [tabGet_tabPut, tabSlice_length]
  split
  · rw [tabSlice_getD _ _ _ _ _ _ (by omega)]
  · rfl

/-- A write of the scratchpad leaves its bytes there and every other byte as before. -/
theorem tabGet_spdWrite (c a : Nat) (bs : Bytes) (d : Die) (i : Nat) :
    tabGet zeroByte (spdWrite c a bs d).spd i = tabGet zeroByte (tabPut zeroByte d.spd a bs) i := by
  have written : (spdWrite c a bs d).spd = if bs.length = 0 then d.spd else tabPut zeroByte d.spd a bs :=
    congrArg (·.2.1) (spdWrite_stores c a bs d)
  rw [written]
  split
  · next empty => rw [tabGet_tabPut, if_neg (by omega)]
  · rfl

/-- A read of unmarked words gives their bytes and loses none. -/
theorem spdRead_unmarked {d : Die} {a n : Nat} (c : Nat) (h : spdBad d a n = []) :
    spdRead c a n d = (tabSlice zeroByte d.spd a n, [], spdGrant c (portWords a n) d) := by
  simp [spdRead, h]

/-- A read of unmarked halves gives their bytes and leaves the die as it is. -/
theorem lpRead_unmarked {d : Die} {a n : Nat} (h : lpBad d a n = []) :
    lpRead a n d = (tabSlice zeroByte d.lpddr a n, [], d) := by
  simp [lpRead, h]

theorem placeLp_unmarked (a spw : Nat) (bs : Bytes) (d : Die) : placeLp a spw bs [] d = spdWrite 1 spw bs d := by
  simp [placeLp, halfWords, spdSpoil]

theorem writeUnits_unmarked (r : Req) (a spw : Nat) (bs : Bytes) (d : Die) :
    writeUnits r a spw bs [] d = lpStore r a bs d := by
  simp [writeUnits, lpPoison]

/-- Whole units need no free bytes at their end. -/
theorem padHalf_units (bs : Bytes) (d : Die) (k : Nat) (h : bs.length = 64 * k) : (padHalf bs d).1 = bs := by
  have whole : roundUp bs.length 32 - bs.length = 0 := by
    unfold roundUp
    omega
  simp [padHalf, whole, tabulate]

/-! ## DMA (R178) -/

/-- The units of a DMA that the region table lets through, and the status of the first that it refuses. -/
def dmaUnits (o : LongOp) (d : Die) : Nat × Option Status :=
  unitsOk d (dmaReq d o (bitOf o.x.toNat 5)) (8 * opField o.x 68 52) (64 * o.addr 51 23)

/-- The record of a refusal changes registers alone. -/
theorem noteRefusal_eq (r : Req) (a : Nat) (st : Option Status) (d : Die) :
    ∃ rs, noteRefusal r a st d = { d with regs := rs } := by
  cases st with
  | none => exact ⟨d.regs, rfl⟩
  | some st =>
    simp only [noteRefusal, regionRefused]
    split <;> split <;> exact ⟨_, rfl⟩

/-- A DMA's status is the refusal's where no byte was lost. -/
theorem moveStatus_unmarked (ref : Option Status) : moveStatus ref false = ref.getD .ok := by
  cases ref <;> rfl

/-- A DMA from LPDDR whose halves are readable: the status, what stays, and the scratchpad that results. -/
theorem runDma_fromLpddr {o : LongOp} {d : Die} (dir : bitOf o.x.toNat 5 = false)
    (clean : lpBad d (64 * o.addr 51 23) (64 * (dmaUnits o d).1) = []) :
    (runDma o d).1 = (dmaUnits o d).2.getD .ok ∧ (runDma o d).2.lpddr = d.lpddr ∧
    ∀ a, tabGet zeroByte (runDma o d).2.spd a = tabGet zeroByte (tabPut zeroByte d.spd (512 * o.addr 22 6)
      (tabSlice zeroByte d.lpddr (64 * o.addr 51 23) (64 * (dmaUnits o d).1))) a := by
  obtain ⟨rs, noted⟩ := noteRefusal_eq (dmaReq d o false) (64 * o.addr 51 23 + 64 * (dmaUnits o d).1)
    (dmaUnits o d).2 d
  have run : runDma o d = ((dmaUnits o d).2.getD .ok, spdWrite 1 (512 * o.addr 22 6)
      (tabSlice zeroByte d.lpddr (64 * o.addr 51 23) (64 * (dmaUnits o d).1)) { d with regs := rs }) := by
    have read := lpRead_unmarked (d := { d with regs := rs }) clean
    simp only [dmaUnits, dir] at noted read ⊢
    simp [runDma, dir, noted, read, placeLp_unmarked, moveStatus_unmarked]
  rw [run]
  exact ⟨rfl, congrArg (·.1) (spdWrite_stores ..), tabGet_spdWrite _ _ _ _⟩

/-- A DMA to LPDDR whose words are readable: the status, what stays, and the LPDDR that results. -/
theorem runDma_toLpddr {o : LongOp} {d : Die} (dir : bitOf o.x.toNat 5 = true)
    (clean : spdBad d (512 * o.addr 22 6) (64 * (dmaUnits o d).1) = []) :
    (runDma o d).1 = (dmaUnits o d).2.getD .ok ∧ (runDma o d).2.spd = d.spd ∧
    (runDma o d).2.lpddr = tabPut zeroByte d.lpddr (64 * o.addr 51 23)
      (tabSlice zeroByte d.spd (512 * o.addr 22 6) (64 * (dmaUnits o d).1)) := by
  obtain ⟨rs, noted⟩ := noteRefusal_eq (dmaReq d o true) (64 * o.addr 51 23 + 64 * (dmaUnits o d).1)
    (dmaUnits o d).2 d
  have run : runDma o d = ((dmaUnits o d).2.getD .ok, lpStore (dmaReq d o true) (64 * o.addr 51 23)
      (tabSlice zeroByte d.spd (512 * o.addr 22 6) (64 * (dmaUnits o d).1))
      (spdGrant 1 (portWords (512 * o.addr 22 6) (64 * (dmaUnits o d).1)) { d with regs := rs })) := by
    have read := spdRead_unmarked (d := { d with regs := rs }) 1 clean
    simp only [dmaUnits, dir] at noted read ⊢
    simp [runDma, dir, noted, read, writeUnits_unmarked, moveStatus_unmarked]
  rw [run]
  refine ⟨rfl, congrArg (·.2.1) (lpStore_stores ..), (congrArg (·.1) (lpStore_stores ..)).trans ?_⟩
  rw [padHalf_units _ _ _ (tabSlice_length ..)]
  rfl

/-- Settles O16: an extent outside is rejected by `dieDma_outside`; a DMA that runs is a slice of the source, as long
as the units that the region table lets through, written to the destination. -/
theorem dmaCopiesBytes : Obligations.DmaCopiesBytes := by
  unfold Obligations.DmaCopiesBytes
  constructor
  · intro p t w s off n pass out
    refine congrArg Host.Outcome.next (onDie_passes pass fun pass' => ?_)
    rw [dieDma_outside pass' (by rwa [thread_patrolNow]), reject_eq]
  · intro o d toLp spw mem units u n r
    refine ⟨unitsOk_all_of_none _ _ _ _, unitsOk_refused_at _ _ _ _, unitsOk_counted_pass _ _ _ _,
      fun dir clean => ?_, fun dir clean => ?_⟩
    · obtain ⟨status, stays, copied⟩ := runDma_fromLpddr dir clean
      exact ⟨status, stays, fun a => (copied a).trans (tabGet_tabPut_tabSlice ..)⟩
    · obtain ⟨status, stays, copied⟩ := runDma_toLpddr dir clean
      exact ⟨status, stays, fun a => copied ▸ tabGet_tabPut_tabSlice ..⟩

end Sys2Proof.Machine
end

section
/-! PROOFS. Credit beads: what a command that takes the bead at the front of an inbox does, each arriving bead's cases
at the die, and the registers of the credit cache after its operations (R200 to R202, R204, R208). -/

namespace Sys2Proof.Machine

/-! ## Taking the bead at the front of the inbox (R205, R206, R217) -/

/-- The effect at an active die matters only on the state that the patrol period leaves. -/
theorem atActive_ranAt {s : State} {p : PDie} {f g : State → State} (act : (s.die p).run = .active)
    (e : f (s.modDie p patrolNow) = g (s.modDie p patrolNow)) : s.atActive p f = s.ranAt p g := by
  rw [atActive_eq s p f act]
  simp only [State.ranAt, e]

theorem modDie_modDie (s : State) (p : Nat) (f g : Die → Die) :
    (s.modDie p f).modDie p g = s.modDie p (fun d => g (f d)) := by
  simp [State.modDie]

/-- The die once the patrol period stands at `n` and the front of the inbox is taken, which leaves `rest`. -/
def Die.taken (n : Nat × Nat) (rest : List Frame) (d : Die) : Die := { d with patrol := n, inbox := rest }

/-- A command that acts on the frame at the front of the inbox takes it. -/
theorem fromInbox_front {d : Die} {fr : Frame} {rest : List Frame} (front : d.inbox = fr :: rest) (k : Die → Die) :
    fromInbox true fr k d = k { d with inbox := rest } := by
  simp [fromInbox, front]

theorem State.fromInbox_front {s : State} {p : Nat} {fr : Frame} {rest : List Frame}
    (front : (s.die p).inbox = fr :: rest) (k : State → State) :
    s.fromInbox p true fr k = k (s.modDie p fun d => { d with inbox := rest }) := by
  simp [State.fromInbox, front]

/-- A command at an active die that takes the frame at the front of its inbox. -/
theorem onDie_front {s : State} {p : PDie} {fr : Frame} {rest : List Frame} {ok : Bool} {f g : Die → Die}
    (act : (s.die p).run = .active) (front : (s.die p).inbox = fr :: rest) (acts : ok = true)
    (e : ∀ n, f ((s.die p).taken n rest) = g { s.die p with patrol := n }) :
    s.onDie p (fromInbox ok fr f) = s.ran p g := by
  refine onDie_eq s p _ g act ?_
  obtain ⟨n, moved⟩ := patrolNow_eq (s.die p)
  rw [acts, fromInbox_front (by rw [moved]; exact front), moved]
  exact e n

/-- The same of a command whose effect at the block goes on after the die's own. -/
theorem atActive_front {s : State} {p : PDie} {fr : Frame} {rest : List Frame} {ok : Bool} {f g : Die → Die}
    {after : State → State} (act : (s.die p).run = .active) (front : (s.die p).inbox = fr :: rest) (acts : ok = true)
    (e : ∀ n, f ((s.die p).taken n rest) = g { s.die p with patrol := n }) :
    s.atActive p (fun s => s.fromInbox p ok fr fun s => after (s.modDie p f)) =
      s.ranAt p fun s => after (s.modDie p g) := by
  refine atActive_ranAt act ?_
  obtain ⟨n, moved⟩ := patrolNow_eq (s.die p)
  have front' : ((s.modDie p patrolNow).die p).inbox = fr :: rest := by rw [die_modDie_self, moved, front]
  have eff : f { patrolNow (s.die p) with inbox := rest } = g (patrolNow (s.die p)) := by
    rw [moved]
    exact e n
  rw [acts, State.fromInbox_front front', modDie_modDie, modDie_modDie, modDie_modDie]
  exact congrArg (fun d => after (s.setDie p d)) eff

/-- A whole header reaches the row of its kind. -/
theorem arriving_whole {h : BitVec 256} {d : Die} (act : d.run = .active) (whole : hdrOk h = true) (k : Die → Die) :
    arriving h k d = k d := by
  simp [arriving, rodUnitOn, act, whole]

theorem isControl_true {h : BitVec 256} {n : Nat} (kind : (beadOf h).kind = 5) (sub : (beadOf h).csub = n) :
    isControl h n = true := by
  simp [isControl, isKind, kind, sub]

/-! ## An arriving bead at the die it is for -/

theorem goodSend_dropHandle (k op : Nat) (d : Die) : goodSend (dropHandle k d) op = goodSend d op := rfl

/-- An OPEN entry takes the additional credit of an OPEN bead (R200, first row): its epoch and sequence stay. -/
def ccAdd (b : Bead) (e : Nat) (d : Die) : Die :=
  let d' := (d.setReg (ccBase e + 8) (ccAvail d e + b.credit)).setReg (ccBase e + 12) (ccGrant d e + b.credit)
  { d' with ccWorld := tabSet (fun _ => false) d.ccWorld e b.world }.setReg (ccBase e + 20) b.tag

section
variable {h : BitVec 256} {d : Die} (act : d.run = .active) (whole : hdrOk h = true)
include act whole

theorem dieOpenBead_malformed (kind : (beadOf h).kind = 3) (bad : beadBad h = true) :
    dieOpenBead h d = nakBead (beadOf h) .malformed d := by
  rw [dieOpenBead, arriving_whole act whole]
  simp [kind, bad]

theorem dieOpenBead_adds {e : Nat} (kind : (beadOf h).kind = 3) (good : beadBad h = false) (dst : (beadOf h).dstDie ≠ 127)
    (src : ccFind d (beadOf h).srcPkg (beadOf h).srcDie (beadOf h).srcRod = some e)
    (opened : ccState d e = 0) (epoch : ccEpoch d e = (beadOf h).epoch)
    (fits : ccGrant d e + (beadOf h).credit ≤ 16777215) :
    dieOpenBead h d = creditGo (deliverBead (beadOf h) (ccAdd (beadOf h) e d)) := by
  rw [dieOpenBead, arriving_whole act whole]
  simp [kind, good, dst, src, opened, epoch, Nat.not_lt.mpr fits, ccAdd, Die.setReg]

theorem dieOpenBead_fills {e : Nat} (kind : (beadOf h).kind = 3) (good : beadBad h = false) (dst : (beadOf h).dstDie ≠ 127)
    (src : ccFind d (beadOf h).srcPkg (beadOf h).srcDie (beadOf h).srcRod = some e)
    (other : ccState d e ≠ 0 ∨ ccEpoch d e ≠ (beadOf h).epoch) :
    dieOpenBead h d = creditGo (deliverBead (beadOf h) (ccFill (beadOf h) e d)) := by
  rw [dieOpenBead, arriving_whole act whole]
  simp [kind, good, dst, src, not_and_or.mpr other]

theorem dieCloseBead_malformed (kind : (beadOf h).kind = 4) (bad : beadBad h = true) :
    dieCloseBead h d = nakBead (beadOf h) .malformed d := by
  rw [dieCloseBead, arriving_whole act whole]
  simp [kind, bad]

theorem dieCloseBead_closes {e : Nat} (kind : (beadOf h).kind = 4) (good : beadBad h = false)
    (dst : (beadOf h).dstDie ≠ 127) (src : ccFind d (beadOf h).srcPkg (beadOf h).srcDie (beadOf h).srcRod = some e)
    (epoch : ccEpoch d e = (beadOf h).epoch) : dieCloseBead h d = deliverBead (beadOf h) (ccClose e d) := by
  rw [dieCloseBead, arriving_whole act whole]
  simp [kind, good, dst, src, epoch]

theorem dieCloseBead_unmatched {e : Nat} (kind : (beadOf h).kind = 4) (good : beadBad h = false)
    (dst : (beadOf h).dstDie ≠ 127)
    (src : ccFind d (beadOf h).srcPkg (beadOf h).srcDie (beadOf h).srcRod = none ∨
      (ccFind d (beadOf h).srcPkg (beadOf h).srcDie (beadOf h).srcRod = some e ∧ ccEpoch d e ≠ (beadOf h).epoch)) :
    dieCloseBead h d = deliverBead (beadOf h) d := by
  rw [dieCloseBead, arriving_whole act whole]
  rcases src with absent | ⟨found, epoch⟩
  · simp [kind, good, dst, absent]
  · simp [kind, good, dst, found, epoch]

theorem dieCredit_returns {e : Nat} (kind : (beadOf h).kind = 5) (sub : (beadOf h).csub = 1) (good : beadBad h = false)
    (src : ccFind d (beadOf h).srcPkg (beadOf h).srcDie (beadOf h).srcRod = some e)
    (opened : ccState d e = 0) (epoch : ccEpoch d e = (beadOf h).epoch) :
    dieCredit h d = ccReturn e (beadOf h).credit d := by
  rw [dieCredit, arriving_whole act whole]
  simp [kind, sub, good, src, opened, epoch]

theorem dieCredit_late {e : Nat} (kind : (beadOf h).kind = 5) (sub : (beadOf h).csub = 1)
    (late : beadBad h = true ∨ ccFind d (beadOf h).srcPkg (beadOf h).srcDie (beadOf h).srcRod = none ∨
      (ccFind d (beadOf h).srcPkg (beadOf h).srcDie (beadOf h).srcRod = some e ∧
        (ccState d e ≠ 0 ∨ ccEpoch d e ≠ (beadOf h).epoch))) :
    dieCredit h d = lateAnswer d := by
  rw [dieCredit, arriving_whole act whole]
  rcases late with bad | absent | ⟨found, other⟩
  · simp [kind, sub, bad]
  · simp [kind, sub, absent]
  · simp [kind, sub, found, not_and_or.mpr other]

theorem dieDelivered_malformed (kind : (beadOf h).kind = 5) (sub : (beadOf h).csub = 0) (bad : beadBad h = true) :
    dieDelivered h d = nakBead (beadOf h) .malformed d := by
  rw [dieDelivered, arriving_whole act whole]
  simp [kind, sub, bad]

theorem dieDelivered_late (kind : (beadOf h).kind = 5) (sub : (beadOf h).csub = 0) (good : beadBad h = false)
    (unnamed : handleFor d (beadOf h) = none) : dieDelivered h d = lateAnswer d := by
  rw [dieDelivered, arriving_whole act whole]
  simp [kind, sub, good, unnamed]

theorem dieDelivered_send {hd : Handle} {e u : Nat} (kind : (beadOf h).kind = 5) (sub : (beadOf h).csub = 0)
    (good : beadBad h = false) (named : handleFor d (beadOf h) = some hd) (send : hd.kind = .send e u) :
    dieDelivered h d =
      handleFreed (finishOp hd.op (goodSend d hd.op) (dropHandle (beadOf h).handle d)) := by
  rw [dieDelivered, arriving_whole act whole]
  simp [kind, sub, good, named, send, goodSend_dropHandle]

theorem dieNak_send {hd : Handle} {e u : Nat} {st : Status} (kind : (beadOf h).kind = 2) (good : beadBad h = false)
    (status : statusOf (beadOf h).status = some st) (named : handleFor d (beadOf h) = some hd)
    (send : hd.kind = .send e u) :
    dieNak h d = handleFreed (finishOp hd.op st (nakEntry e u hd st (dropHandle (beadOf h).handle d))) := by
  rw [dieNak, arriving_whole act whole]
  simp [kind, good, status, named, send]

end

/-! ## Fields of a register -/

theorem bitsOf_putBits (x hi lo v : Nat) : bitsOf (putBits x hi lo v) hi lo = v % 2 ^ (hi + 1 - lo) := by
  unfold putBits bitsOf
  rw [Nat.shiftRight_eq_div_pow, Nat.shiftRight_eq_div_pow, Nat.shiftLeft_eq, Nat.shiftLeft_eq]
  generalize 2 ^ (hi + 1 - lo) = w
  have pos : 0 < 2 ^ lo := Nat.two_pow_pos lo
  generalize 2 ^ lo = l at pos
  have split : x = w * (x / l / w) * l + x / l % w * l + x % l := by
    rw [← Nat.add_mul, Nat.div_add_mod, Nat.div_add_mod']
  have replaced : x - x / l % w * l + v % w * l = x % l + (v % w + w * (x / l / w)) * l := by
    rw [Nat.add_mul]
    omega
  rw [replaced, Nat.add_mul_div_right _ _ pos, Nat.div_eq_of_lt (Nat.mod_lt x pos), Nat.zero_add,
    Nat.add_mul_mod_self_left, Nat.mod_mod]

theorem bitsOf_mod_two_pow {hi n : Nat} (x lo : Nat) (h : hi < n) : bitsOf (x % 2 ^ n) hi lo = bitsOf x hi lo := by
  refine Nat.eq_of_testBit_eq fun i => ?_
  simp only [bitsOf, Nat.testBit_mod_two_pow, Nat.testBit_shiftRight]
  by_cases inField : i < hi + 1 - lo
  · simp [inField, show lo + i < n by omega]
  · simp [inField]

/-- A field of a 32-bit register reads as stored. -/
theorem Die.get_put_same (d : Die) (f : Fld) (v : Nat) (h : f.hi < 32) :
    (d.put f v).get f = v % 2 ^ (f.hi + 1 - f.lo) := by
  rw [Die.get, Die.put, Die.reg_setReg, if_pos rfl, bitsOf_mod_two_pow _ _ h, bitsOf_putBits]

/-! ## A change of the credit cache that moves held SENDs on (R207, R208) -/

/-- The register lies in the credit cache (R223). -/
def InCreditCache (o : Nat) : Prop := 0x52000 ≤ o ∧ o < 0x56000

theorem inCreditCache_ccBase {e k : Nat} (entry : e < 512) (word : k < 32) : InCreditCache (ccBase e + k) := by
  unfold InCreditCache ccBase
  omega

section
variable {o : Nat} (cc : InCreditCache o)
include cc

theorem ne_blockedReg (t : ThreadId) : o ≠ blockedReg t.toNat ∧ o ≠ blockedReg t.toNat - 4 := by
  obtain ⟨_, below⟩ := cc
  unfold blockedReg
  omega

theorem reg_unblock (t : ThreadId) (d : Die) : (unblock t.toNat d).reg o = d.reg o := by
  obtain ⟨ne, ne'⟩ := ne_blockedReg cc t
  rw [unblock, Die.reg_setReg, if_neg ne, Die.reg_setReg, if_neg ne']

theorem reg_block (t : ThreadId) (e : Nat) (d : Die) : (block t.toNat e d).reg o = d.reg o := by
  obtain ⟨ne, ne'⟩ := ne_blockedReg cc t
  simp only [block, Die.reg_setReg, if_neg ne, if_neg ne']

theorem reg_issued (t : ThreadId) (d : Die) : (issued d t).reg o = d.reg o := by
  obtain ⟨above, _⟩ := cc
  exact issued_reg d t o (by omega) (by omega)

theorem reg_threadFault (t : ThreadId) (st : Status) (opcode : Nat) (d : Die) :
    (threadFault t st opcode d).reg o = d.reg o := by
  have ne : o ≠ 0x30004 ∧ o ≠ 0x30008 := by
    obtain ⟨above, _⟩ := cc
    omega
  unfold threadFault
  rw [Die.reg_event, Die.reg_setFlag_ne _ _ _ _ ne.1]
  split
  · exact reg_unblock cc t d
  · rw [Die.reg_setReg, if_neg ne.2]
    exact reg_unblock cc t d

theorem reg_notOk (t : ThreadId) (opcode : Nat) (hoe : Bool) (st : Status) (d : Die) :
    (notOk d t opcode hoe st).reg o = d.reg o := by
  cases hoe with
  | false => rfl
  | true => exact reg_threadFault cc t st opcode _

theorem reg_endSend (t : ThreadId) (w : OpWord) (st : Status) (d : Die) : (endSend t w st d).reg o = d.reg o :=
  calc (endSend t w st d).reg o
    _ = (issued (unblock t.toNat d) t).reg o := reg_notOk cc ..
    _ = (unblock t.toNat d).reg o := reg_issued cc ..
    _ = d.reg o := reg_unblock cc ..

theorem reg_stallCredit (t : ThreadId) (e : Nat) (w : OpWord) (d : Die) : (stallCredit t e w d).reg o = d.reg o := by
  unfold stallCredit
  dsimp only
  split
  · rfl
  · exact reg_block cc t e _

theorem reg_creditWait (t : ThreadId) (e : Nat) (w : OpWord) (d : Die) : (creditWait t e w d).reg o = d.reg o := by
  unfold creditWait
  split
  · exact reg_endSend cc ..
  · split
    · exact reg_endSend cc ..
    · split
      · exact reg_unblock cc ..
      · rfl

theorem reg_creditThread (d : Die) (t : ThreadId) : (creditThread d t).reg o = d.reg o := by
  unfold creditThread
  dsimp only
  split
  · split
    · rfl
    · split
      · exact reg_creditWait cc ..
      · split
        · split
          · split
            · exact (reg_creditWait cc ..).trans (reg_stallCredit cc ..)
            · rfl
          · rfl
        · rfl
  · rfl

/-- Held SENDs that move on leave the credit cache as it is. -/
theorem reg_creditGo (d : Die) : (creditGo d).reg o = d.reg o :=
  List.foldlRecOn (motive := fun d' : Die => d'.reg o = d.reg o) d.threads _ rfl
    fun _ kept e _ => (reg_creditThread cc _ (BitVec.ofNat 11 e.1)).trans kept

end

/-- What a close leaves in the credit cache: `AVAIL` and `GRANT` of its entry are 0, and no word but the three that it
writes changes. -/
theorem reg_ccClose {e i k : Nat} (d : Die) (entry : i < 512) (word : k < 32) :
    (ccClose e d).reg (ccBase i + k) =
      if ccBase i + k = ccBase e + 12 ∨ ccBase i + k = ccBase e + 8 then 0
      else (d.put ⟨ccBase e + 4, 17, 16⟩ 1).reg (ccBase i + k) := by
  rw [ccClose, reg_creditGo (inCreditCache_ccBase entry word), Die.reg_setReg, Die.reg_setReg]
  by_cases grant : ccBase i + k = ccBase e + 12
  · simp [grant]
  · by_cases avail : ccBase i + k = ccBase e + 8
    · simp [avail]
    · simp [grant, avail]

/-- A return of units writes `AVAIL` of its entry alone. -/
theorem reg_ccReturn {e i k : Nat} (units : Nat) (d : Die) (entry : i < 512) (word : k < 32) :
    (ccReturn e units d).reg (ccBase i + k) =
      if ccBase i + k = ccBase e + 8 then min (ccGrant d e) (ccAvail d e + units) else d.reg (ccBase i + k) := by
  have fits : min (ccGrant d e) (ccAvail d e + units) < 2 ^ 32 :=
    (Nat.min_le_left ..).trans_lt (Die.reg_lt d (ccBase e + 12))
  rw [ccReturn, reg_creditGo (inCreditCache_ccBase entry word), Die.reg_setReg, Nat.mod_eq_of_lt fits]

theorem ccState_ccClose_same (d : Die) {e : Nat} (entry : e < 512) : ccState (ccClose e d) e = 1 := by
  have kept : (ccClose e d).reg (ccBase e + 4) = (d.put ⟨ccBase e + 4, 17, 16⟩ 1).reg (ccBase e + 4) := by
    rw [reg_ccClose d entry (by omega), if_neg (by omega)]
  calc ccState (ccClose e d) e
    _ = (d.put ⟨ccBase e + 4, 17, 16⟩ 1).get ⟨ccBase e + 4, 17, 16⟩ := congrArg (bitsOf · 17 16) kept
    _ = 1 := Die.get_put_same _ _ _ (show 17 < 32 by decide)

theorem ccState_ccClose_ne (d : Die) {e i : Nat} (entry : i < 512) (ne : i ≠ e) :
    ccState (ccClose e d) i = ccState d i := by
  have apart : ccBase i + 4 ≠ ccBase e + 4 ∧ ccBase i + 4 ≠ ccBase e + 8 ∧ ccBase i + 4 ≠ ccBase e + 12 := by
    unfold ccBase
    omega
  obtain ⟨ne4, ne8, ne12⟩ := apart
  refine congrArg (bitsOf · 17 16) ?_
  rw [reg_ccClose d entry (by omega), if_neg (not_or.mpr ⟨ne12, ne8⟩), Die.reg_put_ne _ _ _ _ ne4]

theorem ccAvail_ccClose_same (d : Die) {e : Nat} (entry : e < 512) : ccAvail (ccClose e d) e = 0 := by
  rw [ccAvail, reg_ccClose d entry (by omega), if_pos (.inr rfl)]

theorem ccGrant_ccClose_same (d : Die) {e : Nat} (entry : e < 512) : ccGrant (ccClose e d) e = 0 := by
  rw [ccGrant, reg_ccClose d entry (by omega), if_pos (.inl rfl)]

theorem ccAvail_ccReturn_same (units : Nat) (d : Die) {e : Nat} (entry : e < 512) :
    ccAvail (ccReturn e units d) e = min (ccGrant d e) (ccAvail d e + units) := by
  rw [ccAvail, reg_ccReturn units d entry (by omega), if_pos rfl]

theorem ccAvail_ccReturn_ne (units : Nat) (d : Die) {e i : Nat} (entry : i < 512) (ne : i ≠ e) :
    ccAvail (ccReturn e units d) i = ccAvail d i := by
  rw [ccAvail, reg_ccReturn units d entry (by omega), if_neg (by unfold ccBase; omega), ccAvail]

theorem ccGrant_ccReturn (units : Nat) (d : Die) {e i : Nat} (entry : i < 512) :
    ccGrant (ccReturn e units d) i = ccGrant d i := by
  rw [ccGrant, reg_ccReturn units d entry (by omega), if_neg (by unfold ccBase; omega), ccGrant]

/-- Settles O20: the front of the inbox is taken (`onDie_front`, `atActive_front`), the bead's case at the die gives its
effect, and the registers of the credit cache are read after `creditGo`, which leaves them. -/
theorem creditBeadsComplete : Obligations.CreditBeadsComplete := by
  unfold Obligations.CreditBeadsComplete
  constructor
  · intro p h rest e s b src took act front whole
    have run {ok : Bool} {f g : Die → Die} (acts : ok = true)
        (eff : ∀ n, f ((s.die p).taken n rest) = g { s.die p with patrol := n }) :
        Host.Outcome.next (φ := Fault) (ρ := Refusal) (s.onDie p (fromInbox ok (.bead h []) f)) = .next (s.ran p g) :=
      congrArg _ (onDie_front act front acts eff)
    refine ⟨fun good => ⟨?_, ?_, ?_, ?_, ?_, ?_, ?_, ?_⟩, ?_, fun bad => ⟨?_, ?_, ?_⟩⟩
    · intro kind dst found opened epoch fits
      exact run (decide_eq_true kind) fun n =>
        dieOpenBead_adds (d := (s.die p).taken n rest) act whole kind good dst found opened epoch fits
    · intro kind dst found other
      exact run (decide_eq_true kind) fun n =>
        dieOpenBead_fills (d := (s.die p).taken n rest) act whole kind good dst found other
    · intro kind dst found epoch
      exact run (decide_eq_true kind) fun n =>
        dieCloseBead_closes (d := (s.die p).taken n rest) act whole kind good dst found epoch
    · intro kind dst unmatched
      exact run (decide_eq_true kind) fun n =>
        dieCloseBead_unmatched (d := (s.die p).taken n rest) act whole kind good dst unmatched
    · intro kind sub found opened epoch
      exact run (isControl_true kind sub) fun n =>
        dieCredit_returns (d := (s.die p).taken n rest) act whole kind sub good found opened epoch
    · intro hd u kind sub named send
      exact run (isControl_true kind sub) fun n =>
        dieDelivered_send (d := (s.die p).taken n rest) act whole kind sub good named send
    · intro hd u st kind status named send
      exact congrArg Host.Outcome.next (atActive_front act front (decide_eq_true kind) fun n =>
        dieNak_send (d := (s.die p).taken n rest) act whole kind good status named send)
    · intro kind sub unnamed
      exact run (isControl_true kind sub) fun n =>
        dieDelivered_late (d := (s.die p).taken n rest) act whole kind sub good unnamed
    · intro kind sub late
      exact run (isControl_true kind sub) fun n =>
        dieCredit_late (d := (s.die p).taken n rest) act whole kind sub late
    · intro kind
      exact run (decide_eq_true kind) fun n =>
        dieOpenBead_malformed (d := (s.die p).taken n rest) act whole kind bad
    · intro kind
      exact run (decide_eq_true kind) fun n =>
        dieCloseBead_malformed (d := (s.die p).taken n rest) act whole kind bad
    · intro kind sub
      exact run (isControl_true kind sub) fun n =>
        dieDelivered_malformed (d := (s.die p).taken n rest) act whole kind sub bad
  · intro d e units entry
    exact ⟨ccState_ccClose_same d entry, ccAvail_ccClose_same d entry, ccGrant_ccClose_same d entry,
      ccAvail_ccReturn_same units d entry, ccGrant_ccReturn units d entry,
      fun _ other ne => ⟨ccAvail_ccReturn_ne units d other ne, ccState_ccClose_ne d other ne⟩⟩

end Sys2Proof.Machine
end

section
/-! PROOFS. The version registry: a field reads as before after a write of another, and what a new reference and the
retirement of slots leave in the registers of a stage (R233). -/

namespace Sys2Proof.Machine

/-! ## Two fields of one register -/

/-- A write of bits [hi:lo] keeps what lies below them and what lies above. -/
theorem putBits_eq (x hi lo v : Nat) :
    putBits x hi lo v =
      2 ^ lo * (2 ^ (hi + 1 - lo) * (x / 2 ^ lo / 2 ^ (hi + 1 - lo)) + v % 2 ^ (hi + 1 - lo)) + x % 2 ^ lo := by
  unfold putBits bitsOf
  rw [Nat.shiftRight_eq_div_pow, Nat.shiftLeft_eq, Nat.shiftLeft_eq]
  generalize 2 ^ (hi + 1 - lo) = w
  generalize 2 ^ lo = l
  have split : x = l * (w * (x / l / w)) + x / l % w * l + x % l := by
    rw [Nat.mul_comm (x / l % w), ← Nat.mul_add, Nat.div_add_mod, Nat.div_add_mod]
  rw [Nat.mul_add, Nat.mul_comm (v % w)]
  omega

theorem testBit_putBits (x v i : Nat) {hi lo : Nat} (order : lo ≤ hi) :
    (putBits x hi lo v).testBit i = if lo ≤ i ∧ i ≤ hi then v.testBit (i - lo) else x.testBit i := by
  rw [putBits_eq, Nat.testBit_two_pow_mul_add _ (Nat.mod_lt _ (Nat.two_pow_pos lo)),
    Nat.testBit_two_pow_mul_add _ (Nat.mod_lt _ (Nat.two_pow_pos _))]
  by_cases below : i < lo
  · simp [below]
  · by_cases inside : i ≤ hi
    · simp [below, inside, show i - lo < hi + 1 - lo by omega, Nat.le_of_not_lt below]
    · have above : ¬ i - lo < hi + 1 - lo := by omega
      have place : lo + (hi + 1 - lo + (i - lo - (hi + 1 - lo))) = i := by omega
      simp [below, inside, above, Nat.testBit_div_two_pow, Nat.add_comm, place]

theorem bitsOf_putBits_apart (x v : Nat) {hi lo hi' lo' : Nat} (order : lo ≤ hi) (apart : hi' < lo ∨ hi < lo') :
    bitsOf (putBits x hi lo v) hi' lo' = bitsOf x hi' lo' := by
  refine Nat.eq_of_testBit_eq fun i => ?_
  simp only [bitsOf, Nat.testBit_mod_two_pow, Nat.testBit_shiftRight, testBit_putBits _ _ _ order]
  by_cases inField : i < hi' + 1 - lo'
  · rw [if_neg (by omega)]
  · simp [inField]

/-- A field that stands in another register, or in other bits, reads as before. -/
theorem Die.get_put_apart (d : Die) (v : Nat) {f g : Fld} (order : f.lo ≤ f.hi) (word : g.hi < 32)
    (apart : g.off ≠ f.off ∨ g.hi < f.lo ∨ f.hi < g.lo) : (d.put f v).get g = d.get g := by
  rw [Die.get, Die.get]
  by_cases off : g.off = f.off
  · have bits : g.hi < f.lo ∨ f.hi < g.lo := apart.resolve_left (not_not_intro off)
    rw [Die.put, Die.reg_setReg, if_pos off, bitsOf_mod_two_pow _ _ word, bitsOf_putBits_apart _ _ order bits, off]
  · rw [Die.reg_put_ne d f v g.off off]

/-- A flag is its one-bit field. -/
theorem Die.flag_eq_get (d : Die) (o i : Nat) : d.flag o i = (d.get ⟨o, i, i⟩ == 1) := rfl

/-- A field of a register fits its width. -/
theorem Die.get_lt (d : Die) (f : Fld) : d.get f < 2 ^ (f.hi + 1 - f.lo) := Nat.mod_lt _ (Nat.two_pow_pos _)

/-- `USED_VALID` is read from its bit alone. -/
theorem verUsedValid_congr {t : Nat} {d d' : Die}
    (bit : d'.get ⟨verBase t + 0x10, 8, 8⟩ = d.get ⟨verBase t + 0x10, 8, 8⟩) : verUsedValid d' t = verUsedValid d t :=
  congrArg (· == 1) bit

/-! ## The retirement of slots (R233) -/

/-- The field is of a 32-bit register and no bit of it is of a slot's `STATE` at the stage. -/
def OutsideStates (t : Nat) (g : Fld) : Prop := g.hi < 32 ∧ ∀ s, g.off ≠ slotReg t s ∨ 2 < g.lo

theorem slotReg_inj {t j k : Nat} : slotReg t j = slotReg t k ↔ j = k := by
  unfold slotReg
  omega

theorem outsideStates_number (t k : Nat) : OutsideStates t ⟨slotReg t k, 15, 8⟩ := by
  simp [OutsideStates]

theorem outsideStates_refs (t k : Nat) : OutsideStates t ⟨slotReg t k, 31, 16⟩ := by
  simp [OutsideStates]

theorem outsideStates_pins (t k : Nat) : OutsideStates t ⟨slotReg t k + 4, 3, 0⟩ := by
  refine ⟨by simp, fun s => .inl ?_⟩
  simp only [slotReg]
  omega

/-- No slot's register is `VER_STAGEt_STATUS` (R245). -/
theorem status_ne_slotReg (t s : Nat) : verBase t + 0x10 ≠ slotReg t s := by
  unfold slotReg
  omega

theorem outsideStates_status (t lo : Nat) {hi : Nat} (word : hi < 32) :
    OutsideStates t ⟨verBase t + 0x10, hi, lo⟩ := ⟨word, fun s => .inl (status_ne_slotReg t s)⟩

theorem get_setSlotState {t : Nat} {g : Fld} (out : OutsideStates t g) (s v : Nat) (d : Die) :
    (setSlotState t s v d).get g = d.get g := by
  obtain ⟨word, apart⟩ := out
  exact Die.get_put_apart d v (Nat.zero_le _) word ((apart s).imp_right .inr)

theorem slotState_setSlotState (t s k : Nat) (d : Die) :
    slotState (setSlotState t s 0 d) t k = if k = s then 0 else slotState d t k := by
  by_cases same : k = s
  · subst same
    rw [if_pos rfl]
    exact Die.get_put_same d _ 0 (show 2 < 32 by decide)
  · rw [if_neg same]
    exact Die.get_put_apart d 0 (Nat.zero_le _) (show 2 < 32 by decide) (.inl (mt slotReg_inj.mp same))

/-- The slot meets the three conditions of R233: it is LIVE, nothing holds it, and a newer version is in use. -/
abbrev Retires (d : Die) (t k : Nat) : Prop :=
  slotState d t k = 4 ∧ slotRefs d t k = 0 ∧ slotPins d t k = 0 ∧ verUsedValid d t = true ∧
    verAhead (verNewest d t) (slotNumber d t k) = true

/-- The retirement of slot `s`, if it is to retire: one turn of `verRetire`. -/
def retireSlot (t : Nat) (d : Die) (s : Nat) : Die := if Retires d t s then setSlotState t s 0 d else d

theorem verRetire_eq (t : Nat) (d : Die) : verRetire t d = (List.range 8).foldl (retireSlot t) d := rfl

theorem get_retireSlot {t : Nat} {g : Fld} (out : OutsideStates t g) (d : Die) (s : Nat) :
    (retireSlot t d s).get g = d.get g := by
  unfold retireSlot
  split
  · exact get_setSlotState out s 0 d
  · rfl

/-- Retirement writes nothing but the `STATE` of slots. -/
theorem get_verRetire {t : Nat} {g : Fld} (out : OutsideStates t g) (d : Die) : (verRetire t d).get g = d.get g :=
  List.foldlRecOn (motive := fun d' : Die => d'.get g = d.get g) (List.range 8) _ rfl
    fun d' kept s _ => (get_retireSlot out d' s).trans kept

theorem slotState_retireSlot (t k s : Nat) (d : Die) :
    slotState (retireSlot t d s) t k = if k = s ∧ Retires d t k then 0 else slotState d t k := by
  unfold retireSlot
  by_cases same : k = s
  · subst same
    by_cases goes : Retires d t k
    · rw [if_pos goes, if_pos ⟨rfl, goes⟩, slotState_setSlotState, if_pos rfl]
    · rw [if_neg goes, if_neg fun h => goes h.2]
  · simp only [same, false_and, if_false]
    split
    · rw [slotState_setSlotState, if_neg same]
    · rfl

/-- Whether a slot is to retire does not depend on the turns of the others: none of its conditions does, but its own
state. -/
theorem retires_retireSlot {t k s : Nat} (d : Die) :
    Retires (retireSlot t d s) t k ↔ k ≠ s ∧ Retires d t k := by
  have refs : slotRefs (retireSlot t d s) t k = slotRefs d t k := get_retireSlot (outsideStates_refs t k) d s
  have pins : slotPins (retireSlot t d s) t k = slotPins d t k := get_retireSlot (outsideStates_pins t k) d s
  have number : slotNumber (retireSlot t d s) t k = slotNumber d t k := get_retireSlot (outsideStates_number t k) d s
  have newest : verNewest (retireSlot t d s) t = verNewest d t :=
    get_retireSlot (outsideStates_status t 0 (by decide)) d s
  have valid : verUsedValid (retireSlot t d s) t = verUsedValid d t :=
    verUsedValid_congr (get_retireSlot (outsideStates_status t 8 (by decide)) d s)
  rw [Retires, refs, pins, number, newest, valid, slotState_retireSlot]
  by_cases goes : Retires d t k
  · by_cases same : k = s
    · simp [same, same ▸ goes]
    · simp [same]
  · simp only [goes, and_false, if_false]

/-- After the turns of some slots, those of them that were to retire are FREE, and no other state has changed. -/
theorem slotState_foldl_retireSlot (t k : Nat) (ss : List Nat) (d : Die) :
    slotState (ss.foldl (retireSlot t) d) t k = if k ∈ ss ∧ Retires d t k then 0 else slotState d t k := by
  induction ss generalizing d with
  | nil => simp
  | cons s ss ih =>
    simp only [List.foldl_cons, ih, slotState_retireSlot, retires_retireSlot, List.mem_cons]
    by_cases same : k = s
    · simp [same]
    · simp [same]

theorem slotState_verRetire (t : Nat) {k : Nat} (slot : k < 8) (d : Die) :
    slotState (verRetire t d) t k = if Retires d t k then 0 else slotState d t k := by
  rw [verRetire_eq, slotState_foldl_retireSlot]
  simp only [List.mem_range.mpr slot, true_and]

/-! ## A new reference (R233) -/

/-- The die once number `n` has been resolved with a new reference: `NEWEST_USED` and `USED_VALID`. -/
def noteUsed (t n : Nat) (d : Die) : Die :=
  if !verUsedValid d t || verAhead n (verNewest d t) then
    (d.put ⟨verBase t + 0x10, 7, 0⟩ n).setFlag (verBase t + 0x10) 8
  else d

theorem get_noteUsed_ne {t : Nat} {g : Fld} (word : g.hi < 32) (off : g.off ≠ verBase t + 0x10) (n : Nat) (d : Die) :
    (noteUsed t n d).get g = d.get g := by
  unfold noteUsed
  split
  · rw [Die.setFlag, Die.get_put_apart _ 1 (Nat.le_refl _) word (.inl off),
      Die.get_put_apart d n (Nat.zero_le _) word (.inl off)]
  · rfl

theorem verUsedValid_noteUsed (t n : Nat) (d : Die) : verUsedValid (noteUsed t n d) t = true := by
  unfold noteUsed
  split
  next =>
    rw [verUsedValid, Die.flag_eq_get, Die.setFlag, Die.get_put_same _ _ _ (show 8 < 32 by decide)]
    rfl
  next old =>
    simp only [Bool.or_eq_true, Bool.not_eq_true', not_or, Bool.not_eq_false] at old
    exact old.1

theorem verNewest_noteUsed (t : Nat) {n : Nat} (number : n < 256) (d : Die) :
    verNewest (noteUsed t n d) t =
      if verUsedValid d t = false ∨ verAhead n (verNewest d t) = true then n else verNewest d t := by
  unfold noteUsed
  simp only [Bool.or_eq_true, Bool.not_eq_true']
  split
  · rw [verNewest, Die.setFlag,
      Die.get_put_apart _ 1 (Nat.le_refl _) (show 7 < 32 by decide) (.inr (.inl (show 7 < 8 by decide))),
      Die.get_put_same d _ n (show 7 < 32 by decide)]
    exact Nat.mod_eq_of_lt number
  · rfl

/-- The die with the new reference counted and its number noted. -/
def counted (t k : Nat) (d : Die) : Die :=
  noteUsed t (slotNumber d t k) (setSlotRefs t k (slotRefs d t k + 1) d)

/-- A new reference below the largest count is counted; the op ends OK; then slots may retire. -/
theorem verTake_eq {t k : Nat} {d : Die} (room : slotRefs d t k ≠ 65535) (o : LongOp) :
    verTake t k o d =
      verRetire t (verDone o.id .ok (some (verSd o.x, verWord (counted t k d) t k)) (counted t k d)) := by
  rw [verTake, if_neg room]
  rfl

theorem get_verTake {t k : Nat} {d : Die} (room : slotRefs d t k ≠ 65535) (o : LongOp) {g : Fld}
    (out : OutsideStates t g) : (verTake t k o d).get g = (counted t k d).get g := by
  rw [verTake_eq room, get_verRetire out]
  rfl

theorem slotRefs_counted {t k : Nat} {d : Die} (room : slotRefs d t k < 65535) :
    slotRefs (counted t k d) t k = slotRefs d t k + 1 := by
  calc slotRefs (counted t k d) t k
    _ = slotRefs (setSlotRefs t k (slotRefs d t k + 1) d) t k :=
      get_noteUsed_ne (show 31 < 32 by decide) (status_ne_slotReg t k).symm _ _
    _ = (slotRefs d t k + 1) % 2 ^ 16 := Die.get_put_same d _ _ (show 31 < 32 by decide)
    _ = slotRefs d t k + 1 := Nat.mod_eq_of_lt (by omega)

/-- A slot's count leaves `VER_STAGEt_STATUS`. -/
theorem get_setSlotRefs_status (t k v lo : Nat) {hi : Nat} (word : hi < 32) (d : Die) :
    (setSlotRefs t k v d).get ⟨verBase t + 0x10, hi, lo⟩ = d.get ⟨verBase t + 0x10, hi, lo⟩ :=
  Die.get_put_apart d v (show 16 ≤ 31 by decide) word (.inl (status_ne_slotReg t k))

theorem verNewest_counted (t k : Nat) (d : Die) :
    verNewest (counted t k d) t =
      if verUsedValid d t = false ∨ verAhead (slotNumber d t k) (verNewest d t) = true then slotNumber d t k
      else verNewest d t := by
  have valid (v : Nat) : verUsedValid (setSlotRefs t k v d) t = verUsedValid d t :=
    verUsedValid_congr (get_setSlotRefs_status t k v 8 (by decide) d)
  have newest (v : Nat) : verNewest (setSlotRefs t k v d) t = verNewest d t :=
    get_setSlotRefs_status t k v 0 (by decide) d
  rw [counted, verNewest_noteUsed t (Die.get_lt d _), valid, newest]

/-- Settles O27: the registers after a new reference are those of `counted`, since what follows it writes only states of
slots (`get_verTake`); the slots of `verRetire` retire each by its own conditions (`slotState_verRetire`). -/
theorem versionReferenceCounts : Obligations.VersionReferenceCounts := by
  unfold Obligations.VersionReferenceCounts
  constructor
  · intro d t k o _ _ room
    have less : slotRefs d t k ≠ 65535 := Nat.ne_of_lt room
    refine ⟨?_, ?_, ?_⟩
    · exact (get_verTake less o (outsideStates_refs t k)).trans (slotRefs_counted room)
    · exact (verUsedValid_congr (get_verTake less o (outsideStates_status t 8 (by decide)))).trans
        (verUsedValid_noteUsed t _ _)
    · exact (get_verTake less o (outsideStates_status t 0 (by decide))).trans (verNewest_counted t k d)
  · intro d t k _ slot
    exact ⟨slotState_verRetire t slot d, get_verRetire (outsideStates_number t k) d,
      get_verRetire (outsideStates_refs t k) d, get_verRetire (outsideStates_pins t k) d⟩

end Sys2Proof.Machine
end

section
/-! PROOFS. The region table: what the check of an access answers by the entry that decides it, and the registers that
the record of a refusal leaves (R290). -/

namespace Sys2Proof.Machine

/-! ## The check against the entry that contains the access -/

/-- Row 2 of R290 fails: the entry is of the secure world and the requester is not. -/
abbrev OtherWorld (r : Req) (hi : Nat) : Prop := r.secure = false ∧ bitOf hi 0 = true

theorem not_otherWorld {r : Req} {hi : Nat} (world : r.secure = true ∨ bitOf hi 0 = false) : ¬ OtherWorld r hi := by
  rintro ⟨guest, secure⟩
  simp [guest, secure] at world

/-- Row 3 of R290 fails: the entry is of another job, and the requester is neither the host nor of job 0 (R289). -/
abbrev OtherJob (r : Req) (hi : Nat) : Prop :=
  r.cls ≠ .host ∧ bitOf hi 5 = false ∧ r.job ≠ 0 ∧ bitsOf hi 4 1 ≠ r.job

/-- Row 4 of R290 fails: the entry has no bit of the class or, but for accumulation, none of the direction. -/
abbrev Barred (r : Req) (hi : Nat) : Prop :=
  bitOf hi (8 + classCode r.cls) = false ∨ (r.cls ≠ .acc ∧ bitOf hi (if r.write then 7 else 6) = false)

theorem regionChk_uncontained {d : Die} {r : Req} {a len : Nat} (outside : ∀ k, k < 64 → regionHas d a len k = false) :
    regionChk d r a len = some .malformed := by
  have search : (List.range 64).find? (regionHas d a len) = none :=
    List.find?_eq_none.mpr fun k hk => by simp [outside k (List.mem_range.mp hk)]
  rw [regionChk, search]

/-- The first entry that contains the access decides it, by its word HI. -/
theorem regionChk_contained {d : Die} {a len k : Nat} (r : Req) (entry : k < 64) (has : regionHas d a len k = true)
    (first : ∀ i, i < k → regionHas d a len i = false) :
    regionChk d r a len =
      if OtherWorld r (regionHi d k) then some .worldViolation
      else if OtherJob r (regionHi d k) ∨ Barred r (regionHi d k) then some .invalidState
      else none := by
  have search : (List.range 64).find? (regionHas d a len) = some k :=
    List.find?_range_eq_some.mpr ⟨has, List.mem_range.mpr entry, fun i hi => by rw [first i hi, Bool.not_false]⟩
  rw [regionChk, search, ite_or]
  simp only [Bool.and_eq_true, Bool.or_eq_true, Bool.not_eq_true', decide_eq_true_eq, and_assoc]

/-! ## The record of a refusal -/

/-- The word of `SEC_REGION_FAULT` for a first refusal (R304). -/
def faultWord (r : Req) (st : Status) : Nat := st.code + classCode r.cls <<< 8 + 1 <<< 31

theorem Status.code_lt (st : Status) : st.code < 16 := by cases st <;> decide

theorem classCode_lt (c : AccClass) : classCode c < 6 := by cases c <;> decide

/-- The fields of `SEC_REGION_FAULT`: the status in [7:0], the class in [11:8], `VALID` in [31]. -/
theorem bitsOf_faultWord (r : Req) (st : Status) :
    bitsOf (faultWord r st) 7 0 = st.code ∧ bitsOf (faultWord r st) 11 8 = classCode r.cls ∧
      bitOf (faultWord r st) 31 = true ∧ faultWord r st < 2 ^ 32 := by
  have code := st.code_lt
  have cls := classCode_lt r.cls
  simp only [bitOf, bitsOf, faultWord, Nat.shiftRight_eq_div_pow, Nat.shiftLeft_eq, beq_iff_eq]
  omega

/-- The first refusal since the record was cleared is recorded with its 32-byte half. -/
def recordFirst (r : Req) (a : Nat) (st : Status) (d : Die) : Die :=
  if d.flag 0xC1200 31 then d else (d.setReg 0xC1200 (faultWord r st)).setReg 0xC1204 (a / 32)

theorem regionRefused_eq (r : Req) (a : Nat) (st : Status) (d : Die) :
    regionRefused r a st d =
      let d := (recordFirst r a st d).count 0xC1208 1
      if st = .worldViolation then d.count 0xC0004 1 else d := rfl

theorem Die.reg_count_self (d : Die) (o n : Nat) : (d.count o n).reg o = min (2 ^ 32 - 1) (d.reg o + n) := by
  rw [Die.count, Die.reg_setReg, if_pos rfl, satAdd, min_comm]
  exact Nat.mod_eq_of_lt (by omega)

theorem Die.reg_count_ne (d : Die) {o k : Nat} (n : Nat) (ne : k ≠ o) : (d.count o n).reg k = d.reg k := by
  rw [Die.count, Die.reg_setReg, if_neg ne]

/-- Past the record and the count of refusals, a refusal writes no register but the count of world violations (R391). -/
theorem reg_regionRefused (r : Req) (a : Nat) (st : Status) (d : Die) {k : Nat} (ne : k ≠ 0xC0004) :
    (regionRefused r a st d).reg k = ((recordFirst r a st d).count 0xC1208 1).reg k := by
  rw [regionRefused_eq]
  dsimp only
  split
  · exact Die.reg_count_ne _ 1 ne
  · rfl

theorem reg_recordFirst_ne (r : Req) (a : Nat) (st : Status) (d : Die) {k : Nat} (fault : k ≠ 0xC1200)
    (addr : k ≠ 0xC1204) : (recordFirst r a st d).reg k = d.reg k := by
  rw [recordFirst]
  split
  · rfl
  · rw [Die.reg_setReg, if_neg addr, Die.reg_setReg, if_neg fault]

theorem regionRefused_refusals (r : Req) (a : Nat) (st : Status) (d : Die) :
    (regionRefused r a st d).reg 0xC1208 = min (2 ^ 32 - 1) (d.reg 0xC1208 + 1) := by
  rw [reg_regionRefused r a st d (by decide), Die.reg_count_self, reg_recordFirst_ne r a st d (by decide) (by decide)]

section
variable (r : Req) (a : Nat) (st : Status) {d : Die} {k : Nat}

/-- Neither count lies in the record of the first refusal. -/
theorem reg_regionRefused_record (d : Die) (record : k = 0xC1200 ∨ k = 0xC1204) :
    (regionRefused r a st d).reg k = (recordFirst r a st d).reg k := by
  rw [reg_regionRefused r a st d (by omega), Die.reg_count_ne _ 1 (by omega)]

theorem regionRefused_later (held : d.flag 0xC1200 31 = true) (record : k = 0xC1200 ∨ k = 0xC1204) :
    (regionRefused r a st d).reg k = d.reg k := by
  rw [reg_regionRefused_record r a st d record, recordFirst, if_pos held]

theorem regionRefused_first_fault (free : d.flag 0xC1200 31 = false) :
    (regionRefused r a st d).reg 0xC1200 = faultWord r st := by
  obtain ⟨-, -, -, word⟩ := bitsOf_faultWord r st
  rw [reg_regionRefused_record r a st d (.inl rfl), recordFirst, free, if_neg Bool.false_ne_true, Die.reg_setReg,
    if_neg (by decide), Die.reg_setReg, if_pos rfl, Nat.mod_eq_of_lt word]

theorem regionRefused_first_addr (free : d.flag 0xC1200 31 = false) (stored : a < 2 ^ 35) :
    (regionRefused r a st d).reg 0xC1204 = a / 32 := by
  rw [reg_regionRefused_record r a st d (.inr rfl), recordFirst, free, if_neg Bool.false_ne_true, Die.reg_setReg,
    if_pos rfl, Nat.mod_eq_of_lt (by omega)]

end

/-- Settles O37: the first entry that contains the access decides it (`regionChk_contained`); a refusal changes registers
alone (`noteRefusal_eq`), and of these the record of the first refusal and the counts (`reg_regionRefused`). -/
theorem regionCheckOrder : Obligations.RegionCheckOrder := by
  unfold Obligations.RegionCheckOrder
  constructor
  · intro d r a len
    refine ⟨regionChk_uncontained, fun k entry has first => ?_⟩
    rw [regionChk_contained r entry has first]
    refine ⟨fun guest world => if_pos ⟨guest, world⟩, fun world refused => ?_, fun world own opens => ?_⟩
    · rw [if_neg (not_otherWorld world), if_pos refused]
    · rw [if_neg (not_otherWorld world), if_neg (not_or.mpr ⟨own, opens⟩)]
  · intro d r a st stored
    obtain ⟨code, cls, valid, -⟩ := bitsOf_faultWord r st
    obtain ⟨regs, onlyRegs⟩ : ∃ rs, regionRefused r a st d = { d with regs := rs } := noteRefusal_eq r a (some st) d
    refine ⟨congrArg (·.lpddr) onlyRegs, congrArg (·.spd) onlyRegs, regionRefused_refusals r a st d,
      fun held => ⟨regionRefused_later r a st held (.inl rfl), regionRefused_later r a st held (.inr rfl)⟩,
      fun free => ?_⟩
    rw [Die.get, Die.get, Die.flag, regionRefused_first_fault r a st free, regionRefused_first_addr r a st free stored]
    exact ⟨code, cls, valid, by omega, by omega⟩

end Sys2Proof.Machine
end

section
/-! PROOFS. The part of the block that only a few commands may change, named operation by named operation: the queue of
commands, one-time storage, the paces of the comparators, and the clock. -/

namespace Sys2Proof.Machine

/-! ## The part of the state that stays -/

/-- The part of the block that only a few commands may change: the queue of commands, one-time storage (R393), the
excursion pace and the over-current pace of each row (R44), and the MGTCLK counter (R48). -/
structure Kept where
  queue : List Instr
  otp : Option (Bytes × Bytes)
  excursion : Nat
  overCurrent : Nat → Nat
  clock : BitVec 64

/-- The over-current pace of each row (R44). -/
def overCurrent (rows : Tab Row) (n : Nat) : Nat := (tabGet (fun _ => {}) rows n).oc

def State.kept (s : State) : Kept := ⟨s.pending, s.crucible.otp, s.excPace, overCurrent s.rows, s.mgtclk⟩

/-- The kept part of a state built field by field. -/
@[simp] theorem kept_mk
    (q x1 x2 x3 clk x5 x6 x7 rw ep x10 x11 x12 x13 x14 x15 x16 x17 x18 x19 x20 x21 x22 x23 cr x25 x26 x27 x28
    x29 x30 x31 x32 x33 x34 x35 x36 x37 x38 x39 x40 x41) :
    State.kept (State.mk q x1 x2 x3 clk x5 x6 x7 rw ep x10 x11 x12 x13 x14 x15 x16 x17 x18 x19 x20 x21 x22 x23 cr x25
      x26 x27 x28 x29 x30 x31 x32 x33 x34 x35 x36 x37 x38 x39 x40 x41) =
      ⟨q, cr.otp, ep, overCurrent rw, clk⟩ := rfl

@[simp] theorem kept_fold (s : State) :
    Kept.mk s.pending s.crucible.otp s.excPace (overCurrent s.rows) s.mgtclk = s.kept := rfl

@[simp] theorem kept_ite (c : Prop) [Decidable c] (a b : State) :
    (if c then a else b).kept = if c then a.kept else b.kept := apply_ite ..

@[simp] theorem kept_foldl {α : Type}
    {f : State → α → State} (h : ∀ s a, (f s a).kept = s.kept) (l : List α) (s : State) :
    (l.foldl f s).kept = s.kept := by
  induction l generalizing s with
  | nil => rfl
  | cons a l ih => exact (ih (f s a)).trans (h s a)

/-! ## The named operations over the block -/

@[simp] theorem kept_setDie (s : State) (p : Nat) (d : Die) : (s.setDie p d).kept = s.kept := by simp [State.setDie]

@[simp] theorem kept_modDie (s : State) (p : Nat) (f : Die → Die) : (s.modDie p f).kept = s.kept := by
  simp [State.modDie]

@[simp] theorem kept_modDies (s : State) (ps : List Nat) (f : Die → Die) : (s.modDies ps f).kept = s.kept := by
  simp [State.modDies]

@[simp] theorem kept_draw (s : State) : (s.draw).2.kept = s.kept := by simp [State.draw]

@[simp] theorem kept_output (s : State) (o : Output) : (s.output o).kept = s.kept := by simp [State.output]

@[simp] theorem kept_setReg (s : State) (off v : Nat) : (s.setReg off v).kept = s.kept := by simp [State.setReg]

@[simp] theorem kept_put (s : State) (f : Fld) (v : Nat) : (s.put f v).kept = s.kept := by simp [State.put]

@[simp] theorem kept_count (s : State) (off n : Nat) : (s.count off n).kept = s.kept := by simp [State.count]

@[simp] theorem kept_resetRegs (s : State) (lo hi : Nat) : (s.resetRegs lo hi).kept = s.kept := by
  simp [State.resetRegs]

@[simp] theorem kept_invalidWrite (s : State) : (s.invalidWrite).kept = s.kept := by simp [State.invalidWrite]

@[simp] theorem kept_setBoot (s : State) (v : Nat) : (s.setBoot v).kept = s.kept := by simp [State.setBoot]

@[simp] theorem kept_setDieState (s : State) (p v : Nat) : (s.setDieState p v).kept = s.kept := by
  simp [State.setDieState]

@[simp] theorem kept_setJobState (s : State) (j v : Nat) : (s.setJobState j v).kept = s.kept := by
  simp [State.setJobState]

@[simp] theorem kept_setJobCause (s : State) (j : Nat) (st : Status) : (s.setJobCause j st).kept = s.kept := by
  simp [State.setJobCause]

@[simp] theorem kept_setJob (s : State) (j : Nat) (i : JobInfo) : (s.setJob j i).kept = s.kept := by simp [State.setJob]

@[simp] theorem kept_modJob (s : State) (j : Nat) (f : JobInfo → JobInfo) : (s.modJob j f).kept = s.kept := by
  simp [State.modJob]

@[simp] theorem kept_setFn (s : State) (f : Nat) (x : Fn) : (s.setFn f x).kept = s.kept := by simp [State.setFn]

@[simp] theorem kept_modFn (s : State) (f : Nat) (g : Fn → Fn) : (s.modFn f g).kept = s.kept := by simp [State.modFn]

@[simp] theorem kept_imagePower (s : State) : (imagePower s).kept = s.kept := by simp [imagePower]

/-! ## The panel fabric -/

@[simp] theorem kept_writeRoutes (s : State) : (writeRoutes s).kept = s.kept := by simp [writeRoutes]

@[simp] theorem kept_puntySend (f : Frame) (s : State) : (puntySend f s).kept = s.kept := by
  simp only [puntySend]
  split <;> simp

@[simp] theorem kept_refuse (p : Nat) (f : Frame) (st : Status) (s : State) : (refuse p f st s).kept = s.kept := by
  simp [refuse]

@[simp] theorem kept_puntyTake (f : Frame) (s : State) : (puntyTake f s).kept = s.kept := by
  unfold puntyTake
  split <;> simp

@[simp] theorem kept_leave (p out lane : Nat) (g : Seg) (s : State) : (leave p out lane g s).kept = s.kept := by
  unfold leave
  (repeat' split) <;> simp

@[simp] theorem kept_releaseTally (p : Nat) (e : HeldTally) (s : State) : (releaseTally p e s).kept = s.kept := by
  simp [releaseTally]

@[simp] theorem kept_combine (p out lane : Nat) (egress : Option (BitVec 3)) (h : BitVec 256) (op : Option Nat)
    (s : State) :
    (combine p out lane egress h op s).kept = s.kept := by
  simp only [combine]
  split <;> simp

@[simp] theorem kept_forward (p : Nat) (g : Seg) (w : Way) (s : State) : (forward p g w s).kept = s.kept := by
  unfold forward
  (repeat' split) <;> simp

@[simp] theorem kept_takeTurn (p out lane i k : Nat) (s : State) : (takeTurn p out lane i k s).kept = s.kept := by
  simp [takeTurn]

@[simp] theorem kept_routerTurn (p out : Nat) (s : State) : (routerTurn p out s).kept = s.kept := by
  unfold routerTurn
  (repeat' split) <;> simp

@[simp] theorem kept_routerForward (p out : Nat) (f : Frame) (s : State) : (routerForward p out f s).kept = s.kept := by
  simp [routerForward]

@[simp] theorem kept_tallyCombine (p out : Nat) (egress : Option (BitVec 3)) (h : BitVec 256) (s : State) :
    (tallyCombine p out egress h s).kept = s.kept := by
  unfold tallyCombine
  split <;> simp

@[simp] theorem kept_tallyRelease (p : Nat) (dir : BitVec 3) (h : BitVec 256) (s : State) :
    (tallyRelease p dir h s).kept = s.kept := by
  unfold tallyRelease
  split <;> simp

@[simp] theorem kept_releaseTallies (p : Nat) (s : State) : (releaseTallies p s).kept = s.kept := by
  simp [releaseTallies]

/-! ## Laser bays and engines -/

@[simp] theorem kept_setBay (s : State) (k : Nat) (b : Bay) : (s.setBay k b).kept = s.kept := by simp [State.setBay]

@[simp] theorem kept_setBayBit (k i : Nat) (v : Bool) (s : State) : (setBayBit k i v s).kept = s.kept := by
  simp [setBayBit]

@[simp] theorem kept_bayEvent (k : Nat) (s : State) : (bayEvent k s).kept = s.kept := by simp [bayEvent]

@[simp] theorem kept_setBayState (k v : Nat) (s : State) : (setBayState k v s).kept = s.kept := by simp [setBayState]

@[simp] theorem kept_setBayCause (k : Nat) (st : Status) (s : State) : (setBayCause k st s).kept = s.kept := by
  simp [setBayCause]

@[simp] theorem kept_gateBay (k : Nat) (s : State) : (gateBay k s).kept = s.kept := by simp [gateBay]

@[simp] theorem kept_enableBay (k : Nat) (on : Bool) (s : State) : (enableBay k on s).kept = s.kept := by
  simp [enableBay]

@[simp] theorem kept_wantPower (k mw : Nat) (s : State) : (wantPower k mw s).kept = s.kept := by simp [wantPower]

@[simp] theorem kept_setpoint (k mw : Nat) (s : State) : (setpoint k mw s).kept = s.kept := by simp [setpoint]

@[simp] theorem kept_raiseBay (s : State) (k : Nat) : (raiseBay s k).kept = s.kept := by simp [raiseBay]

@[simp] theorem kept_raiseNeighbours (k : Nat) (s : State) : (raiseNeighbours k s).kept = s.kept := by
  simp [raiseNeighbours]

@[simp] theorem kept_lowerBay (s : State) (k : Nat) : (lowerBay s k).kept = s.kept := by simp [lowerBay]

@[simp] theorem kept_lifeFlags (k : Nat) (s : State) : (lifeFlags k s).kept = s.kept := by simp [lifeFlags]

@[simp] theorem kept_judgeBay (k : Nat) (s : State) : (judgeBay k s).kept = s.kept := by
  simp only [judgeBay]
  split <;> simp

@[simp] theorem kept_checkBay (k : Nat) (s : State) : (checkBay k s).kept = s.kept := by simp [checkBay]

@[simp] theorem kept_moduleInsert (k : Nat) (v : ModuleView) (s : State) : (moduleInsert k v s).kept = s.kept := by
  simp [moduleInsert]

@[simp] theorem kept_baysCold (s : State) : (baysCold s).kept = s.kept := by simp [baysCold]

@[simp] theorem kept_baysLinks (views : List ModuleView) (s : State) : (baysLinks views s).kept = s.kept := by
  simp [baysLinks]

@[simp] theorem kept_moduleLock (k : Nat) (s : State) : (moduleLock k s).kept = s.kept := by simp [moduleLock]

@[simp] theorem kept_writeUsage (k : Nat) (s : State) : (writeUsage k s).kept = s.kept := by simp [writeUsage]

@[simp] theorem kept_endUsage (k : Nat) (ok : Bool) (s : State) : (endUsage k ok s).kept = s.kept := by simp [endUsage]

@[simp] theorem kept_elsUsageWrite (k : Nat) (ok : Bool) (s : State) : (elsUsageWrite k ok s).kept = s.kept := by
  simp [elsUsageWrite]

@[simp] theorem kept_usageRead (k : Nat) (r : BitVec 16 × BitVec 8) (s : State) : (usageRead k r s).kept = s.kept := by
  simp [usageRead]

@[simp] theorem kept_elsUsagePoll (readings : List (BitVec 16 × BitVec 8)) (s : State) :
    (elsUsagePoll readings s).kept = s.kept :=
  kept_foldl (fun s a => by (repeat' split) <;> simp) _ _

@[simp] theorem kept_releaseBay (k : Nat) (ok : Bool) (s : State) : (releaseBay k ok s).2.kept = s.kept := by
  unfold releaseBay
  split <;> simp

@[simp] theorem kept_askRelease (k : Nat) (ok : Bool) (s : State) : (askRelease k ok s).2.kept = s.kept := by
  simp [askRelease]

@[simp] theorem kept_elsCtlWrite (mgmt : Bool) (ok : Bool) (v : Nat) (s : State) :
    (elsCtlWrite mgmt ok v s).kept = s.kept := by
  simp [elsCtlWrite]

@[simp] theorem kept_setEngine (s : State) (n : Nat) (e : Engine) : (s.setEngine n e).kept = s.kept := by
  simp [State.setEngine]

@[simp] theorem kept_engineFeeds (n : Nat) (s : State) : (engineFeeds n s).kept = s.kept := by
  simp only [engineFeeds]
  (repeat' split) <;> simp

@[simp] theorem kept_moduleLeaves (k : Nat) (s : State) : (moduleLeaves k s).kept = s.kept := by simp [moduleLeaves]

@[simp] theorem kept_moduleLoss (k : Nat) (cause : LossCause) (s : State) : (moduleLoss k cause s).kept = s.kept := by
  unfold moduleLoss
  (repeat' split) <;> simp

@[simp] theorem kept_elsAcceptModule (k vendor : Nat) (serial : Bytes) (s : State) :
    (elsAcceptModule k vendor serial s).kept = s.kept := by
  simp [elsAcceptModule]

@[simp] theorem kept_engineLightLoss (n : Nat) (s : State) : (engineLightLoss n s).kept = s.kept := by
  simp [engineLightLoss]

@[simp] theorem kept_engineProbe (n : Nat) (s : State) : (engineProbe n s).kept = s.kept := by simp [engineProbe]

@[simp] theorem kept_receivedLightReturn (n : Nat) (s : State) : (receivedLightReturn n s).kept = s.kept := by
  simp [receivedLightReturn]

/-! ## The host interface -/

@[simp] theorem kept_doorbell (f r idx : Nat) (s : State) : (doorbell f r idx s).kept = s.kept := by simp [doorbell]

@[simp] theorem kept_hostWrite (f : FnId) (addr : Nat) (bs : Bytes) (bulk : Bool) (s : State) :
    (hostWrite f addr bs bulk s).kept = s.kept := by
  simp [hostWrite]

@[simp] theorem kept_winRefused (f : Nat) (s : State) : (winRefused f s).kept = s.kept := by simp [winRefused]

@[simp] theorem kept_winChk (f off len : Nat) (secure write slot : Bool) (s : State) :
    (winChk f off len secure write slot s).2.kept = s.kept := by
  simp only [winChk]
  (repeat' split) <;> simp

@[simp] theorem kept_freeHalves (a : Nat) (bad : List Nat) (k : Nat) (bs : Bytes) (s : State) :
    (freeHalves a bad k bs s).2.kept = s.kept := by
  induction bs generalizing k s with
  | nil => rfl
  | cons b bs ih =>
    simp only [freeHalves, ih]
    split <;> simp

@[simp] theorem kept_hostRead (p a len : Nat) (s : State) : (hostRead p a len s).2.2.kept = s.kept := by
  simp only [hostRead]
  split <;> simp

@[simp] theorem kept_bar2Read (f : FnId) (off len : Nat) (s : State) : (bar2Read f off len s).kept = s.kept := by
  have chk := kept_winChk f off len (s.fnWorld f) false false s
  unfold bar2Read
  dsimp only
  split
  · simp
  · split
    · rfl
    · split <;> simp_all

@[simp] theorem kept_bar2Write (f : FnId) (off : Nat) (bs : Bytes) (s : State) :
    (bar2Write f off bs s).kept = s.kept := by
  have chk := kept_winChk f off bs.length (s.fnWorld f) true false s
  unfold bar2Write
  (repeat' split) <;> simp_all

@[simp] theorem kept_modCmd (s : State) (c : CmdId) (f : Cmd → Cmd) : (s.modCmd c f).kept = s.kept := by
  simp [State.modCmd]

@[simp] theorem kept_bootAnswer (st : Status) (s : State) : (bootAnswer st s).kept = s.kept := by simp [bootAnswer]

@[simp] theorem kept_complete (f q : Nat) (x : Finished) (s : State) : (complete f q x s).kept = s.kept := by
  simp [complete]

@[simp] theorem kept_fillSlot (c : Cmd) (st : Status) (bs : Bytes) (s : State) :
    (fillSlot c st bs s).kept = s.kept := by
  simp only [fillSlot]
  (repeat' split) <;> simp

@[simp] theorem kept_emptySlot (c : Cmd) (s : State) : (emptySlot c s).kept = s.kept := by
  unfold emptySlot
  split <;> simp

@[simp] theorem kept_conclude (c : Cmd) (st : Status) (bs : Bytes) (extra : BitVec 64) (s : State) :
    (conclude c st bs extra s).kept = s.kept := by
  simp [conclude]

@[simp] theorem kept_finish (c : Cmd) (st : Status) (bs : Bytes) (extra : BitVec 64) (s : State) :
    (finish c st bs extra s).kept = s.kept := by
  simp [finish]

@[simp] theorem kept_fillsGo (s : State) : (fillsGo s).kept = s.kept := by
  unfold fillsGo
  split <;> simp

@[simp] theorem kept_answer (c : Cmd) (st : Status) (s : State) : (answer c st s).kept = s.kept := by simp [answer]

theorem kept_onCmd (s : State) (c : CmdId) (opcode : Nat) {k : Cmd → State → State} (h : ∀ x s, (k x s).kept = s.kept) :
    (s.onCmd c opcode k).kept = s.kept := by
  unfold State.onCmd
  (repeat' split) <;> simp [h]

@[simp] theorem kept_resultBytes  (a0 : ResultData) (s : State) : (resultBytes a0 s).2.kept = s.kept := by
  simp only [resultBytes]
  (repeat' split) <;> simp

@[simp] theorem kept_toRecord (f q : Nat) (x : Finished) (s : State) : (toRecord f q x s).kept = s.kept := by
  simp [toRecord]

@[simp] theorem kept_freeRecord (f id : Nat) (s : State) : (freeRecord f id s).kept = s.kept := by simp [freeRecord]

@[simp] theorem kept_writeCpl (f : FnId) (q : Nat) (x : Finished) (s : State) : (writeCpl f q x s).kept = s.kept := by
  simp only [writeCpl]
  (repeat' split) <;> simp

@[simp] theorem kept_completionPost (f : FnId) (q : Nat) (s : State) : (completionPost f q s).kept = s.kept := by
  simp only [completionPost]
  split <;> simp

@[simp] theorem kept_hostReadTimeout (c : CmdId) (s : State) : (hostReadTimeout c s).kept = s.kept := by
  unfold hostReadTimeout
  split <;> simp

@[simp] theorem kept_nopCommand (c : CmdId) (s : State) : (nopCommand c s).kept = s.kept :=
  kept_onCmd _ _ _ fun x s => by simp

@[simp] theorem kept_fenceCommand (c : CmdId) (s : State) : (fenceCommand c s).kept = s.kept :=
  kept_onCmd _ _ _ fun x s => by simp

@[simp] theorem kept_copyInUnits (f : Nat) (secure : Bool) (n off : Nat) (bs : Bytes) (s : State) :
    (copyInUnits f secure n off bs s).2.2.kept = s.kept := by
  induction n generalizing off bs s with
  | zero => rfl
  | succ n ih =>
    have chk := kept_winChk f off 64 secure true false s
    unfold copyInUnits
    split <;> simp_all

@[simp] theorem kept_copyIn (c : CmdId) (data : Bytes) (s : State) : (copyIn c data s).kept = s.kept :=
  kept_onCmd _ _ _ fun x s => by simp

@[simp] theorem kept_copyOutUnits (f : Nat) (secure : Bool) (n off : Nat) (s : State) :
    (copyOutUnits f secure n off s).2.2.2.kept = s.kept := by
  induction n generalizing off s with
  | zero => rfl
  | succ n ih =>
    have chk := kept_winChk f off 64 secure false false s
    unfold copyOutUnits
    split <;> simp_all

@[simp] theorem kept_copyOut (c : CmdId) (s : State) : (copyOut c s).kept = s.kept :=
  kept_onCmd _ _ _ fun x s => by
    dsimp only
    split
    · rfl
    · split
      · rw [kept_complete, kept_mk, kept_fold, kept_copyOutUnits]
      · simp

@[simp] theorem kept_returnRefused (f : Nat) (s : State) : (returnRefused f s).kept = s.kept := by simp [returnRefused]

@[simp] theorem kept_resultReturn (f hi : Nat) (s : State) : (resultReturn f hi s).kept = s.kept := by
  simp only [resultReturn]
  (repeat' split) <;> simp

@[simp] theorem kept_diagApertureRead (p off : Nat) (wide : Bool) (s : State) :
    (diagApertureRead p off wide s).kept = s.kept := by
  simp [diagApertureRead]

@[simp] theorem kept_telemetrySnapshot (s : State) : (telemetrySnapshot s).kept = s.kept := by simp [telemetrySnapshot]

@[simp] theorem kept_invalidate (f : Nat) (s : State) : (invalidate f s).kept = s.kept := by simp [invalidate]

@[simp] theorem kept_invalidateAll (s : State) : (invalidateAll s).kept = s.kept := by simp [invalidateAll]

@[simp] theorem kept_hostLinkDown (s : State) : (hostLinkDown s).kept = s.kept := by simp [hostLinkDown]

@[simp] theorem kept_functionLevelReset (f : Nat) (s : State) : (functionLevelReset f s).kept = s.kept := by
  simp [functionLevelReset]

@[simp] theorem kept_busMasterDisable (f : Nat) (s : State) : (busMasterDisable f s).kept = s.kept := by
  simp [busMasterDisable]

@[simp] theorem kept_perst (asserted : Bool) (s : State) : (perst asserted s).kept = s.kept := by simp [perst]

/-! ## Input rings -/

@[simp] theorem kept_setBinding (s : State) (x : Binding) : (s.setBinding x).kept = s.kept := by simp [State.setBinding]

@[simp] theorem kept_fetched (f r : Nat) (s : State) : (fetched f r s).kept = s.kept := by simp [fetched]

@[simp] theorem kept_skipInput (f r : Nat) (x : Binding) (e : Nat × Nat) (s : State) :
    (skipInput f r x e s).kept = s.kept := by
  simp [skipInput]

@[simp] theorem kept_stageInput (f r p : Nat) (x : Binding) (e data : Bytes) (s : State) :
    (stageInput f r p x e data s).kept = s.kept := by
  simp only [stageInput]
  split <;> simp

@[simp] theorem kept_inputDescriptor (f i : Nat) (e data : Bytes) (s : State) :
    (inputDescriptor f i e data s).kept = s.kept := by
  unfold inputDescriptor
  (repeat' split) <;> simp

@[simp] theorem kept_releaseInput (x : Binding) (s : State) : (releaseInput x s).kept = s.kept := by
  unfold releaseInput
  split <;> simp

@[simp] theorem kept_inputCommit (w : Nat) (x : Binding) (s : State) : (inputCommit w x s).kept = s.kept := by
  simp [inputCommit]

@[simp] theorem kept_inputRewind (p w : Nat) (keep : Bool) (x : Binding) (s : State) :
    (inputRewind p w keep x s).kept = s.kept := by
  simp only [inputRewind]
  (repeat' split) <;> simp

/-! ## Rails, pacing and the power budget -/

/-- Every pace of a comparator lies between 1 and 16 slots (R44, log 33). -/
def Kept.paced (k : Kept) : Prop :=
  (1 ≤ k.excursion ∧ k.excursion ≤ 16) ∧ ∀ n, 1 ≤ k.overCurrent n ∧ k.overCurrent n ≤ 16

/-- What every command but PROVISION does to the part of the state that only a few commands may change: the queue and
one-time storage stay, and the paces stay in range. -/
structure Kept.Next (k l : Kept) : Prop where
  queue : l.queue = k.queue
  otp : l.otp = k.otp
  paced : k.paced → l.paced

theorem Kept.Next.of_eq {k l : Kept} (h : l = k) : k.Next l := ⟨h ▸ rfl, h ▸ rfl, h ▸ id⟩

/-- The over-current pace of one row changed. -/
def Kept.withPace (k : Kept) (n oc : Nat) : Kept :=
  { k with overCurrent := fun i => if i = n then oc else k.overCurrent i }

theorem Kept.Next.withPace (k : Kept) (n oc : Nat) (h : k.paced → 1 ≤ oc ∧ oc ≤ 16) : k.Next (k.withPace n oc) where
  queue := rfl
  otp := rfl
  paced p := ⟨p.1, fun i => by
    simp only [Kept.withPace]
    split
    · exact h p
    · exact p.2 i⟩

theorem Kept.Next.withExcursion (k : Kept) (e : Nat) (h : k.paced → 1 ≤ e ∧ e ≤ 16) :
    k.Next { k with excursion := e } :=
  ⟨rfl, rfl, fun p => ⟨h p, p.2⟩⟩

theorem overCurrent_row (s : State) (n : Nat) : (s.row n).oc = s.kept.overCurrent n := rfl

theorem kept_setRow (s : State) (n : Nat) (r : Row) : (s.setRow n r).kept = s.kept.withPace n r.oc := by
  have row : overCurrent (tabSet (fun _ => {}) s.rows n r) = fun i => if i = n then r.oc else overCurrent s.rows i := by
    funext i
    simp only [overCurrent, tabGet_tabSet]
    split <;> rfl
  rw [State.setRow, kept_mk, row]
  rfl

/-- A row stored with its pace as it was leaves every pace. -/
@[simp] theorem kept_setRow_pace {s : State} {n : Nat} {r : Row} (h : r.oc = (s.row n).oc) :
    (s.setRow n r).kept = s.kept := by
  have same : (fun i => if i = n then (s.row n).oc else overCurrent s.rows i) = overCurrent s.rows := by
    funext i
    split
    · simp [‹i = n›, overCurrent, State.row]
    · rfl
  rw [kept_setRow, h, Kept.withPace]
  exact congrArg (Kept.mk s.pending s.crucible.otp s.excPace · s.mgtclk) same

@[simp] theorem kept_repace (s : State) : (repace s).kept = s.kept := by simp [repace]

@[simp] theorem kept_hwLimit (i : Nat) (s : State) : (hwLimit i s).kept = s.kept := by simp [hwLimit]

@[simp] theorem kept_tripRaise (n : Nat) (s : State) : (tripRaise n s).kept = s.kept := kept_setRow_pace rfl

@[simp] theorem kept_rowOverVoltage (n uv : Nat) (s : State) : (rowOverVoltage n uv s).kept = s.kept := by
  simp [rowOverVoltage]

@[simp] theorem kept_overVoltageRelease (n uv : Nat) (s : State) : (overVoltageRelease n uv s).kept = s.kept := by
  simp [overVoltageRelease]

@[simp] theorem kept_rowOverCurrent (n ma : Nat) (s : State) : (rowOverCurrent n ma s).kept = s.kept := by
  simp [rowOverCurrent]

theorem next_packageExcursion (imon : List Nat) (sram : Nat) (long : Bool) (s : State) :
    s.kept.Next (packageExcursion imon sram long s).kept := by
  simp only [packageExcursion]
  split
  · generalize tripped : (List.range 8).foldl (fun s n => tripRaise n s) s = t
    have same : t.kept = s.kept := tripped ▸ kept_foldl (fun s n => kept_tripRaise n s) _ s
    rw [← same, kept_repace, kept_hwLimit]
    refine .withExcursion _ _ fun p => ?_
    have : 1 ≤ t.excPace ∧ t.excPace ≤ 16 := p.1
    split <;> dsimp only <;> omega
  · exact .of_eq rfl

theorem next_paceLowerTick (src : PaceSource) (s : State) : s.kept.Next (paceLowerTick src s).kept := by
  cases src with
  | overCurrent row ma =>
    simp only [paceLowerTick]
    (repeat' split)
    · exact .of_eq rfl
    · exact .of_eq (kept_setRow_pace rfl)
    · rw [kept_repace, kept_setRow]
      refine .withPace _ _ _ fun p => ?_
      have := p.2 row.toNat
      simp only [overCurrent_row]
      omega
  | excursion imon sram =>
    simp only [paceLowerTick]
    (repeat' split)
    · exact .of_eq rfl
    · exact .of_eq (by simp)
    · rw [kept_repace]
      refine .withExcursion _ _ fun p => ?_
      have : 1 ≤ s.excPace ∧ s.excPace ≤ 16 := p.1
      simp only
      omega

theorem next_paceRaiseTick (src : PaceSource) (s : State) : s.kept.Next (paceRaiseTick src s).kept := by
  cases src with
  | overCurrent row ma =>
    simp only [paceRaiseTick]
    split
    · rw [kept_repace, kept_setRow]
      refine .withPace _ _ _ fun p => ?_
      have := p.2 row.toNat
      simp only [overCurrent_row]
      omega
    · exact .of_eq rfl
  | excursion imon sram =>
    simp only [paceRaiseTick]
    split
    · rw [kept_repace]
      refine .withExcursion _ _ fun p => ?_
      have : 1 ≤ s.excPace ∧ s.excPace ≤ 16 := p.1
      simp only
      omega
    · exact .of_eq rfl

@[simp] theorem kept_avsFrame (x : Output) (s : State) : (avsFrame x s).kept = s.kept := by simp [avsFrame]

@[simp] theorem kept_avsFrameFail (s : State) : (avsFrameFail s).kept = s.kept := by
  unfold avsFrameFail
  split <;> simp

@[simp] theorem kept_avsRetry (rail : Nat) (what : AvsRead) (ok : Bool) (s : State) :
    (avsRetry rail what ok s).kept = s.kept := by
  simp [avsRetry]

@[simp] theorem kept_showCurrent (n mv : Nat) (s : State) : (showCurrent n mv s).kept = s.kept := by simp [showCurrent]

@[simp] theorem kept_sendSetpoint (n mv : Nat) (s : State) : (sendSetpoint n mv s).kept = s.kept := by
  simp [sendSetpoint]

@[simp] theorem kept_pollRail (s : State) (n : Nat) : (pollRail s n).kept = s.kept := by
  have polled (r : Row) (h : r.oc = (s.row n).oc) :
      ((avsFrame (.avsRead n .voltage) s).setRow n r).kept = s.kept :=
    (kept_setRow_pace (s := avsFrame (.avsRead n .voltage) s) h).trans (kept_avsFrame ..)
  unfold pollRail
  dsimp only
  (repeat' split) <;> simp [polled]

@[simp] theorem kept_trySetpoint (n pRow total : Nat) (s : State) : (trySetpoint n pRow total s).kept = s.kept := by
  simp [trySetpoint]

@[simp] theorem kept_setpointChange (n mv pRow total : Nat) (s : State) :
    (setpointChange n mv pRow total s).kept = s.kept := by
  simp [setpointChange]

@[simp] theorem kept_setpointRaiseRetry (n pRow total : Nat) (s : State) :
    (setpointRaiseRetry n pRow total s).kept = s.kept := by
  simp [setpointRaiseRetry]

@[simp] theorem kept_dealTokens (s : State) : (dealTokens s).kept = s.kept := by simp [dealTokens]

@[simp] theorem kept_sendPower (p q : Nat) (grant : Bool) (n : Nat) (s : State) :
    (sendPower p q grant n s).kept = s.kept := by
  simp [sendPower]

@[simp] theorem kept_askTokens (p : Nat) (s : State) : (askTokens p s).kept = s.kept := by simp [askTokens]

@[simp] theorem kept_powerEstimate (p : Nat) (s : State) : (powerEstimate p s).kept = s.kept := by simp [powerEstimate]

@[simp] theorem kept_fromInbox (s : State) (p : Nat) (ok : Bool) (f : Frame)
    {k : State → State} (h : ∀ s, (k s).kept = s.kept) :
    (s.fromInbox p ok f k).kept = s.kept := by
  unfold State.fromInbox
  (repeat' split) <;> simp [h]

@[simp] theorem kept_powerRequest (p src : Nat) (h : BitVec 256) (s : State) :
    (powerRequest p src h s).kept = s.kept := by
  unfold powerRequest
  split
  · rfl
  · exact kept_fromInbox _ _ _ _ fun s => by simp

@[simp] theorem kept_powerGrant (p : Nat) (h : BitVec 256) (s : State) : (powerGrant p h s).kept = s.kept := by
  unfold powerGrant
  split
  · rfl
  · exact kept_fromInbox _ _ _ _ fun s => by simp

@[simp] theorem kept_tokenAudit (s : State) : (tokenAudit s).kept = s.kept := by simp [tokenAudit]

@[simp] theorem kept_tokenAuditRead (s : State) : (tokenAuditRead s).kept = s.kept := by simp [tokenAuditRead]

@[simp] theorem kept_centralDivision (s : State) : (centralDivision s).kept = s.kept := by simp [centralDivision]

/-! ## Switching dies -/

@[simp] theorem kept_advanceLife (l : Nat) (s : State) : (advanceLife l s).kept = s.kept := by
  simp only [advanceLife]
  split <;> simp

@[simp] theorem kept_powerOn (r : DieRun) (mv p : Nat) (s : State) : (powerOn r mv p s).kept = s.kept := by
  simp [powerOn]

@[simp] theorem kept_bindDie (l p : Nat) (s : State) : (bindDie l p s).kept = s.kept := by simp [bindDie]

@[simp] theorem kept_unbind (l : Nat) (s : State) : (unbind l s).kept = s.kept := by
  unfold unbind
  split <;> simp

@[simp] theorem kept_degradeRow (n : Nat) (s : State) : (degradeRow n s).kept = s.kept := by simp [degradeRow]

/-! ## The Crucible -/

@[simp] theorem kept_cruStart (s : State) : (cruStart s).kept = s.kept := by simp [cruStart]

theorem kept_takeKeys {img : Bytes} {cold : Bool} {s t : State} (h : takeKeys img cold s = some t) :
    t.kept = s.kept := by
  unfold takeKeys at h
  dsimp only at h
  split at h
  · cases h
  · split at h
    · cases h
      simp
    · cases h

@[simp] theorem kept_cruRefused (st : Status) (s : State) : (cruRefused st s).kept = s.kept := by
  unfold cruRefused
  split <;> simp

@[simp] theorem kept_critChk (fp : FetchPoint) (pkt : Bytes) (s : State) : (critChk fp pkt s).2.kept = s.kept := by
  simp only [critChk]
  (repeat' split) <;> simp

@[simp] theorem kept_applyWorlds (w : Worlds) (s : State) : (applyWorlds w s).kept = s.kept :=
  kept_foldl (fun s a => by (repeat' split) <;> simp) _ _

@[simp] theorem kept_worldAssign (c : CmdId) (s : State) : (worldAssign c s).kept = s.kept :=
  kept_onCmd _ _ _ fun x s => by simp

@[simp] theorem kept_keyRotate (c : CmdId) (s : State) : (keyRotate c s).kept = s.kept :=
  kept_onCmd _ _ _ fun x s => by simp

@[simp] theorem kept_debugZero (s : State) : (debugZero s).kept = s.kept := by simp [debugZero]

@[simp] theorem kept_debugUnlock (c : CmdId) (s : State) : (debugUnlock c s).kept = s.kept :=
  kept_onCmd _ _ _ fun x s => by simp

theorem kept_attReserve {ok : Bool} {s t : State} (h : attReserve ok s = some t) : t.kept = s.kept := by
  unfold attReserve at h
  dsimp only at h
  split at h
  · cases h
  · cases h
    simp

@[simp] theorem kept_attShow (s : State) : (attShow s).kept = s.kept := by simp [attShow]

@[simp] theorem kept_attest (c : CmdId) (ok : Bool) (s : State) : (attest c ok s).kept = s.kept :=
  kept_onCmd _ _ _ fun x s => by
    split
    · simp
    · next t found =>
      have held : t.kept = s.kept := by
        split at found
        · cases found; rfl
        · exact kept_attReserve found
      simp [held]

@[simp] theorem kept_attestPubkey (c : CmdId) (s : State) : (attestPubkey c s).kept = s.kept :=
  kept_onCmd _ _ _ fun x s => by simp

@[simp] theorem kept_attestCert (c : CmdId) (s : State) : (attestCert c s).kept = s.kept :=
  kept_onCmd _ _ _ fun x s => by simp

@[simp] theorem kept_regionSet (c : CmdId) (s : State) : (regionSet c s).kept = s.kept :=
  kept_onCmd _ _ _ fun x s => by
    dsimp only
    (repeat' split) <;> simp

@[simp] theorem kept_elsAccept (c : CmdId) (s : State) : (elsAccept c s).kept = s.kept :=
  kept_onCmd _ _ _ fun x s => by simp

/-! ## Triggers, resets, retirement -/

@[simp] theorem kept_endCmds (who : Cmd → Bool) (st : Status) (s : State) : (endCmds who st s).kept = s.kept := by
  simp [endCmds]

@[simp] theorem kept_endEval (j : Nat) (st : Status) (s : State) : (endEval j st s).kept = s.kept := by
  simp only [endEval]
  (repeat' split) <;> simp

@[simp] theorem kept_endKernels (j : Nat) (s : State) : (endKernels j s).kept = s.kept := by simp [endKernels]

@[simp] theorem kept_endRestores (j : Nat) (s : State) : (endRestores j s).kept = s.kept := by simp [endRestores]

@[simp] theorem kept_resetJob (s : State) (j : Nat) : (resetJob s j).kept = s.kept := by simp [resetJob]

@[simp] theorem kept_record (code part : Nat) (device : Bool) (p : Option Nat) (s : State) :
    (record code part device p s).kept = s.kept := by
  simp [record]

@[simp] theorem kept_halt (st : Status) (step : Nat) (s : State) : (halt st step s).kept = s.kept := by simp [halt]

@[simp] theorem kept_deviceReset (code part : Nat) (p : Option Nat) (s : State) :
    (deviceReset code part p s).kept = s.kept := by
  have back (t : State) : (if retainedOk t then
      match takeKeys t.image false t with
      | some u => u
      | none => halt .unverified 0xA t
    else halt .unverified 0xA t).kept = t.kept := by
    split
    · split
      · next keys => exact kept_takeKeys keys
      · simp
    · simp
  unfold deviceReset
  extract_lets recorded recovering counted ended waiting halting off engines cleared started
  have same : waiting.kept = s.kept := by
    have counts : counted.kept = s.kept := by simp [counted, recorded]
    have ends : ended.kept = counted.kept := (kept_foldl kept_resetJob _ _).trans rfl
    simp only [waiting, kept_mk, kept_fold, ends, counts]
  clear_value waiting
  refine (back started).trans ?_
  simp [started, cleared, engines, off, halting, same]

@[simp] theorem kept_beginReset (part : Nat) (s : State) : (beginReset part s).kept = s.kept := by simp [beginReset]

@[simp] theorem kept_triggerPart (code part : Nat) (p : Option Nat) (s : State) :
    (triggerPart code part p s).kept = s.kept := by
  unfold triggerPart
  split <;> simp

@[simp] theorem kept_triggerDie (code p : Nat) (s : State) : (triggerDie code p s).kept = s.kept := by
  unfold triggerDie
  split <;> simp

@[simp] theorem kept_putDown (p : Nat) (s : State) : (putDown p s).kept = s.kept := by simp [putDown]

@[simp] theorem kept_coldFailover (p n : Nat) (narrow : Bool) (s : State) :
    (coldFailover p n narrow s).kept = s.kept := by
  simp [coldFailover]

@[simp] theorem kept_putAside (p : Nat) (s : State) : (putAside p s).kept = s.kept := by
  simp only [putAside]
  split <;> simp

@[simp] theorem kept_loseRow (n : Nat) (s : State) : (loseRow n s).kept = s.kept := by
  have degraded := kept_degradeRow n s
  unfold loseRow
  generalize degradeRow n s = t at degraded ⊢
  dsimp only
  split <;> simp [degraded]

@[simp] theorem kept_retire (p : Nat) (s : State) : (retire p s).kept = s.kept := by
  simp only [retire]
  (repeat' split) <;> simp

@[simp] theorem kept_watchdog (p : Nat) (s : State) : (watchdog p s).kept = s.kept := by simp [watchdog]

@[simp] theorem kept_sense (p : Nat) (c : BitVec 8) (s : State) : (sense p c s).kept = s.kept := by simp [sense]

@[simp] theorem kept_haltDie (p : Nat) (s : State) : (haltDie p s).kept = s.kept := by simp [haltDie]

@[simp] theorem kept_thermalHalt (p : Nat) (c : BitVec 8) (s : State) : (thermalHalt p c s).kept = s.kept := by
  simp [thermalHalt]

@[simp] theorem kept_thermtrip (p : Nat) (c : BitVec 8) (s : State) : (thermtrip p c s).kept = s.kept := by
  simp [thermtrip]

@[simp] theorem kept_thermalClamp (p : Nat) (c : BitVec 8) (s : State) : (thermalClamp p c s).kept = s.kept := by
  simp [thermalClamp]

@[simp] theorem kept_thermalClampRelease (p : Nat) (c : BitVec 8) (s : State) :
    (thermalClampRelease p c s).kept = s.kept := by
  simp [thermalClampRelease]

@[simp] theorem kept_thermalThrottle (p : Nat) (c : BitVec 8) (s : State) : (thermalThrottle p c s).kept = s.kept := by
  simp [thermalThrottle]

@[simp] theorem kept_throttleRemoval (p : Nat) (s : State) : (throttleRemoval p s).kept = s.kept := by
  simp [throttleRemoval]

@[simp] theorem kept_throttleSetpointLower (n : Nat) (s : State) : (throttleSetpointLower n s).kept = s.kept := by
  simp [throttleSetpointLower]

@[simp] theorem kept_throttleRecover (n pRow total : Nat) (s : State) :
    (throttleRecover n pRow total s).kept = s.kept := by
  simp [throttleRecover]

@[simp] theorem kept_sendLost (d : Die) (s : State) : (sendLost d s).kept = s.kept := by simp [sendLost]

@[simp] theorem kept_askSetpoints (c : Cmd) (s : State) : (askSetpoints c s).kept = s.kept := by simp [askSetpoints]

@[simp] theorem kept_resetWaiters (part : Nat) (s : State) : (resetWaiters part s).kept = s.kept := by
  simp [resetWaiters]

@[simp] theorem kept_endReset (part : Nat) (late : List Nat) (s : State) : (endReset part late s).kept = s.kept := by
  simp [endReset]

@[simp] theorem kept_partitionReset (part : Nat) (late : List Nat) (s : State) :
    (partitionReset part late s).kept = s.kept := by
  simp [partitionReset]

@[simp] theorem kept_commandReset (part : Nat) (s : State) : (commandReset part s).kept = s.kept := by
  simp [commandReset]

@[simp] theorem kept_escalation (part : Nat) (s : State) : (escalation part s).kept = s.kept := by simp [escalation]

@[simp] theorem kept_refclkLoss (s : State) : (refclkLoss s).kept = s.kept := by simp [refclkLoss]

@[simp] theorem kept_rowclkLoss (n : Nat) (s : State) : (rowclkLoss n s).kept = s.kept := by
  simp only [rowclkLoss]
  (repeat' split) <;> simp

@[simp] theorem kept_leclkLoss (n : Nat) (s : State) : (leclkLoss n s).kept = s.kept := by
  unfold leclkLoss
  split <;> simp

@[simp] theorem kept_mgtclkLoss (s : State) : (mgtclkLoss s).kept = s.kept := by simp [mgtclkLoss]

@[simp] theorem kept_clockRestored (c : Clock) (s : State) : (clockRestored c s).kept = s.kept := by
  unfold clockRestored
  split <;> simp

@[simp] theorem kept_reckonerKick (s : State) : (reckonerKick s).kept = s.kept := by simp [reckonerKick]

@[simp] theorem kept_reckonerWdog (s : State) : (reckonerWdog s).kept = s.kept := by simp [reckonerWdog]

@[simp] theorem kept_resetPartition (c : CmdId) (s : State) : (resetPartition c s).kept = s.kept :=
  kept_onCmd _ _ _ fun x s => by simp

@[simp] theorem kept_resetDevice (c : CmdId) (s : State) : (resetDevice c s).kept = s.kept :=
  kept_onCmd _ _ _ fun x s => by simp

/-! ## The Lehr -/

@[simp] theorem kept_showRecords (l : Nat) (s : State) : (showRecords l s).kept = s.kept := by
  unfold showRecords
  split <;> simp

@[simp] theorem kept_lhrEnd (p : Nat) (st : Status) (s : State) : (lhrEnd p st s).kept = s.kept := by simp [lhrEnd]

@[simp] theorem kept_lhrCapture (p l win job : Nat) (s : State) : (lhrCapture p l win job s).kept = s.kept := by
  simp [lhrCapture]

@[simp] theorem kept_lhrRestore (p l win : Nat) (s : State) : (lhrRestore p l win s).kept = s.kept := by
  unfold lhrRestore
  (repeat' split) <;> simp

@[simp] theorem kept_dropCaptures (l win : Nat) (s : State) : (dropCaptures l win s).kept = s.kept := by
  simp [dropCaptures]

@[simp] theorem kept_queuePart (p pkg die rod job version : Nat) (journal : Bool) (bs : Bytes) (s : State) :
    (queuePart p pkg die rod job version journal bs s).kept = s.kept := by
  simp [queuePart]

@[simp] theorem kept_lehrReads (p job : Nat) (es : List (Nat × Nat)) (s : State) :
    (lehrReads p job es s).2.kept = s.kept := by
  induction es generalizing s with
  | nil => rfl
  | cons e es ih =>
    simp only [lehrReads]
    split
    · exact ih s
    · split
      · simp
      · have rest := ih (s.setDie p (lehrRead .lehr job e.1 e.2 (s.die p)).2)
        split <;> simp_all

@[simp] theorem kept_shardReady (p l win j : Nat) (s : State) : (shardReady p l win j s).kept = s.kept := by
  have read := kept_lehrReads p j (shardPlaces s j l) s
  unfold shardReady
  dsimp only
  (repeat' split) <;> simp_all

@[simp] theorem kept_lehrAct (p : Nat) (s : State) : (lehrAct p s).kept = s.kept := by
  simp only [lehrAct]
  (repeat' split) <;> simp

@[simp] theorem kept_pinParisons (p l j : Nat) (s : State) : (pinParisons p l j s).kept = s.kept := by
  simp [pinParisons]

@[simp] theorem kept_parisonUnpin (p j : Nat) (s : State) : (parisonUnpin p j s).kept = s.kept := by
  unfold parisonUnpin
  split <;> simp

@[simp] theorem kept_askPart (p : Nat) (s : State) : (askPart p s).kept = s.kept := by
  simp only [askPart]
  split <;> simp

@[simp] theorem kept_beginParts (p j : Nat) (parts : List LehrPart) (s : State) :
    (beginParts p j parts s).kept = s.kept := by
  simp [beginParts]

@[simp] theorem kept_endParts (p : Nat) (st : Status) (s : State) : (endParts p st s).kept = s.kept := by
  simp [endParts]

@[simp] theorem kept_lehrAnswer (p : Nat) (b : Bead) (s : State) : (lehrAnswer p b s).kept = s.kept := by
  unfold lehrAnswer
  (repeat' split) <;> simp

@[simp] theorem kept_lehrRequest (p : Nat) (h : BitVec 256) (s : State) : (lehrRequest p h s).kept = s.kept := by
  unfold lehrRequest
  dsimp only
  split
  · rfl
  · exact kept_fromInbox _ _ _ _ fun s => by simp

@[simp] theorem kept_putExtents (p j : Nat) (es : List (Nat × Nat)) (bs : Bytes) (s : State) :
    (putExtents p j es bs s).2.kept = s.kept := by
  induction es generalizing bs s with
  | nil => rfl
  | cons e es ih =>
    simp only [putExtents]
    (repeat' split) <;> simp [ih]

@[simp] theorem kept_putObject (p l j : Nat) (o : Bytes) (s : State) : (putObject p l j o s).2.kept = s.kept := by
  simp [putObject]

@[simp] theorem kept_placePart (p l j : Nat) (x : LehrPart) (s : State) : (placePart p l j x s).2.kept = s.kept := by
  unfold placePart
  (repeat' split) <;> simp

@[simp] theorem kept_partGrown (p l j : Nat) (x : LehrPart) (more : List LehrPart) (s : State) :
    (partGrown p l j x more s).kept = s.kept := by
  simp only [partGrown]
  (repeat' split) <;> simp

@[simp] theorem kept_lehrPartReceive (p : Nat) (s : State) : (lehrPartReceive p s).kept = s.kept := by
  simp only [lehrPartReceive]
  (repeat' split) <;> simp

@[simp] theorem kept_lehrNak (p : Nat) (h : BitVec 256) (s : State) : (lehrNak p h s).kept = s.kept := by simp [lehrNak]

@[simp] theorem kept_exportTo (x : Cmd) (st : Status) (bs : Bytes) (s : State) :
    (exportTo x st bs s).kept = s.kept := by
  simp [exportTo]

@[simp] theorem kept_exportSlot (c : CmdId) (s : State) :
    (exportSlot c s).kept = s.kept :=
  kept_onCmd _ _ _ fun x s => by
    split
    split
    · rfl
    · split
      · simp
      · extract_lets d
        split
        · simp
        · extract_lets
          split
          · rfl
          · split
            extract_lets t
            have same : t.kept = s.kept := kept_setDie ..
            split <;> simp [same]

@[simp] theorem kept_exportObject (c : CmdId) (s : State) : (exportObject c s).kept = s.kept :=
  kept_onCmd _ _ _ fun x s => by
    dsimp only
    (repeat' split) <;> simp

/-! ## Partitions and jobs -/

@[simp] theorem kept_modJobDies (s : State) (j : Nat) (f : Die → Die) : (s.modJobDies j f).kept = s.kept := by
  simp [State.modJobDies]

@[simp] theorem kept_launchAt (l first m1 entry : Nat) (s : State) : (launchAt l first m1 entry s).2.kept = s.kept := by
  unfold launchAt
  split <;> simp

@[simp] theorem kept_launchAll (es : List (Nat × Nat × Nat × Nat)) (s : State) : (launchAll es s).2.kept = s.kept := by
  induction es generalizing s with
  | nil => rfl
  | cons e es ih =>
    simp only [launchAll]
    split <;> simp [ih]

@[simp] theorem kept_launchClass (j cls : Nat) (s : State) : (launchClass j cls s).2.kept = s.kept := by
  simp [launchClass]

theorem kept_jobCmd (c : CmdId) (opcode : Nat) (jobOf : Cmd → Nat) (states : List Nat)
    {k : Cmd → Nat → State → State} (s : State) (h : ∀ x j s, (k x j s).kept = s.kept) :
    (jobCmd c opcode jobOf states k s).kept = s.kept :=
  kept_onCmd _ _ _ fun x s => by
    dsimp only
    (repeat' split) <;> simp [h]

@[simp] theorem kept_begin' (x : Cmd) (s : State) : (begin' x s).kept = s.kept := by simp [begin']

@[simp] theorem kept_askSetpoint (n mv : Nat) (s : State) : (askSetpoint n mv s).kept = s.kept := by simp [askSetpoint]

@[simp] theorem kept_partitionForm (c : CmdId) (s : State) : (partitionForm c s).kept = s.kept :=
  kept_onCmd _ _ _ fun x s => by simp

@[simp] theorem kept_partitionDissolve (c : CmdId) (s : State) : (partitionDissolve c s).kept = s.kept :=
  kept_onCmd _ _ _ fun x s => by simp

@[simp] theorem kept_readManifest (p a : Nat) (s : State) : (readManifest p a s).2.kept = s.kept := by
  simp only [readManifest]
  (repeat' split) <;> simp

@[simp] theorem kept_applyReg (s : State) (e : Bytes) : (applyReg s e).kept = s.kept := by
  unfold applyReg
  split <;> simp

@[simp] theorem kept_applyProg (e : Bytes) (s : State) : (applyProg e s).2.kept = s.kept := by
  simp only [applyProg]
  (repeat' split) <;> simp

@[simp] theorem kept_applyProgs (es : List Bytes) (s : State) : (applyProgs es s).2.kept = s.kept := by
  induction es generalizing s with
  | nil => rfl
  | cons e es ih => simp [applyProgs, ih]

@[simp] theorem kept_applyRange (j : Nat) (s : State) (e : Bytes) : (applyRange j s e).kept = s.kept := by
  unfold applyRange
  split <;> simp

@[simp] theorem kept_applyManifest (j : Nat) (who : Nat → Bool) (m : Bytes) (s : State) :
    (applyManifest j who m s).2.kept = s.kept := by
  simp [applyManifest]

@[simp] theorem kept_loadJob (part share : Nat) (cls : Bool) (j l a : Nat) (m : Bytes) (s : State) :
    (loadJob part share cls j l a m s).2.kept = s.kept := by
  simp [loadJob]

@[simp] theorem kept_jobLoad (c : CmdId) (s : State) : (jobLoad c s).kept = s.kept :=
  kept_jobCmd _ _ _ _ _ fun x j s => by
    dsimp only
    split
    · simp
    · split
      · simp
      · next p _ =>
        have read := kept_readManifest p (64 * bitsOf x.imm.toNat 44 16) s
        (repeat' split) <;> simp_all

@[simp] theorem kept_startJob (j : Nat) (s : State) : (startJob j s).kept = s.kept := by
  simp only [startJob]
  split <;> simp

@[simp] theorem kept_jobStart (c : CmdId) (s : State) : (jobStart c s).kept = s.kept :=
  kept_onCmd _ _ _ fun x s => by simp

@[simp] theorem kept_setPause (j v : Nat) (s : State) : (setPause j v s).kept = s.kept := by simp [setPause]

@[simp] theorem kept_jobPause (c : CmdId) (s : State) : (jobPause c s).kept = s.kept :=
  kept_onCmd _ _ _ fun x s => by simp

@[simp] theorem kept_jobResume (c : CmdId) (s : State) : (jobResume c s).kept = s.kept :=
  kept_onCmd _ _ _ fun x s => by simp

@[simp] theorem kept_jobShare (c : CmdId) (s : State) : (jobShare c s).kept = s.kept :=
  kept_onCmd _ _ _ fun x s => by simp

@[simp] theorem kept_jobQuery (c : CmdId) (s : State) : (jobQuery c s).kept = s.kept :=
  kept_onCmd _ _ _ fun x s => by simp

@[simp] theorem kept_jobStopDrain (c : CmdId) (s : State) : (jobStopDrain c s).kept = s.kept := by
  unfold jobStopDrain
  (repeat' split)
  · rfl
  · rfl
  · exact kept_jobCmd _ _ _ _ _ fun x j s => by simp

@[simp] theorem kept_jobStopAbort (c : CmdId) (s : State) : (jobStopAbort c s).kept = s.kept := by
  unfold jobStopAbort
  (repeat' split)
  · rfl
  · rfl
  · exact kept_jobCmd _ _ _ _ _ fun x j s => by split <;> simp

@[simp] theorem kept_jobDrainTimeout (j : Nat) (s : State) : (jobDrainTimeout j s).kept = s.kept := by
  simp [jobDrainTimeout]

@[simp] theorem kept_drainGo (j : Nat) (s : State) : (drainGo j s).kept = s.kept := by simp [drainGo]

@[simp] theorem kept_jobUnload (c : CmdId) (s : State) : (jobUnload c s).kept = s.kept :=
  kept_jobCmd _ _ _ _ _ fun x j s => by
    have launched := kept_launchClass j 3 s
    split <;> simp_all

@[simp] theorem kept_unloadJob (x : Cmd) (j : Nat) (s : State) : (unloadJob x j s).kept = s.kept := by simp [unloadJob]

@[simp] theorem kept_unloadGo (j : Nat) (s : State) : (unloadGo j s).kept = s.kept := by
  unfold unloadGo
  split <;> simp

@[simp] theorem kept_teardownTimeout (j : Nat) (s : State) : (teardownTimeout j s).kept = s.kept := by
  simp [teardownTimeout]

@[simp] theorem kept_reshardWrite (gen : Nat) (s : State) (e : Bytes) : (reshardWrite gen s e).kept = s.kept := by
  simp only [reshardWrite]
  split <;> simp

@[simp] theorem kept_reshard (c : CmdId) (s : State) : (reshard c s).kept = s.kept :=
  kept_jobCmd _ _ _ _ _ fun x j s => by
    dsimp only
    (repeat' split) <;> simp

@[simp] theorem kept_startEval (j n : Nat) (s : State) : (startEval j n s).2.kept = s.kept := by simp [startEval]

@[simp] theorem kept_evalRun (c : CmdId) (s : State) : (evalRun c s).kept = s.kept :=
  kept_jobCmd _ _ _ _ _ fun x j s => by
    have started := kept_startEval j (bitsOf x.imm.toNat 15 8) s
    dsimp only
    (repeat' split) <;> simp_all

@[simp] theorem kept_unpinEval (j n : Nat) (s : State) : (unpinEval j n s).kept = s.kept :=
  kept_foldl (fun s a => by (repeat' split) <;> simp) _ _

@[simp] theorem kept_finishEval (j : Nat) (st : Status) (s : State) : (finishEval j st s).kept = s.kept := by
  unfold finishEval
  split <;> simp

@[simp] theorem kept_evalGo (j : Nat) (s : State) : (evalGo j s).kept = s.kept := by simp [evalGo]

@[simp] theorem kept_evalPinGo (j : Nat) (s : State) : (evalPinGo j s).kept = s.kept := by
  unfold evalPinGo
  split
  · rfl
  · exact kept_foldl (fun s k => by (repeat' split) <;> simp) _ _

@[simp] theorem kept_autoEval (j : Nat) (s : State) : (autoEval j s).kept = s.kept := by
  unfold autoEval
  dsimp only
  split
  · rfl
  · split
    · simp
    · next w _ =>
      have started := kept_startEval j ((w + 1) % 256) (evalPinGo j s)
      (repeat' split) <;> simp_all

@[simp] theorem kept_autoEvalTimeout (j : Nat) (s : State) : (autoEvalTimeout j s).kept = s.kept := by
  simp only [autoEvalTimeout]
  split <;> simp

@[simp] theorem kept_placeKernel (x : Cmd) (s : State) : (placeKernel x s).kept = s.kept := by
  simp only [placeKernel]
  split <;> simp

@[simp] theorem kept_kernelSubmit (c : CmdId) (s : State) : (kernelSubmit c s).kept = s.kept :=
  kept_onCmd _ _ _ fun x s => by simp

@[simp] theorem kept_kernelGo (j : Nat) (s : State) : (kernelGo j s).kept = s.kept := by
  have ended (l : List Cmd) (s : State) : (l.foldl (fun s c =>
      match s.physOf c.die with
      | some p =>
        if rangesIdle (s.die p) (classRanges (s.die p) j 2) then finish c .ok [] (BitVec.ofNat 64 c.die) s else s
      | none => s) s).kept = s.kept := kept_foldl (fun s c => by (repeat' split) <;> simp) l s
  simp only [kernelGo]
  split
  · simp only [kept_foldl (fun s c => kept_placeKernel c s)]
    exact ended _ _
  · exact ended _ _

@[simp] theorem kept_committed (l p j w : Nat) (s : State) : (committed l p j w s).kept = s.kept := by simp [committed]

@[simp] theorem kept_commitNotice (p : Nat) (h : BitVec 256) (s : State) : (commitNotice p h s).kept = s.kept := by
  simp only [commitNotice]
  split <;> simp

@[simp] theorem kept_repeatNotice (p : Nat) (h : BitVec 256) (s : State) : (repeatNotice p h s).kept = s.kept := by
  simp only [repeatNotice]
  split <;> simp

@[simp] theorem kept_stopJob (j cause : Nat) (s : State) : (stopJob j cause s).kept = s.kept := by simp [stopJob]

@[simp] theorem kept_stopNotice (p : Nat) (h : BitVec 256) (s : State) : (stopNotice p h s).kept = s.kept := by
  simp [stopNotice]

/-! ## Recovery -/

@[simp] theorem kept_markFresh (part l : Nat) (s : State) : (markFresh part l s).kept = s.kept := by simp [markFresh]

@[simp] theorem kept_bindSpare (l q : Nat) (s : State) : (bindSpare l q s).kept = s.kept := by simp [bindSpare]

@[simp] theorem kept_sparing (p : Nat) (retrained : Bool) (s : State) : (sparing p retrained s).kept = s.kept := by
  simp only [sparing]
  (repeat' split) <;> simp

@[simp] theorem kept_bindTimeout (p : Nat) (s : State) : (bindTimeout p s).kept = s.kept := by simp [bindTimeout]

@[simp] theorem kept_restoreFrom (partner p j : Nat) (s : State) : (restoreFrom partner p j s).kept = s.kept := by
  unfold restoreFrom
  split <;> simp

@[simp] theorem kept_replicaRestore (p j : Nat) (s : State) : (replicaRestore p j s).kept = s.kept := by
  simp [replicaRestore]

@[simp] theorem kept_reapplyDies (j : Nat) (ls : List Nat) (live : Bool) (s : State) :
    (reapplyDies j ls live s).kept = s.kept := by
  have resumed (s : State) (o : Option Nat) : (match o with
      | some p =>
        if (ls.filterMap s.physOf).contains p && redActive (s.die p) j then s.modDie p (resumeLedger j) else s
      | none => s).kept = s.kept := by (repeat' split) <;> simp
  refine (resumed _ _).trans ((kept_foldl (fun s l => ?_) _ _).trans (by simp))
  dsimp only
  split <;> simp

@[simp] theorem kept_exportAgain (p j : Nat) (s : State) : (exportAgain p j s).kept = s.kept := by
  unfold exportAgain
  split <;> simp

@[simp] theorem kept_rebuildJob (s : State) (j : Nat) : (rebuildJob s j).kept = s.kept := by simp [rebuildJob]

@[simp] theorem kept_relaunch (j : Nat) (s : State) : (relaunch j s).kept = s.kept := by simp [relaunch]

@[simp] theorem kept_fetchLost (j : Nat) (s : State) (e : Nat × Nat) : (fetchLost j s e).kept = s.kept := by
  simp [fetchLost]

@[simp] theorem kept_restoreGo (j : Nat) (s : State) : (restoreGo j s).kept = s.kept := by
  simp only [restoreGo]
  (repeat' split) <;> simp

@[simp] theorem kept_restoreFailed (j : Nat) (st : Status) (s : State) : (restoreFailed j st s).kept = s.kept := by
  simp [restoreFailed]

@[simp] theorem kept_partsEnded (p j : Nat) (s : State) : (partsEnded p j s).kept = s.kept := by
  unfold partsEnded
  split <;> simp

@[simp] theorem kept_recoverJob (s : State) (j : Nat) : (recoverJob s j).kept = s.kept := by simp [recoverJob]

@[simp] theorem kept_jobRecovery (part : Nat) (s : State) : (jobRecovery part s).kept = s.kept := by simp [jobRecovery]

@[simp] theorem kept_storeDie (j w : Nat) (s : State) (x : (Nat × Nat) × Bytes) : (storeDie j w s x).kept = s.kept := by
  simp [storeDie]

@[simp] theorem kept_enableLedger (j : Nat) (s : State) : (enableLedger j s).kept = s.kept := by
  unfold enableLedger
  split <;> simp

@[simp] theorem kept_storeJob (j w : Nat) (dies : List (Nat × Nat)) (objects : List Bytes) (s : State) :
    (storeJob j w dies objects s).2.kept = s.kept := by
  unfold storeJob
  (repeat' split) <;> simp

@[simp] theorem kept_restoreStore (x : Cmd) (j : Nat) (objects : List Bytes) (s : State) :
    (restoreStore x j objects s).kept = s.kept := by
  simp [restoreStore]

@[simp] theorem kept_restoreReplica (x : Cmd) (j : Nat) (s : State) : (restoreReplica x j s).kept = s.kept := by
  simp [restoreReplica]

@[simp] theorem kept_restore (c : CmdId) (objects : List Bytes) (s : State) : (restore c objects s).kept = s.kept :=
  kept_onCmd _ _ _ fun x s => by simp

/-! ## The configuration image -/

@[simp] theorem kept_keepImage (img : Bytes) (s : State) : (keepImage img s).kept = s.kept := by simp [keepImage]

@[simp] theorem kept_enterRecovery (st : Status) (s : State) : (enterRecovery st s).kept = s.kept := by
  simp [enterRecovery]

@[simp] theorem kept_imageVerify (s : State) : (imageVerify s).kept = s.kept := by
  simp only [imageVerify]
  split
  · rfl
  · split
    · simp
    · split
      · next t keys => simp [kept_takeKeys keys]
      · simp

/-! ## Power-up and boot -/

@[simp] theorem kept_breakWrite (s : State) : (breakWrite s).kept = s.kept := by simp [breakWrite]

@[simp] theorem kept_coldClear (s : State) : (coldClear s).kept = s.kept := by simp [coldClear]

@[simp] theorem kept_coldStart (s : State) : (coldStart s).kept = s.kept := by simp [coldStart]

/-- Power-up is the one command that a row's pace does not outlive. -/
theorem kept_vddAonApply (s : State) :
    (vddAonApply s).kept = ⟨s.pending, s.crucible.otp, 16, overCurrent [], 0⟩ := by
  simp [vddAonApply]

@[simp] theorem kept_sysRstRelease (s : State) : (sysRstRelease s).kept = s.kept := by simp [sysRstRelease]

@[simp] theorem kept_sysRstAssert (s : State) : (sysRstAssert s).kept = s.kept := by simp [sysRstAssert]

@[simp] theorem kept_sysPwrokDeassert (s : State) : (sysPwrokDeassert s).kept = s.kept := by simp [sysPwrokDeassert]

@[simp] theorem kept_takeNumber (l p : Nat) (s : State) : (takeNumber l p s).kept = s.kept := by simp [takeNumber]

@[simp] theorem kept_bootDie (ok router : Nat → Bool) (s : State) (p : Nat) :
    (bootDie ok router s p).kept = s.kept := by
  simp [bootDie]

@[simp] theorem kept_bootRow (ok router : Nat → Bool) (s : State) (m : Nat) :
    (bootRow ok router s m).kept = s.kept := by
  simp only [bootRow]
  split <;> simp

@[simp] theorem kept_diesBoot (answered passed router : BitVec 72) (s : State) :
    (diesBoot answered passed router s).kept = s.kept := by
  simp [diesBoot]

@[simp] theorem kept_bootAnswerTimeout (p : Nat) (s : State) : (bootAnswerTimeout p s).kept = s.kept := by
  simp [bootAnswerTimeout]

@[simp] theorem kept_carry (n p : Nat) (alt : Bool) (rate : Nat) (s : State) :
    (carry n p alt rate s).kept = s.kept := by
  simp [carry]

@[simp] theorem kept_engineUp (n rate : Nat) (primary alternate : Bool) (s : State) :
    (engineUp n rate primary alternate s).kept = s.kept := by
  simp [engineUp]

@[simp] theorem kept_engineBringup (n vendor device caps : Nat)
    (primary alternate primaryRepair alternateRepair : Bool) (s : State) :
    (engineBringup n vendor device caps primary alternate primaryRepair alternateRepair s).kept = s.kept := by
  simp [engineBringup]

@[simp] theorem kept_memoryFail (trained : Nat → Bool) (readouts : Bytes) (s : State) (p : Nat) :
    (memoryFail trained readouts s p).kept = s.kept := by
  simp only [memoryFail]
  (repeat' split) <;> simp

@[simp] theorem kept_memoryBoot (trained : BitVec 72) (readouts : Bytes) (s : State) :
    (memoryBoot trained readouts s).kept = s.kept := by
  simp [memoryBoot]

@[simp] theorem kept_bootPacket (pkt : Bytes) (s : State) : (bootPacket pkt s).kept = s.kept := by
  simp only [bootPacket]
  (repeat' split) <;> simp

@[simp] theorem kept_bootDoorbell (pkt : Option Bytes) (s : State) : (bootDoorbell pkt s).kept = s.kept := by
  unfold bootDoorbell
  (repeat' split) <;> simp

@[simp] theorem kept_keepFirmware (img : Bytes) (s : State) : (keepFirmware img s).kept = s.kept := by
  simp [keepFirmware]

@[simp] theorem kept_firmwareLoad (img : Bytes) (s : State) : (firmwareLoad img s).kept = s.kept := by
  unfold firmwareLoad
  (repeat' split) <;> simp

/-- PROVISION writes one-time storage where nothing has written it (R393). -/
theorem next_provision (s : State) : s.kept.Next (provision s).kept ∨
    s.crucible.otp = none ∧ ∃ o, (provision s).kept = { s.kept with otp := o } := by
  unfold provision
  split
  · exact .inl (.of_eq rfl)
  · split
    · exact .inl (.of_eq (by simp))
    · next fresh =>
      refine .inr ⟨by simpa [State.provisioned] using fresh, ?_⟩
      rw [kept_coldStart, kept_answer, kept_mk]
      exact ⟨_, rfl⟩

@[simp] theorem kept_imageWrite (boot : Bool) (c : CmdId) (img : Bytes) (s : State) :
    (imageWrite boot c img s).kept = s.kept :=
  kept_onCmd _ _ _ fun x s => by
    dsimp only
    (repeat' split) <;> simp

/-! ## What follows a command at a die -/

@[simp] theorem kept_jobGo (s : State) (j : Nat) : (jobGo s j).kept = s.kept := by simp [jobGo]

@[simp] theorem kept_jobsGo (s : State) : (jobsGo s).kept = s.kept := by simp [jobsGo]

@[simp] theorem kept_keepRecords (p l : Nat) (old : Die) (s : State) : (keepRecords p l old s).kept = s.kept := by
  simp [keepRecords]

@[simp] theorem kept_faultsGo (p : Nat) (old : Die) (s : State) : (faultsGo p old s).kept = s.kept := by simp [faultsGo]

@[simp] theorem kept_transferGo (p : Nat) (old : Die) (s : State) : (transferGo p old s).kept = s.kept := by
  simp [transferGo]

@[simp] theorem kept_wornGo (p : Nat) (old : Die) (s : State) : (wornGo p old s).kept = s.kept := by simp [wornGo]

@[simp] theorem kept_afterDie (p : Nat) (old : Die) (s : State) : (afterDie p old s).kept = s.kept := by
  simp only [afterDie]
  split <;> simp

@[simp] theorem kept_atDie (s : State) (p : PDie) {f : State → State} (h : ∀ s, (f s).kept = s.kept) :
    (s.atDie p f).kept = s.kept := by
  simp [State.atDie, h]

@[simp] theorem kept_atActive (s : State) (p : PDie) {f : State → State} (h : ∀ s, (f s).kept = s.kept) :
    (s.atActive p f).kept = s.kept := by
  simp [State.atActive, kept_atDie s p h]

@[simp] theorem kept_onDie (s : State) (p : PDie) (f : Die → Die) : (s.onDie p f).kept = s.kept :=
  kept_atActive s p fun s => kept_modDie s p f

@[simp] theorem kept_sendPort (s : State) (p : PDie) (f : Die → Die) : (s.sendPort p f).kept = s.kept := by
  simp [State.sendPort]

@[simp] theorem kept_powered (s : State) {f : State → State} (h : ∀ s, (f s).kept = s.kept) :
    (s.powered f).kept = s.kept := by
  simp [State.powered, h]

/-! ## The mailbox -/

@[simp] theorem kept_mbxAnswer (f : FnId) (st : Status) (resp : List Nat) (s : State) :
    (mbxAnswer f st resp s).kept = s.kept := by
  simp [mbxAnswer]

theorem kept_mbx (f : FnId) (op : Nat) {k : Fn → State → State} (s : State) (h : ∀ x s, (k x s).kept = s.kept) :
    (mbx f op k s).kept = s.kept := by
  simp [mbx, h]

@[simp] theorem kept_mbxEnd (f : FnId) (st : Status) (s : State) : (mbxEnd f st s).kept = s.kept := by simp [mbxEnd]

@[simp] theorem kept_registerIn (f : FnId) (i : Nat) (x : Fn) (s : State) : (registerIn f i x s).kept = s.kept := by
  simp only [registerIn]
  (repeat' split) <;> simp

@[simp] theorem kept_registerRing (f : FnId) (s : State) : (registerRing f s).kept = s.kept :=
  kept_mbx _ _ _ fun x s => by simp

@[simp] theorem kept_unregisterRing (f : FnId) (s : State) : (unregisterRing f s).kept = s.kept :=
  kept_mbx _ _ _ fun x s => by simp

@[simp] theorem kept_mapWindow (f : FnId) (s : State) : (mapWindow f s).kept = s.kept :=
  kept_mbx _ _ _ fun x s => by simp

@[simp] theorem kept_unmapWindow (f : FnId) (s : State) : (unmapWindow f s).kept = s.kept :=
  kept_mbx _ _ _ fun x s => by simp

@[simp] theorem kept_queryUndelivered (f : FnId) (s : State) : (queryUndelivered f s).kept = s.kept :=
  kept_mbx _ _ _ fun x s => by (repeat' split) <;> simp

@[simp] theorem kept_redeliver (f : FnId) (s : State) : (redeliver f s).kept = s.kept :=
  kept_mbx _ _ _ fun x s => by
    dsimp only
    (repeat' split) <;> simp

@[simp] theorem kept_discardUndelivered (f : FnId) (s : State) : (discardUndelivered f s).kept = s.kept :=
  kept_mbx _ _ _ fun x s => by simp

@[simp] theorem kept_readReg (f : FnId) (s : State) : (readReg f s).kept = s.kept :=
  kept_mbx _ _ _ fun x s => by simp

@[simp] theorem kept_elsRelease (f : FnId) (s : State) : (elsRelease f s).kept = s.kept :=
  kept_mbx _ _ _ fun x s => by simp

@[simp] theorem kept_setRecovery (j : Nat) (auto export_ : Bool) (partner store parison eval_ mib kib rod : Nat)
    (s : State) :
    (setRecovery j auto export_ partner store parison eval_ mib kib rod s).kept = s.kept := by
  simp [setRecovery]

@[simp] theorem kept_writeRods (j : Nat) (s : State) : (writeRods j s).kept = s.kept := by
  unfold writeRods
  split <;> simp

@[simp] theorem kept_recoverySet (f : FnId) (s : State) : (recoverySet f s).kept = s.kept :=
  kept_mbx _ _ _ fun x s => by simp

@[simp] theorem kept_mbxDoorbell (f : FnId) (v : Nat) (s : State) : (mbxDoorbell f v s).kept = s.kept := by
  simp [mbxDoorbell]

/-! ## The fetch of a command -/

@[simp] theorem kept_slotChk (f : FnId) (q : BitVec 2) (e : Entry) (s : State) :
    (slotChk f q e s).2.2.kept = s.kept := by
  have chk := kept_winChk f e.result (64 + roundUp e.resultLen 32) (s.queueWorld f q.toNat) true true s
  unfold slotChk
  dsimp only
  (repeat' split) <;> simp_all

@[simp] theorem kept_startCommand (f : FnId) (q : BitVec 2) (e : Entry) (payload : Bytes) (s : State) :
    (startCommand f q e payload s).kept = s.kept := by
  simp only [startCommand]
  (repeat' split) <;> simp

@[simp] theorem kept_commandFetch (f : FnId) (q : BitVec 2) (bs : Bytes) (payload : Option Bytes) (s : State) :
    (commandFetch f q bs payload s).kept = s.kept := by
  simp only [commandFetch]
  (repeat' split) <;> simp

/-! ## From FW_START to READY -/

@[simp] theorem kept_warmDie (trained : Nat → Bool) (s : State) (p : Nat) : (warmDie trained s p).kept = s.kept := by
  simp only [warmDie]
  (repeat' split) <;> simp

@[simp] theorem kept_warmSpare (trained : Nat → Bool) (s : State) (p : Nat) :
    (warmSpare trained s p).kept = s.kept := by
  simp only [warmSpare]
  (repeat' split) <;> simp

@[simp] theorem kept_warmFail (s : State) (p : Nat) : (warmFail s p).kept = s.kept := by simp [warmFail]

@[simp] theorem kept_warmEngine (primary alternate primaryRepair alternateRepair : BitVec 8) (s : State) (n : Nat) :
    (warmEngine primary alternate primaryRepair alternateRepair s n).kept = s.kept := by
  simp [warmEngine]

@[simp] theorem kept_cutHost (s : State) : (cutHost s).kept = s.kept := by simp [cutHost]

@[simp] theorem kept_warmStart (retrained : BitVec 72) (primary alternate primaryRepair alternateRepair : BitVec 8)
    (s : State) :
    (warmStart retrained primary alternate primaryRepair alternateRepair s).kept = s.kept := by
  simp [warmStart]

@[simp] theorem kept_applySetpoint (n pRow total : Nat) (s : State) : (applySetpoint n pRow total s).kept = s.kept := by
  simp [applySetpoint]

@[simp] theorem kept_fwStart (s : State) : (fwStart s).kept = s.kept := by simp [fwStart]

@[simp] theorem kept_trainPort (s : State) (n : Nat) : (trainPort s n).kept = s.kept := by
  unfold trainPort
  split <;> simp

@[simp] theorem kept_linksBoot (views : List ModuleView) (s : State) : (linksBoot views s).kept = s.kept := by
  simp [linksBoot]

@[simp] theorem kept_autostartBegin (s : State) : (autostartBegin s).kept = s.kept := by simp [autostartBegin]

@[simp] theorem kept_afterWarm (s : State) : (afterWarm s).kept = s.kept := by simp [afterWarm]

@[simp] theorem kept_ready (s : State) : (ready s).kept = s.kept := by simp [ready]

@[simp] theorem kept_autostartFails (st : Status) (s : State) : (autostartFails st s).kept = s.kept := by
  simp [autostartFails]

@[simp] theorem kept_askStore (p j : Nat) (xs : List LehrPart) (s : State) : (askStore p j xs s).kept = s.kept := by
  simp [askStore]

@[simp] theorem kept_placePrograms (es : List (Nat × Nat × Nat)) (bs : Bytes) (s : State) :
    (placePrograms es bs s).2.kept = s.kept := by
  induction es generalizing bs s with
  | nil => rfl
  | cons e es ih =>
    simp only [placePrograms]
    (repeat' split) <;> simp [ih]

@[simp] theorem kept_autostartPrograms (j : Nat) (m : Bytes) (programs : Option Bytes) (s : State) :
    (autostartPrograms j m programs s).2.kept = s.kept := by
  simp only [autostartPrograms]
  (repeat' split) <;> simp

@[simp] theorem kept_autostartFetch (manifest programs : Option Bytes) (s : State) :
    (autostartFetch manifest programs s).2.kept = s.kept := by
  simp only [autostartFetch]
  (repeat' split) <;> simp

@[simp] theorem kept_autostartGo (j : Nat) (s : State) : (autostartGo j s).kept = s.kept := by simp [autostartGo]

@[simp] theorem kept_dropJob (j : Nat) (s : State) : (dropJob j s).kept = s.kept := by simp [dropJob]

@[simp] theorem kept_autostartLoad (m : Bytes) (objects : List Bytes) (s : State) :
    (autostartLoad m objects s).kept = s.kept := by
  simp only [autostartLoad]
  (repeat' split) <;> simp

@[simp] theorem kept_autostart (m bs : Option Bytes) (objects : List Bytes) (s : State) :
    (autostart m bs objects s).kept = s.kept := by
  have fetched := kept_autostartFetch m bs s
  unfold autostart
  (repeat' split) <;> simp_all

@[simp] theorem kept_autostartPortTimeout (s : State) : (autostartPortTimeout s).kept = s.kept := by
  simp [autostartPortTimeout]

/-! ## Register writes -/

@[simp] theorem kept_bootPageWrite (off v : Nat) (s : State) : (bootPageWrite off v s).kept = s.kept := by
  simp only [bootPageWrite]
  split <;> simp

@[simp] theorem kept_puntyWrite (off v : Nat) (s : State) : (puntyWrite off v s).kept = s.kept := by
  unfold puntyWrite
  (repeat' split) <;> simp

@[simp] theorem kept_eventWrite (f v : Nat) (s : State) : (eventWrite f v s).kept = s.kept := by simp [eventWrite]

@[simp] theorem kept_fnWrite (f : FnId) (off v : Nat) (s : State) : (fnWrite f off v s).kept = s.kept := by
  simp [fnWrite]

@[simp] theorem kept_keepRegions (p off : Nat) (s : State) : (keepRegions p off s).kept = s.kept := by
  unfold keepRegions
  (repeat' split) <;> simp

@[simp] theorem kept_dieRegWrite (p : PDie) (w : Writer) (off v : Nat) (s : State) :
    (dieRegWrite p w off v s).kept = s.kept := by
  simp [dieRegWrite, kept_atDie]

@[simp] theorem kept_registerWrite (space : RegSpace) (w : Writer) (off v : Nat) (s : State) :
    (registerWrite space w off v s).kept = s.kept := by
  unfold registerWrite
  split <;> simp

/-! ## The idle step -/

/-- An idle step moves the clock on by one period (R48, log 1). -/
theorem kept_tick (s : State) : (tick s).kept = { s.kept with clock := s.mgtclk + 1 } := by
  have stepped : (fillsGo ((List.range 8).foldl pollRail { s with mgtclk := s.mgtclk + 1 })).kept =
      { s.kept with clock := s.mgtclk + 1 } := by
    rw [kept_fillsGo, kept_foldl kept_pollRail]
    rfl
  refine (kept_foldl (fun s p => by simp) _ _).trans ?_
  split
  · exact (kept_modDies ..).trans stepped
  · exact stepped

/-! ## Every command -/

theorem Kept.Next.of_next {s t u : State} (h : s.kept.Next u.kept)
    (e : (Host.Outcome.next u : Host.Outcome State Fault Refusal) = .next t) : s.kept.Next t.kept := by
  cases e
  exact h

theorem next_powered (s : State) {f : State → State} (h : s.kept.Next (f s).kept) :
    s.kept.Next (s.powered f).kept := by
  unfold State.powered
  split
  · exact h
  · exact .of_eq rfl

/-- Power-up sets every pace to 16 slots (R44). -/
theorem next_vddAonApply (s : State) : s.kept.Next (vddAonApply s).kept := by
  rw [kept_vddAonApply]
  have sixteen : 1 ≤ 16 ∧ 16 ≤ 16 := by decide
  exact ⟨rfl, rfl, fun _ => ⟨sixteen, fun _ => sixteen⟩⟩

/-- PROVISION aside, a command keeps the queue and one-time storage, and the paces in range. -/
theorem next_exec {i : Instr} {s t : State} (h : i ≠ .provision) (e : exec i s = .next t) : s.kept.Next t.kept := by
  cases i
  case provision => exact absurd rfl h
  case vddAonApply => exact (next_vddAonApply s).of_next e
  case packageExcursion m => exact (next_powered s (next_packageExcursion ..)).of_next e
  case paceLowerTick src => exact (next_powered s (next_paceLowerTick ..)).of_next e
  case paceRaiseTick src => exact (next_powered s (next_paceRaiseTick ..)).of_next e
  all_goals
    refine Kept.Next.of_next (.of_eq ?_) e
    simp

/-- PROVISION keeps all but one-time storage, and writes that where nothing has written it. -/
theorem next_exec_provision {s t : State} (e : exec .provision s = .next t) :
    s.kept.Next t.kept ∨ s.crucible.otp = none ∧ ∃ o, t.kept = { s.kept with otp := o } := by
  cases e
  exact next_provision s

end Sys2Proof.Machine
end

section
/-! PROOFS. The whole block: one-time storage, the queue, the paces, and a step. -/

namespace Sys2Proof.Machine

/-- Settles O54: every command but PROVISION keeps one-time storage (`next_exec`), and PROVISION writes it only where
it is unwritten. -/
theorem oneTimeStorage : Obligations.OneTimeStorage := by
  unfold Obligations.OneTimeStorage
  intro i s t e
  by_cases prov : i = .provision
  · subst prov
    rcases next_exec_provision e with next | ⟨fresh, -⟩
    · exact .inl next.otp
    · exact .inr ⟨rfl, fresh⟩
  · exact .inl (next_exec prov e).otp

/-- Settles O59: the queue belongs to the part of the state that every command keeps. -/
theorem queueIsTheSenders : Obligations.QueueIsTheSenders := by
  unfold Obligations.QueueIsTheSenders
  intro i s t e
  by_cases prov : i = .provision
  · subst prov
    rcases next_exec_provision e with next | ⟨-, o, kept⟩
    · exact next.queue
    · exact congrArg Kept.queue kept
  · exact (next_exec prov e).queue

theorem exec_paced {i : Instr} {s t : State} (e : exec i s = .next t) (p : s.kept.paced) : t.kept.paced := by
  by_cases prov : i = .provision
  · subst prov
    rcases next_exec_provision e with next | ⟨-, o, kept⟩
    · exact next.paced p
    · rw [kept]
      exact p
  · exact (next_exec prov e).paced p

theorem Kept.paced_withClock {k : Kept} {c : BitVec 64} : { k with clock := c }.paced ↔ k.paced := Iff.rfl

/-- Settles O58: what a step runs keeps the paces in range (`exec_paced`),
and an idle step changes none (`kept_tick`). -/
theorem pacesStayInRange : Obligations.PacesStayInRange := by
  unfold Obligations.PacesStayInRange
  intro inv s t paced e
  change s.kept.paced at paced
  change t.kept.paced
  unfold step at e
  split at e
  · exact exec_paced (s := { s with pending := _ }) e paced
  · rw [← Host.Outcome.next.inj e, kept_tick]
    exact Kept.paced_withClock.mpr paced

/-- Settles O56: by the definition of a step; an idle step moves the clock and keeps the queue (`kept_tick`). -/
theorem stepTakesFront : Obligations.StepTakesFront := by
  unfold Obligations.StepTakesFront
  intro s
  refine ⟨fun c rest front => by simp [step, front], fun idle => ⟨tick s, by simp [step, idle], ?_⟩⟩
  have kept := kept_tick s
  generalize tick s = t at kept ⊢
  exact ⟨congrArg Kept.clock kept, (congrArg Kept.queue kept).trans idle⟩

end Sys2Proof.Machine
end

section
/-! PROOFS. Threads: the issue of an op, the control and scalar ops, the events of a thread, and what a finished long op
leaves of its thread. -/

namespace Sys2Proof.Machine

/-! ## Commands at an active die -/

/-- The die with its patrol period at `n` (R285). -/
def Die.patrolAt (d : Die) (n : Nat × Nat) : Die := { d with patrol := n }

/-- What a command does at an active die may be shown on the die with its patrol period at any point. -/
theorem onDie_patrol {s : State} {p : PDie} {f g : Die → Die} (act : (s.die p).run = .active)
    (e : ∀ n, f ((s.die p).patrolAt n) = g ((s.die p).patrolAt n)) : s.onDie p f = s.ran p g := by
  obtain ⟨n, moved⟩ := patrolNow_eq (s.die p)
  exact onDie_eq s p f g act (by rw [moved]; exact e n)

theorem next_onDie {s : State} {p : PDie} {f g : Die → Die} (act : (s.die p).run = .active)
    (e : ∀ n, f ((s.die p).patrolAt n) = g ((s.die p).patrolAt n)) :
    (Host.Outcome.next (s.onDie p f) : Host.Outcome State Fault Refusal) = .next (s.ran p g) :=
  congrArg Host.Outcome.next (onDie_patrol act e)

/-! ## The issue of an op (R159, R161, R192) -/

theorem mod_two_pow_48 (v : Nat) : v % 2 ^ 32 + (v / 2 ^ 32 % 2 ^ 16) <<< 32 = v % 2 ^ 48 := by
  rw [Nat.shiftLeft_eq]
  omega

/-- A 48-bit count reads as stored. -/
theorem Die.reg48_setReg48 (d : Die) (o v : Nat) : (d.setReg48 o v).reg48 o = v % 2 ^ 48 := by
  have low : (d.setReg48 o v).reg o = v % 2 ^ 32 := by
    have ne : o ≠ o + 4 := by omega
    rw [Die.setReg48, Die.reg_put_ne _ _ _ _ ne, Die.reg_setReg, if_pos rfl, Nat.mod_mod]
  have high : bitsOf ((d.setReg48 o v).reg (o + 4)) 15 0 = v / 2 ^ 32 % 2 ^ 16 := by
    have field := Die.get_put_same (d.setReg o (v % 2 ^ 32)) ⟨o + 4, 15, 0⟩ (v >>> 32) (by simp)
    simpa [Die.get, Die.setReg48, Nat.shiftRight_eq_div_pow] using field
  exact (congrArg₂ (fun x y => x + y <<< 32) low high).trans (mod_two_pow_48 v)

/-- Settles O1: the contexts after an issue are `issued_thread`, the registers `issued_reg`. -/
theorem issueAdvancesThread : Obligations.IssueAdvancesThread := by
  unfold Obligations.IssueAdvancesThread
  intro d t
  have own : (issued d t).thread t = { d.thread t with pc := (d.thread t).pc + 1, st := .ready, hold := .none } := by
    rw [issued_thread, if_pos rfl]
  refine ⟨by rw [own], by rw [own], by rw [own], by rw [own], by rw [own],
    fun u other => by rw [issued_thread, if_neg other], ?_, fun o lo hi => issued_reg d t o lo hi, rfl⟩
  rw [issued, Die.add48, Die.reg48_setReg48, Nat.mod_mod]
  rfl

/-! ## Scalar ops (R167, R168) -/

theorem spaceChk_register {w : OpWord} {th : Thread} (space : bitOf w.x.toNat 5 = true)
    (inside : inBlocks (4 * opField w.x 28 6) = true) : spaceChk w th = none := by
  simp [spaceChk, spaceAddr, space, inside]

theorem spaceChk_scratchpad {w : OpWord} {th : Thread} (space : bitOf w.x.toNat 5 = false)
    (inside : 8 * (opField w.x 28 6 + (oregOff th w).toNat) + 8 ≤ spdBytes) : spaceChk w th = none := by
  simp only [spaceChk, spaceAddr, space, Bool.false_eq_true, if_false, ite_eq_right_iff]
  omega

theorem portWords_double (a : Nat) : portWords (8 * a) 8 = 1 := by
  rw [portWords, if_neg (by decide)]
  omega

/-- A write of one aligned 64-bit word covers its two 32-bit words whole. -/
theorem spdWrite_double (client a v : Nat) (d : Die) : spdWrite client (8 * a) (leBytes 8 v) d =
    { spdGrant client 1 d with
      spdMarks := tabDrop d.spdMarks (2 * a) (2 * a + 2), spd := tabPut zeroByte d.spd (8 * a) (leBytes 8 v) } := by
  have head : 8 * a % 4 = 0 := by omega
  have tail : (8 * a + 8) % 4 = 0 := by omega
  have first : (8 * a + 3) / 4 = 2 * a := by omega
  have last : (8 * a + 8) / 4 = 2 * a + 2 := by omega
  simp [spdWrite, leBytes_length, head, tail, portWords_double, spdClearMarks, first, last, spdGrant, Die.count,
    Die.setReg]

section
variable {t : ThreadId} {w : OpWord} {d : Die}

theorem dieSload_register (pass : Passes d t 0x0A w [(28, 0)]) (space : bitOf w.x.toNat 5 = true)
    (inside : inBlocks (4 * opField w.x 28 6) = true) : dieSload t w d = (issued d t).modThread t fun th =>
      th.setS (opField w.x 4 0) (BitVec.ofNat 64 (dieRead (issued d t) (4 * opField w.x 28 6))) := by
  rw [dieSload, issueOp_passes pass (spaceChk_register space inside)]
  simp [space, spaceAddr, Die.modThread]

theorem dieSload_scratchpad (pass : Passes d t 0x0A w [(28, 0)]) (space : bitOf w.x.toNat 5 = false)
    (inside : 8 * (opField w.x 28 6 + (oregOff (d.thread t) w).toNat) + 8 ≤ spdBytes)
    (good : spdBad d (8 * (opField w.x 28 6 + (oregOff (d.thread t) w).toNat)) 8 = []) :
    dieSload t w d = (spdGrant 4 1 (issued d t)).modThread t fun th => th.setS (opField w.x 4 0)
      (BitVec.ofNat 64 (leNat (tabSlice zeroByte d.spd (8 * (opField w.x 28 6 + (oregOff (d.thread t) w).toNat)) 8))) := by
  have read := spdRead_unmarked (d := issued d t) 4 good
  rw [dieSload, issueOp_passes pass (spaceChk_scratchpad space inside)]
  simp only [space, spaceAddr, Bool.false_eq_true, if_false, read, portWords_double]
  rfl

theorem dieSstore_register (pass : Passes d t 0x0B w [(28, 0)]) (space : bitOf w.x.toNat 5 = true)
    (inside : inBlocks (4 * opField w.x 28 6) = true) : dieSstore t w d =
      dieWrite false false false (4 * opField w.x 28 6)
        (((d.thread t).sreg (opField w.x 4 0)).toNat % 2 ^ 32) (issued d t) := by
  rw [dieSstore, issueOp_passes pass (spaceChk_register space inside)]
  simp [space, spaceAddr]

theorem dieSstore_scratchpad (pass : Passes d t 0x0B w [(28, 0)]) (space : bitOf w.x.toNat 5 = false)
    (inside : 8 * (opField w.x 28 6 + (oregOff (d.thread t) w).toNat) + 8 ≤ spdBytes) :
    dieSstore t w d = spdWrite 4 (8 * (opField w.x 28 6 + (oregOff (d.thread t) w).toNat))
      (leBytes 8 ((d.thread t).sreg (opField w.x 4 0)).toNat) (issued d t) := by
  rw [dieSstore, issueOp_passes pass (spaceChk_scratchpad space inside)]
  simp [space, spaceAddr]

theorem dieSstore_double (pass : Passes d t 0x0B w [(28, 0)]) (space : bitOf w.x.toNat 5 = false)
    (inside : 8 * (opField w.x 28 6 + (oregOff (d.thread t) w).toNat) + 8 ≤ spdBytes) :
    let a := opField w.x 28 6 + (oregOff (d.thread t) w).toNat
    dieSstore t w d = { spdGrant 4 1 (issued d t) with
      spdMarks := tabDrop d.spdMarks (2 * a) (2 * a + 2)
      spd := tabPut zeroByte d.spd (8 * a) (leBytes 8 ((d.thread t).sreg (opField w.x 4 0)).toNat) } :=
  (dieSstore_scratchpad pass space inside).trans (spdWrite_double ..)

end

theorem dieRdtime_passes {t : ThreadId} {w : OpWord} {d : Die} (pass : Passes d t 0x0C w [(4, 0)]) :
    dieRdtime t w d = (issued d t).modThread t fun th => th.setS (opField w.x 4 0) (d.rrc.setWidth 64) := by
  rw [dieRdtime, shortOp_passes pass rfl, issued_rrc]
  rfl

/-- Settles O2: each op passes its checks and goes on to its own effect (`shortOp_passes`, `dieSload_register` and the
lemmas beside it). -/
theorem scalarOpsComplete : Obligations.ScalarOpsComplete := by
  unfold Obligations.ScalarOpsComplete
  intro p t w s r a
  refine ⟨fun pass => ?_, fun pass fn => ?_, fun pass => ?_, fun pass space inside => ?_,
    fun pass space inside good => ?_, fun pass space inside => ?_, fun pass space inside => ?_⟩ <;>
    refine next_onDie (active_of_canIssue pass.1) fun n => ?_
  · exact shortOp_passes pass rfl
  · exact shortOp_passes pass (if_neg (Nat.not_lt.mpr fn))
  · exact dieRdtime_passes pass
  · exact dieSload_register pass space inside
  · exact dieSload_scratchpad pass space inside good
  · exact dieSstore_register pass space inside
  · exact dieSstore_double pass space inside

/-- Settles O3: each function by what the word operation says of numbers, signed numbers or bits. -/
theorem aluFunctions : Obligations.AluFunctions := by
  unfold Obligations.AluFunctions
  intro a b
  have signedMin (x y : Word64) : (if x.toInt ≤ y.toInt then x else y).toInt = min x.toInt y.toInt := by
    split <;> omega
  have signedMax (x y : Word64) : (if x.toInt ≤ y.toInt then y else x).toInt = max x.toInt y.toInt := by
    split <;> omega
  refine ⟨BitVec.toNat_add a b, ?_, fun i => BitVec.getLsbD_and, fun i => BitVec.getLsbD_or,
    fun i => BitVec.getLsbD_xor, ?_, ?_, ?_, BitVec.toNat_mul a b, signedMin a b, signedMax a b, ?_⟩
  · rw [aluFn, BitVec.toNat_sub, Nat.add_comm]
  · rw [aluFn, BitVec.toNat_shiftLeft, Nat.shiftLeft_eq]
  · rw [aluFn, BitVec.toNat_ushiftRight, Nat.shiftRight_eq_div_pow]
  · rw [aluFn, BitVec.toInt_sshiftRight, Int.shiftRight_eq_div_pow]
    simp
  · simp only [aluFn]
    split <;> rfl

/-! ## Control ops (R161, R166, R167) -/

section
variable {t : ThreadId} {w : OpWord} {d : Die}

/-- LOOP decrements its scalar, and goes on past the loop from 1. -/
theorem dieLoop_passes (pass : Passes d t 0x04 w [(21, 0)]) : dieLoop t w d = (issued d t).modThread t fun th =>
    let th' := th.setS (opField w.x 21 17) (th.sreg (opField w.x 21 17) - 1)
    if th.sreg (opField w.x 21 17) = 1 then th' else { th' with pc := BitVec.ofNat 17 (opField w.x 16 0) } := by
  rw [dieLoop, shortOp_passes pass rfl, Die.modThread]
  simp only [ne_eq, sub_eq_zero, ite_not]

/-- END frees a thread with no long op outstanding, and leaves another ENDING. -/
theorem dieEnd_passes (pass : Passes d t 0x05 w []) : dieEnd t w d = (issued d t).modThread t fun th =>
    { th with st := if d.opsOf t = [] then .free else .ending } := by
  rw [dieEnd, issueOp_passes pass rfl]
  have ops (th : Thread) : ((issued d t).setThread t th).opsOf t = d.opsOf t := rfl
  simp only [settleThread, Die.thread_setThread, if_true, ops, List.isEmpty_iff, Die.modThread]
  split <;> simp

theorem dieWait_ready (pass : Passes d t 0x01 w [(25, 0)]) (ready : (d.thread t).tokensReady w.wait = true) :
    dieWait t w d = (issued d t).modThread t fun th =>
      finishWait th (BitVec.ofNat 5 (opField w.x 4 0)) (bitOf w.x.toNat 5) w.wait := by
  rw [dieWait, shortOp_passes pass rfl, issued_tokensReady, if_pos ready]
  rfl

theorem dieWait_unready (pass : Passes d t 0x01 w [(25, 0)]) (unready : (d.thread t).tokensReady w.wait = false) :
    dieWait t w d = (issued d t).modThread t fun th =>
      { th with
        st := .waitToken
        hold := .wait (BitVec.ofNat 5 (opField w.x 4 0)) (bitOf w.x.toNat 5) (wHoe w)
          (BitVec.ofNat 20 (opField w.x 25 6)) d.rrc w.wait } := by
  rw [dieWait, shortOp_passes pass rfl, issued_tokensReady, unready, issued_rrc]
  rfl

theorem dieFence_passes (pass : Passes d t 0x07 w [(0, 0)]) : dieFence t w d = (issued d t).modThread t fun th =>
    if d.opsOf t = [] then th else { th with st := .waitToken, hold := .fence } := by
  rw [dieFence, shortOp_passes pass rfl]
  simp only [issued_opsOf, List.isEmpty_iff]
  rfl

theorem dieSignal_arms (pass : Passes d t 0x02 w [(15, 0)]) (fire : bitOf w.x.toNat 15 = false)
    (inUse : (d.thread (BitVec.ofNat 11 (opField w.x 10 0))).st ≠ .free)
    (stays : (d.thread (BitVec.ofNat 11 (opField w.x 10 0))).st ≠ .ending)
    (room : (d.thread (BitVec.ofNat 11 (opField w.x 10 0))).cnt (opField w.x 14 11) ≠ 15) :
    dieSignal t w d = settle ((issued d t).modThread (BitVec.ofNat 11 (opField w.x 10 0)) fun th =>
      th.setCnt (opField w.x 14 11) (th.cnt (opField w.x 14 11) + 1)) := by
  rw [dieSignal, issueOp_passes pass (if_neg (by simp [inUse, stays, fire]))]
  rw [fire, decide_eq_false room]
  rfl

theorem dieSignal_fires (pass : Passes d t 0x02 w [(15, 0)]) (fire : bitOf w.x.toNat 15 = true)
    (inUse : (d.thread (BitVec.ofNat 11 (opField w.x 10 0))).st ≠ .free)
    (stays : (d.thread (BitVec.ofNat 11 (opField w.x 10 0))).st ≠ .ending)
    (room : (d.thread (BitVec.ofNat 11 (opField w.x 10 0))).cnt (opField w.x 14 11) ≠ 0) :
    dieSignal t w d = settle ((issued d t).modThread (BitVec.ofNat 11 (opField w.x 10 0)) fun th =>
      th.setCnt (opField w.x 14 11) (th.cnt (opField w.x 14 11) - 1)) := by
  rw [dieSignal, issueOp_passes pass (if_neg (not_or.mpr ⟨inUse, not_or.mpr ⟨stays, fun none => room none.2⟩⟩)), fire]
  rfl

end

/-- Settles O4: each op passes its checks and goes on to its own effect (`shortOp_passes`, `dieLoop_passes`,
`dieEnd_passes`, `dieSignal_passes`). -/
theorem threadOpsComplete : Obligations.ThreadOpsComplete := by
  unfold Obligations.ThreadOpsComplete
  intro p t w s u k target sa
  refine ⟨fun pass => ?_, fun pass => ?_, fun pass cond => ?_, fun pass => ?_, fun pass => ?_, fun pass ready => ?_,
    fun pass unready => ?_, fun pass => ?_, fun pass fire inUse stays room => ?_,
    fun pass fire inUse stays room => ?_⟩ <;>
    refine next_onDie (active_of_canIssue pass.1) fun n => ?_
  · exact shortOp_passes pass rfl
  · exact shortOp_passes pass rfl
  · exact shortOp_passes pass (if_neg (Nat.not_lt.mpr cond))
  · exact dieLoop_passes pass
  · exact dieEnd_passes pass
  · exact dieWait_ready pass ready
  · exact dieWait_unready pass unready
  · exact dieFence_passes pass
  · exact dieSignal_arms pass fire inUse stays room
  · exact dieSignal_fires pass fire inUse stays room

/-! ## Rejected ops (R156 to R158) -/

/-- A set bit of an op word whose fields cover none is reserved. -/
theorem reservedSet_of_ne_zero {w : OpWord} (bits : w.x ≠ 0) : reservedSet w [] = true := by
  have : w.x.toNat ≠ 0 := fun zero => bits (BitVec.eq_of_toNat_eq (by simpa using zero))
  simp [reservedSet, fieldMask, Ne.symm this]

theorem issueOp_reserved {opcode : Nat} {t : ThreadId} {w : OpWord} {fields : List (Nat × Nat)}
    {chk : Die → Thread → Option Status} {go : Die → Thread → Die} {d : Die} (may : canIssue d t = true)
    (ready : preStall d t opcode w = false) (bits : reservedSet w fields = true) :
    issueOp opcode t w fields chk go d = reject d t opcode w .malformed := by
  simp [issueOp, may, ready, bits]

section
variable {t : ThreadId} {w : OpWord} {d : Die}

theorem dieNop_reserved (may : canIssue d t = true) (ready : preStall d t 0x00 w = false) (bits : w.x ≠ 0) :
    dieNop t w d = reject d t 0x00 w .malformed := by
  rw [dieNop, shortOp, issueOp_reserved may ready (reservedSet_of_ne_zero bits)]

theorem dieBranch_malformed (pass : Passes d t 0x03 w [(24, 0)]) (cond : 4 < opField w.x 24 22) :
    dieBranch t w d = reject d t 0x03 w .malformed := by
  rw [dieBranch, shortOp, issueOp_rejects pass (if_pos cond)]

theorem dieAlu_malformed (pass : Passes d t 0x09 w [(19, 0), (95, 64)]) (fn : 0xB < opField w.x 19 16) :
    dieAlu t w d = reject d t 0x09 w .malformed := by
  rw [dieAlu, shortOp, issueOp_rejects pass (if_pos fn)]

end

/-- Settles O5: the check that fails rejects the op (`dieNop_reserved` and the lemmas beside it), and `reject_eq` says
what that leaves. -/
theorem rejectedOpsReport : Obligations.RejectedOpsReport := by
  unfold Obligations.RejectedOpsReport
  intro p t w s no
  refine ⟨fun may ready bits => next_onDie (active_of_canIssue may) fun n => ?_,
    fun pass cond => next_onDie (active_of_canIssue pass.1) fun n => ?_,
    fun pass fn => next_onDie (active_of_canIssue pass.1) fun n => ?_⟩
  · exact dieNop_reserved (d := (s.die p).patrolAt n) may ready bits
  · exact dieBranch_malformed (d := (s.die p).patrolAt n) pass cond
  · exact dieAlu_malformed (d := (s.die p).patrolAt n) pass fn

/-! ## Events of a thread and of the program store (R160, R162, R167, R175, R176, R221) -/

section
variable {t : ThreadId} {d : Die}

/-- The held WAIT without `HOE` finishes with `TIMEOUT`. -/
theorem dieWaitTimeout_expires {sd : BitVec 5} {collect : Bool} {limit : BitVec 20} {since : BitVec 48}
    {mask : BitVec 16} (act : d.run = .active) (held : (d.thread t).hold = .wait sd collect false limit since mask)
    (some : limit ≠ 0) (runs : paused d (d.threadJob t).toNat = false) :
    dieWaitTimeout t d = d.modThread t fun th =>
      let th' := if collect then th.setS sd.toNat (collectWord th mask true) else th
      { th' with st := .ready, hold := .none, last := .timeout } := by
  simp only [dieWaitTimeout, held, some, runs, act, decide_false, Bool.or_self, Bool.false_eq_true, if_false, notOk,
    Die.thread_setThread, if_true, Die.setThread_setThread, Die.modThread, ne_eq, not_true_eq_false]

theorem dieStall_raises (on : rodUnitOn d = true) (waits : (d.thread t).st = .waitCredit)
    (blocked : d.flag (blockedReg t.toNat) 31 = true)
    (tag : d.reg (ccBase (d.get ⟨blockedReg t.toNat, 24, 16⟩) + 20) ≠ 0) (first : d.flag 0x50008 0 = false) :
    dieStall t d = ((d.setReg 0x5000C t.toNat).setFlag 0x50008 0).event 0x50000 := by
  simp [dieStall, on, waits, blocked, tag, first]

end

section
variable {d : Die} {v : Nat}

theorem ofNat_bitsOf_low (v n : Nat) :
    BitVec.ofNat (n + 1) (v % 2 ^ (n + 1)) = BitVec.ofNat (n + 1) (bitsOf v n 0) := by
  rw [bitsOf, Nat.shiftRight_zero, Nat.sub_zero]

/-- `GO` acts on the launch registers as the write leaves them. -/
theorem dieLaunch_goes (bits : bitsOf v 30 17 = 0) (go : bitOf v 31 = true) :
    dieLaunch true v d = (goLaunch (d.put ⟨0x30014, 16, 0⟩ v)).2 := by
  simp [dieLaunch, bits, go]

theorem goLaunch_put (d : Die) (v : Nat) : goLaunch (d.put ⟨0x30014, 16, 0⟩ v) =
    if threadsFree d (d.get ⟨0x30010, 10, 0⟩) (d.get ⟨0x30010, 21, 11⟩ + 1) then
      (true, launchThreads (d.get ⟨0x30010, 10, 0⟩) (d.get ⟨0x30010, 21, 11⟩ + 1) (BitVec.ofNat 17 (bitsOf v 16 0))
        (d.put ⟨0x30014, 16, 0⟩ v))
    else (false, (d.put ⟨0x30014, 16, 0⟩ v).setFlag 0x30004 1) := by
  have first : (d.put ⟨0x30014, 16, 0⟩ v).get ⟨0x30010, 10, 0⟩ = d.get ⟨0x30010, 10, 0⟩ :=
    Die.get_put_apart d v (by decide) (by decide) (.inl (by decide))
  have count : (d.put ⟨0x30014, 16, 0⟩ v).get ⟨0x30010, 21, 11⟩ = d.get ⟨0x30010, 21, 11⟩ :=
    Die.get_put_apart d v (by decide) (by decide) (.inl (by decide))
  have entry : (d.put ⟨0x30014, 16, 0⟩ v).get ⟨0x30014, 16, 0⟩ = v % 2 ^ 17 :=
    Die.get_put_same d ⟨0x30014, 16, 0⟩ v (by decide)
  rw [goLaunch, first, count, entry, ofNat_bitsOf_low v 16]
  rfl

theorem dieLaunch_starts (bits : bitsOf v 30 17 = 0) (go : bitOf v 31 = true)
    (free : threadsFree d (d.get ⟨0x30010, 10, 0⟩) (d.get ⟨0x30010, 21, 11⟩ + 1) = true) :
    dieLaunch true v d = launchThreads (d.get ⟨0x30010, 10, 0⟩) (d.get ⟨0x30010, 21, 11⟩ + 1)
      (BitVec.ofNat 17 (bitsOf v 16 0)) (d.put ⟨0x30014, 16, 0⟩ v) := by
  rw [dieLaunch_goes bits go, goLaunch_put, if_pos free]

theorem dieLaunch_occupied (bits : bitsOf v 30 17 = 0) (go : bitOf v 31 = true)
    (used : threadsFree d (d.get ⟨0x30010, 10, 0⟩) (d.get ⟨0x30010, 21, 11⟩ + 1) = false) :
    dieLaunch true v d = (d.put ⟨0x30014, 16, 0⟩ v).setFlag 0x30004 1 := by
  rw [dieLaunch_goes bits go, goLaunch_put, used]
  rfl

theorem dieProgLoad_starts (bits : bitsOf v 30 18 = 0) (count : bitsOf v 17 0 ≤ 131072) (go : bitOf v 31 = true)
    (free : progRefused d (d.get ⟨0x30024, 16, 0⟩) (bitsOf v 17 0) = false) :
    dieProgLoad true v d =
      let d' := d.put ⟨0x30028, 17, 0⟩ (bitsOf v 17 0)
      { d' with progLoad := some ⟨64 * d.get ⟨0x30020, 28, 0⟩, d.get ⟨0x30024, 16, 0⟩, bitsOf v 17 0⟩ } := by
  have n : (d.put ⟨0x30028, 17, 0⟩ (bitsOf v 17 0)).get ⟨0x30028, 17, 0⟩ = bitsOf v 17 0 :=
    (Die.get_put_same d ⟨0x30028, 17, 0⟩ _ (by decide)).trans (Nat.mod_eq_of_lt (Nat.mod_lt _ (Nat.two_pow_pos _)))
  have dst : (d.put ⟨0x30028, 17, 0⟩ (bitsOf v 17 0)).get ⟨0x30024, 16, 0⟩ = d.get ⟨0x30024, 16, 0⟩ :=
    Die.get_put_apart d _ (by decide) (by decide) (.inl (by decide))
  have src : (d.put ⟨0x30028, 17, 0⟩ (bitsOf v 17 0)).get ⟨0x30020, 28, 0⟩ = d.get ⟨0x30020, 28, 0⟩ :=
    Die.get_put_apart d _ (by decide) (by decide) (.inl (by decide))
  have free' : progRefused (d.put ⟨0x30028, 17, 0⟩ (bitsOf v 17 0)) (d.get ⟨0x30024, 16, 0⟩) (bitsOf v 17 0) = false :=
    free
  simp [dieProgLoad, bits, Nat.not_lt.mpr count, go, n, dst, src, free']

/-- The op words of a load that nothing refused and whose bytes carry no mark. -/
theorem progWords_unmarked (t : List Host.Cell) (src n ok : Nat) (all : ok = ceilDiv n 4) :
    progWords src n ok (tabSlice zeroByte t src (16 * n)) [] =
      tabulate n fun i => BitVec.ofNat 128 (leNat (tabSlice zeroByte t (src + 16 * i) 16)) := by
  refine List.map_congr_left fun i below => ?_
  have word : i < n := List.mem_range.mp below
  have loaded : ¬ ok ≤ i / 4 := by
    rw [all, ceilDiv]
    omega
  have inside : 16 * i + 16 ≤ 16 * n := by omega
  simp [loaded, natAt, sliceB_tabSlice zeroByte t src (16 * n) (16 * i) 16 inside]

theorem dieProgLoadComplete_loads {l : ProgLoad} (running : d.progLoad = some l)
    (serves : lpServes false l.src (16 * l.count) d = true)
    (granted : (unitsOk d ⟨.dma, false, d.world, 0⟩ (ceilDiv l.count 4) l.src).2 = none)
    (good : lpBad d l.src (16 * l.count) = []) :
    dieProgLoadComplete d = ({ d with
      progLoad := none
      prog := tabPut noOp d.prog l.dst (tabulate l.count fun i =>
        BitVec.ofNat 128 (leNat (tabSlice zeroByte d.lpddr (l.src + 16 * i) 16))) } : Die).setFlag 0x30004 3 := by
  have all := unitsOk_all_of_none _ _ _ _ granted
  have whole : min (64 * ceilDiv l.count 4) (16 * l.count) = 16 * l.count := by
    rw [ceilDiv]
    omega
  simp [dieProgLoadComplete, running, serves, granted, all, whole, lpRead_unmarked good,
    progWords_unmarked d.lpddr l.src l.count _ rfl]

theorem unitsOk_patrolAt (d : Die) (p : Nat × Nat) (r : Req) (n a : Nat) :
    unitsOk (d.patrolAt p) r n a = unitsOk d r n a := by
  induction n generalizing a with
  | zero => rfl
  | succ n ih =>
    have chk : regionChk (d.patrolAt p) r a 64 = regionChk d r a 64 := rfl
    simp only [unitsOk, chk, ih]

theorem dieScratchpadClear_ends (clears : d.clearing = true) (clocked : d.clkLost = false) :
    dieScratchpadClear d =
      ({ d with spd := [], spdMarks := [], spdWb := none } : Die).put ⟨0x2000C, 0, 0⟩ 0 := by
  simp [dieScratchpadClear, clears, clocked]

theorem dieSpdWriteBack_corrects {k : Nat} (queued : d.spdWb = some k)
    (marked : tabGet goodSpd d.spdMarks k = .single) :
    dieSpdWriteBack d = { d with spdWb := none, spdMarks := tabSet goodSpd d.spdMarks k .good } := by
  simp [dieSpdWriteBack, queued, marked]

end

/-- Settles O6: each event at its die, by the lemmas above; a writer other than the management complex launches and loads
nothing by definition. -/
theorem threadEventsComplete : Obligations.ThreadEventsComplete := by
  unfold Obligations.ThreadEventsComplete
  refine ⟨fun p t s => ⟨fun sd collect limit since mask act held limited runs => ?_,
    fun act on waits blocked tag first => ?_⟩, fun p s v act => ⟨fun bits go free => ?_, fun bits go used => ?_,
    fun bits count go free => ?_, fun l running serves granted good => ?_, fun w other => ?_, fun w other => ?_⟩,
    fun p s act => ⟨fun clears clocked => ?_, fun k queued marked => ?_⟩⟩ <;>
    refine next_onDie act fun n => ?_
  · exact dieWaitTimeout_expires (d := (s.die p).patrolAt n) act held limited runs
  · exact dieStall_raises (d := (s.die p).patrolAt n) on waits blocked tag first
  · exact dieLaunch_starts (d := (s.die p).patrolAt n) bits go free
  · exact dieLaunch_occupied (d := (s.die p).patrolAt n) bits go used
  · exact dieProgLoad_starts (d := (s.die p).patrolAt n) bits count go free
  · refine dieProgLoadComplete_loads (d := (s.die p).patrolAt n) running serves ?_ good
    rw [unitsOk_patrolAt]
    exact granted
  · simp [dieLaunch, other]
  · simp [dieProgLoad, other]
  · exact dieScratchpadClear_ends (d := (s.die p).patrolAt n) clears clocked
  · exact dieSpdWriteBack_corrects (d := (s.die p).patrolAt n) queued marked

/-! ## The completion of a long op towards its thread (R157, R158, R163) -/

/-- The thread's context once its op has signalled, before a fault of `HOE`. -/
def signalled (o : LongOp) (st : Status) (th : Thread) : Thread :=
  let th := match o.result with
    | some (r, v) => th.setS r.toNat v
    | none => th
  let th := if o.sig then
      let th := th.setCnt o.token (th.cnt o.token - 1)
      if st ≠ .ok ∧ th.tok o.token = .ok then th.setTok o.token st else th
    else th
  if st = .ok then th else { th with last := st }

/-- The contexts after a completion: `HOE` faults the op's own, and no other changes. -/
theorem thread_signalOp {o : LongOp} (st : Status) (d : Die) (op : o.kind = .op) (u : ThreadId) :
    (signalOp o st d).thread u =
      if u = o.thread then
        let th := signalled o st (d.thread o.thread)
        if st ≠ .ok ∧ o.flags.getLsbD 0 ∧ th.st ≠ .faulted then { th with st := .faulted, hold := .none } else th
      else d.thread u := by
  have shape : signalOp o st d =
      let th := signalled o st (d.thread o.thread)
      if st ≠ .ok ∧ o.flags.getLsbD 0 ∧ th.st ≠ .faulted then
        threadFault o.thread st o.opcode.toNat (d.setThread o.thread th)
      else d.setThread o.thread th := by
    rw [signalOp, if_neg (not_not.mpr op)]
    rfl
  rw [shape]
  dsimp only
  split <;> simp only [threadFault_thread, Die.thread_setThread, if_true] <;> split <;> rfl

section
variable (o : LongOp) (st : Status) (th : Thread)

theorem signalled_st : (signalled o st th).st = th.st := by
  simp only [signalled]
  (repeat' split) <;> rfl

theorem signalled_last : (signalled o st th).last = if st = .ok then th.last else st := by
  simp only [signalled]
  (repeat' split) <;> simp_all

theorem signalled_counts : (signalled o st th).counts =
    if o.sig then (th.setCnt o.token (th.cnt o.token - 1)).counts else th.counts := by
  simp only [signalled]
  (repeat' split) <;> rfl

theorem signalled_tokSt : (signalled o st th).tokSt =
    if o.sig ∧ st ≠ .ok ∧ th.tok o.token = .ok then (th.setTok o.token st).tokSt else th.tokSt := by
  have tok (r : Nat) (v : Word64) (k : Nat) (c : BitVec 4) : ((th.setS r v).setCnt k c).tok = th.tok := rfl
  have tok' (k : Nat) (c : BitVec 4) : (th.setCnt k c).tok = th.tok := rfl
  simp only [signalled]
  (repeat' split) <;> simp_all [Thread.setTok]

theorem signalled_s : (signalled o st th).s = match o.result with
    | some (q, v) => (th.setS q.toNat v).s
    | none => th.s := by
  simp only [signalled]
  (repeat' split) <;> rfl

theorem signalled_cnt (k : Nat) :
    (signalled o st th).cnt k = if o.sig = true ∧ k = o.token then th.cnt k - 1 else th.cnt k := by
  have table : (signalled o st th).cnt k = tabGet (fun _ => 0) (signalled o st th).counts k := rfl
  rw [table, signalled_counts]
  split
  · next sig =>
    refine (Thread.cnt_setCnt th o.token k _).trans ?_
    by_cases own : k = o.token <;> simp [own, sig]
  · next sig => simp [sig, Thread.cnt]

theorem signalled_tok (k : Nat) : (signalled o st th).tok k =
    if o.sig = true ∧ k = o.token ∧ th.tok k = .ok then st else th.tok k := by
  have table : (signalled o st th).tok k = tabGet (fun _ => .ok) (signalled o st th).tokSt k := rfl
  rw [table, signalled_tokSt]
  split
  · next first =>
    refine (Thread.tok_setTok th o.token k _).trans ?_
    by_cases own : k = o.token <;> simp [own, first]
  · next later =>
    change th.tok k = _
    split
    · next first =>
      obtain ⟨sig, rfl, kept⟩ := first
      by_cases ok : st = .ok
      · exact kept.trans ok.symm
      · exact absurd ⟨sig, ok, kept⟩ later
    · rfl

theorem signalled_sreg (r : Nat) : (signalled o st th).sreg r = match o.result with
    | some (q, v) => if r = q.toNat then v else th.sreg r
    | none => th.sreg r := by
  have table : (signalled o st th).sreg r = tabGet (fun _ => 0) (signalled o st th).s r := rfl
  rw [table, signalled_s]
  split
  · exact Thread.sreg_setS ..
  · rfl

end

/-- The op's own context after its completion, where only the fault of `HOE` parts it from `signalled`. -/
theorem thread_signalOp_own {o : LongOp} (st : Status) (d : Die) (op : o.kind = .op) :
    let th := signalled o st (d.thread o.thread)
    ∃ s h, (signalOp o st d).thread o.thread = { th with st := s, hold := h } ∧
      s = if st ≠ .ok ∧ o.flags.getLsbD 0 then .faulted else th.st := by
  rw [thread_signalOp st d op, if_pos rfl]
  dsimp only
  generalize signalled o st (d.thread o.thread) = th
  by_cases faults : st ≠ .ok ∧ o.flags.getLsbD 0
  · by_cases was : th.st = .faulted
    · exact ⟨th.st, th.hold, if_neg fun h => h.2.2 was, by rw [if_pos faults, was]⟩
    · exact ⟨.faulted, .none, by simp [faults, was], by simp [faults]⟩
  · refine ⟨th.st, th.hold, ?_, by rw [if_neg faults]⟩
    rw [if_neg fun h => faults ⟨h.1, h.2.1⟩]

/-- Settles O10: the op's thread is `signalled`, faulted where `HOE` asks for it (`thread_signalOp_own`). -/
theorem completionSignalsThread : Obligations.CompletionSignalsThread := by
  unfold Obligations.CompletionSignalsThread
  intro o st d op th th'
  obtain ⟨now, hold, own, code⟩ := thread_signalOp_own st d op
  have cnt (k : Nat) : th'.cnt k = (signalled o st th).cnt k := by
    change ((signalOp o st d).thread o.thread).cnt k = _
    rw [own]
    rfl
  have tok (k : Nat) : th'.tok k = (signalled o st th).tok k := by
    change ((signalOp o st d).thread o.thread).tok k = _
    rw [own]
    rfl
  have sreg (r : Nat) : th'.sreg r = (signalled o st th).sreg r := by
    change ((signalOp o st d).thread o.thread).sreg r = _
    rw [own]
    rfl
  have state : th'.st = if st ≠ .ok ∧ o.flags.getLsbD 0 then .faulted else th.st :=
    (congrArg Thread.st own).trans (code.trans (by rw [signalled_st]))
  refine ⟨fun sig => ?_, fun k other => ⟨?_, ?_⟩, fun sig => ?_, ?_, fun r v result => ?_, fun r other => ?_,
    fun quiet => ?_, fun bad hoe => ?_, fun u other => ?_⟩
  · rw [cnt, signalled_cnt, if_pos ⟨sig, rfl⟩]
  · rw [cnt, signalled_cnt, if_neg fun h => other.elim (by simp [h.1]) (· h.2)]
  · rw [tok, signalled_tok, if_neg fun h => other.elim (by simp [h.1]) (· h.2.1)]
  · rw [tok, signalled_tok]
    simp [sig]
  · exact (congrArg Thread.last own).trans (signalled_last o st th)
  · rw [sreg, signalled_sreg, result]
    exact if_pos rfl
  · rw [sreg, signalled_sreg]
    cases result : o.result with
    | none => rfl
    | some e => exact if_neg fun h => other e.1 (by rw [result]; rfl) h.symm
  · rw [state, if_neg fun h => quiet.elim h.1 (by simp [h.2])]
  · rw [state, if_pos ⟨bad, hoe⟩]
  · rw [thread_signalOp st d op, if_neg other]

end Sys2Proof.Machine
end

section
/-! PROOFS. Reset values (O57), and a die at which nothing waits (O60). -/

namespace Sys2Proof.Machine

/-- Settles O57, from the After reset values of the two register tables. -/
theorem resetValues : Obligations.ResetValues := by
  unfold Obligations.ResetValues
  refine ⟨rfl, rfl, rfl, rfl, by decide, by decide, by decide, by decide, fun n => rfl, ?_⟩
  intro p lt
  have unused : ∀ q < 72, State.reset.dieState q = 3 := by decide
  have routes : ∀ n < 73, (dieReset (0x50100 + 4 * n)).toNat = 7 := by decide
  have word (off : Nat) : (State.reset.die p).reg off = (dieReset off).toNat := rfl
  refine ⟨rfl, rfl, unused p lt, ?_, ?_, ?_, ?_, rfl, rfl, fun t => rfl, routes⟩ <;> rw [word] <;> decide

section
variable {p : Nat} {old : Die} {s : State}

theorem lehrGoOut_idle {d : Die} (go : d.lhrGo = false) (out : d.lehrOut = [])
    (busy : d.flag 0xE0010 0 = lehrBusy d) : lehrGoOut d = d := by
  have pump : lehrPump (d.lehrOut.length + 1) d = d := by
    cases d
    subst out
    rfl
  rw [lehrGoOut, pump, lehrShow, go, Bool.false_or, if_pos busy]

theorem lehrAct_idle (go : (s.die p).lhrGo = false) : lehrAct p s = s := by
  simp only [lehrAct, go, Bool.not_false, if_true]

theorem pinParisons_none {l j : Nat} (none : (s.job j).parisons = []) : pinParisons p l j s = s := by
  rw [pinParisons, none, List.foldl_nil]

theorem keepRecords_unchanged {l : Nat} (registry : registryNow (s.die p) = registryNow old)
    (words : ∀ j, redWords (s.die p) j = redWords old j) : keepRecords p l old s = s := by
  simp only [keepRecords, if_pos registry]
  exact List.foldl_fixed' (fun j => if_neg fun h => h.1 (words j)) _

theorem transferGo_unwanted (want : old.lehrWant = []) : transferGo p old s = s := by
  rw [transferGo, want]
  rfl

theorem faultsGo_none (quiet : s.reckoner = false ∨ newFaults old (s.die p) = []) : faultsGo p old s = s := by
  obtain stopped | none := quiet
  · simp [faultsGo, stopped]
  · simp [faultsGo, none]

theorem wornGo_low (quiet : s.reckoner = false ∨ ueCount (s.die p) < (s.die p).patrol.2 + 16) :
    wornGo p old s = s := by
  obtain stopped | low := quiet
  · simp [wornGo, stopped]
  · simp [wornGo, Nat.not_le.mpr low]

theorem jobsGo_unloaded (quiet : s.reckoner = false ∨ ∀ j, s.jobState j = 0) : jobsGo s = s := by
  obtain stopped | free := quiet
  · simp [jobsGo, stopped]
  · have still (j : Nat) : jobGo s j = s := by simp [jobGo, free j]
    rw [jobsGo, List.foldl_fixed' still, ite_self]

end

/-- Settles O60: each part of what follows finds nothing to do, and the die is stored as it is. -/
theorem quietDieNothingFollows : Obligations.QuietDieNothingFollows := by
  unfold Obligations.QuietDieNothingFollows
  intro p old s go out want busy parisons registry words quiet
  have shown : (lehrAct p s).modDie p lehrGoOut = s.modDie p fun d => d := by
    rw [lehrAct_idle go, State.modDie, lehrGoOut_idle go out busy, State.modDie]
  have die : (s.modDie p fun d => d).die p = s.die p := by simp
  rw [afterDie, shown]
  generalize same : (s.modDie p fun d => d) = t at die ⊢
  have reckoner : t.reckoner = s.reckoner := by rw [← same]; rfl
  have job (j : Nat) : t.job j = s.job j := by rw [← same]; rfl
  have state (j : Nat) : t.jobState j = s.jobState j := by rw [← same]; rfl
  have pins (l : Nat) : jobNumbers.foldl (fun s j => pinParisons p l j s) t = t :=
    List.foldl_fixed' (fun j => pinParisons_none (by rw [job, parisons])) _
  have kept (l : Nat) : keepRecords p l old t = t :=
    keepRecords_unchanged (by rw [die, registry]) (fun j => by rw [die, words])
  simp only [pins, kept]
  have idle : jobsGo (wornGo p old (faultsGo p old (transferGo p old t))) = t := by
    rw [transferGo_unwanted want, faultsGo_none, wornGo_low, jobsGo_unloaded]
    · exact quiet.imp (reckoner.trans ·) fun h j => (state j).trans (h.1 j)
    · exact quiet.imp (reckoner.trans ·) fun h => by rw [die]; exact h.2.2
    · exact quiet.imp (reckoner.trans ·) fun h => by rw [die]; exact h.2.1
  split <;> exact idle

end Sys2Proof.Machine
end

section
/-! PROOFS. The lanes in service (O41). -/

namespace Sys2Proof.Machine

theorem getLsbD_foldl_lanes (l : List Nat) (m : BitVec 18) (i : Nat) :
    (l.foldl (fun m k => m ||| BitVec.ofNat 18 (2 ^ k)) m).getLsbD i
      = (m.getLsbD i || (decide (i < 18) && decide (i ∈ l))) := by
  induction l generalizing m with
  | nil => simp
  | cons k l ih =>
    rw [List.foldl_cons, ih, BitVec.getLsbD_or, BitVec.getLsbD_ofNat, Nat.testBit_two_pow]
    by_cases same : i = k
    · cases decide (i < 18) <;> simp [same]
    · simp [same, Ne.symm same]

/-- The lanes of a mask are those of its list. -/
theorem getLsbD_laneMask (l : List Nat) (i : Nat) :
    (laneMask l).getLsbD i = (decide (i < 18) && decide (i ∈ l)) := by
  rw [laneMask, getLsbD_foldl_lanes]
  simp

theorem laneCount_laneMask {l : List Nat} (once : l.Nodup) (lanes : ∀ i ∈ l, i < 18) :
    laneCount (laneMask l) = l.length := by
  refine List.Perm.length_eq ((List.perm_ext_iff_of_nodup (List.nodup_range.filter _) once).mpr fun i => ?_)
  simp only [List.mem_filter, List.mem_range, getLsbD_laneMask, Bool.and_eq_true, decide_eq_true_eq]
  exact ⟨fun h => h.2.2, fun h => ⟨lanes i h, lanes i h, h⟩⟩

/-- The healthy lanes, ascending. -/
def goodLanes (failed : BitVec 18) : List Nat := (List.range 18).filter fun i => !failed.getLsbD i

/-- The healthy lanes that pass a test. -/
def goodOf (failed : BitVec 18) (q : Nat → Bool) : List Nat := (goodLanes failed).filter q

section
variable (failed : BitVec 18) (q : Nat → Bool)

theorem mem_goodLanes {i : Nat} : i ∈ goodLanes failed ↔ i < 18 ∧ failed.getLsbD i = false := by
  simp [goodLanes]

theorem mem_goodOf {i : Nat} : i ∈ goodOf failed q ↔ (i < 18 ∧ failed.getLsbD i = false) ∧ q i = true := by
  rw [goodOf, List.mem_filter, mem_goodLanes]

theorem goodLanes_pairwise : (goodLanes failed).Pairwise (· < ·) := List.pairwise_lt_range.filter _

theorem goodLanes_nodup : (goodLanes failed).Nodup := List.nodup_range.filter _

/-- Of the lanes that pass a test, the healthy and the failed ones are all. -/
theorem goodOf_length (mask : BitVec 18) (tests : ∀ i < 18, mask.getLsbD i = q i) :
    (goodOf failed q).length + laneCount (failed &&& mask) = ((List.range 18).filter q).length := by
  have good : goodOf failed q = ((List.range 18).filter q).filter fun i => !failed.getLsbD i := by
    rw [goodOf, goodLanes, List.filter_comm]
  have bad : laneList (failed &&& mask) = ((List.range 18).filter q).filter fun i => failed.getLsbD i := by
    rw [laneList, List.filter_filter]
    refine List.filter_congr fun i lane => ?_
    rw [BitVec.getLsbD_and, tests i (List.mem_range.mp lane)]
  rw [laneCount, good, bad, Nat.add_comm]
  exact (List.length_eq_length_filter_add _).symm

theorem goodLanes_length : (goodLanes failed).length + laneCount failed = 18 := by
  rw [Nat.add_comm]
  exact (List.length_eq_length_filter_add (l := List.range 18) fun i => failed.getLsbD i).symm

end

/-- The sixteen lanes of a port with spares enough. -/
def sparedLanes (failed : BitVec 18) : List Nat :=
  let data := goodOf failed fun i => decide (i < 16)
  data ++ (goodOf failed fun i => decide (16 ≤ i)).take (16 - data.length)

theorem sparedLanes_sub (failed : BitVec 18) : ∀ i ∈ sparedLanes failed, i ∈ goodLanes failed := by
  intro i mem
  obtain data | spare := List.mem_append.mp mem
  · exact List.mem_of_mem_filter data
  · exact List.mem_of_mem_filter (List.mem_of_mem_take spare)

theorem sparedLanes_nodup (failed : BitVec 18) : (sparedLanes failed).Nodup := by
  refine List.nodup_append'.mpr ⟨(goodLanes_nodup failed).filter _,
    ((goodLanes_nodup failed).filter _).sublist (List.take_sublist ..), fun i data spare => ?_⟩
  have below := (mem_goodOf ..).mp data
  have above := (mem_goodOf ..).mp (List.mem_of_mem_take spare)
  simp only [decide_eq_true_eq] at below above
  omega

/-- The eight lowest of an ascending list of lanes hold every lane of it below one of theirs. -/
theorem mem_take_of_lt {l : List Nat} (sorted : l.Pairwise (· < ·)) {n i j : Nat} (mem : i ∈ l.take n) (lt : j < i)
    (lane : j ∈ l) : j ∈ l.take n := by
  rw [← List.take_append_drop n l] at sorted lane
  obtain low | high := List.mem_append.mp lane
  · exact low
  · have above := (List.pairwise_append.mp sorted).2.2 i mem j high
    omega

/-- No lane of a list of healthy ones is a failed one. -/
theorem laneMask_and_failed {l : List Nat} (failed : BitVec 18) (good : ∀ i ∈ l, i ∈ goodLanes failed) :
    laneMask l &&& failed = 0 := by
  refine BitVec.eq_of_getLsbD_eq fun i _ => ?_
  rw [BitVec.getLsbD_and, getLsbD_laneMask]
  by_cases mem : i ∈ l
  · simp [((mem_goodLanes failed).mp (good i mem)).2]
  · simp [mem]

/-- Settles O41: the choice of R325 by the counts of the healthy lanes, with the two lists of lanes it may make. -/
theorem laneSparing : Obligations.LaneSparing := by
  unfold Obligations.LaneSparing
  intro narrow failed r lostData spares
  have data : (goodOf failed fun i => decide (i < 16)).length + lostData = 16 :=
    goodOf_length failed _ 0xFFFF (by decide)
  have spare : (goodOf failed fun i => decide (16 ≤ i)).length = spares :=
    (Nat.sub_eq_of_eq_add (goodOf_length failed _ 0x30000 (by decide)).symm).symm
  have lost : 16 - (goodOf failed fun i => decide (i < 16)).length = lostData :=
    Nat.sub_eq_of_eq_add' data.symm
  have all := goodLanes_length failed
  have choice : r = if narrow = false ∧ lostData ≤ spares then (false, laneMask (sparedLanes failed))
      else (true, laneMask ((goodLanes failed).take 8)) := by
    have same : (!narrow ∧ 16 - (goodOf failed fun i => decide (i < 16)).length
          ≤ (goodOf failed fun i => decide (16 ≤ i)).length) ↔ narrow = false ∧ lostData ≤ spares := by
      rw [Bool.not_eq_true', lost, spare]
    exact if_congr same rfl rfl
  have lane {l : List Nat} (good : ∀ i ∈ l, i ∈ goodLanes failed) : ∀ i ∈ l, i < 18 :=
    fun i mem => ((mem_goodLanes failed).mp (good i mem)).1
  by_cases wide : narrow = false ∧ lostData ≤ spares
  · rw [if_pos wide] at choice
    have good := sparedLanes_sub failed
    rw [choice]
    refine ⟨laneMask_and_failed failed good, by simp [wide], fun _ => ⟨?_, fun i low healthy => ?_⟩, nofun⟩
    · rw [laneCount_laneMask (sparedLanes_nodup failed) (lane good), sparedLanes, List.length_append,
        List.length_take]
      omega
    · rw [getLsbD_laneMask]
      have mem : i ∈ sparedLanes failed :=
        List.mem_append_left _ ((mem_goodOf ..).mpr ⟨⟨by omega, healthy⟩, by simp [low]⟩)
      simp [mem, lane good i mem]
  · rw [if_neg wide] at choice
    have good : ∀ i ∈ (goodLanes failed).take 8, i ∈ goodLanes failed := fun i mem => List.mem_of_mem_take mem
    rw [choice]
    refine ⟨laneMask_and_failed failed good, ?_, nofun, fun _ => ⟨?_, fun i j lt below up healthy => ?_⟩⟩
    · cases narrow <;> simp at wide ⊢
      exact wide
    · rw [laneCount_laneMask ((goodLanes_nodup failed).sublist (List.take_sublist ..)) (lane good),
        List.length_take]
      omega
    · rw [getLsbD_laneMask, Bool.and_eq_true, decide_eq_true_eq, decide_eq_true_eq] at up ⊢
      have here : j ∈ goodLanes failed := (mem_goodLanes failed).mpr ⟨by omega, healthy⟩
      exact ⟨by omega, mem_take_of_lt (goodLanes_pairwise failed) up.2 below here⟩

end Sys2Proof.Machine
end

section
/-! PROOFS. Bead headers (O22) and the credit cache (O23). -/

namespace Sys2Proof.Machine

/-! ## Fields packed one after another -/

/-- A word of fields, the lowest first, of the widths and with the values of two lists. -/
def packFields : (widths values : List Nat) → Nat
  | w :: ws, v :: vs => v % 2 ^ w + 2 ^ w * packFields ws vs
  | _, _ => 0

theorem packFields_lt (ws vs : List Nat) : packFields ws vs < 2 ^ ws.sum := by
  induction ws generalizing vs with
  | nil => exact Nat.one_pos
  | cons w ws ih =>
    cases vs with
    | nil => exact Nat.two_pow_pos _
    | cons v vs =>
      have low : v % 2 ^ w < 2 ^ w := Nat.mod_lt _ (Nat.two_pow_pos w)
      calc packFields (w :: ws) (v :: vs)
        _ < 2 ^ w * (packFields ws vs + 1) := by rw [packFields, Nat.mul_add]; omega
        _ ≤ 2 ^ w * 2 ^ ws.sum := Nat.mul_le_mul_left _ (ih vs)
        _ = 2 ^ (w :: ws).sum := by rw [List.sum_cons, Nat.pow_add]

/-- A field reads back from its place as much of its value as its width holds. -/
theorem bitsOf_packFields (ws vs : List Nat) (k : Nat) {w v hi lo : Nat} (widths : ws[k]? = some w)
    (values : vs[k]? = some v) (place : (ws.take k).sum = lo) (width : hi + 1 - lo = w) :
    bitsOf (packFields ws vs) hi lo = v % 2 ^ w := by
  rw [bitsOf, width, ← place]
  clear place width
  induction ws generalizing k vs with
  | nil => cases widths
  | cons w' ws ih =>
    cases vs with
    | nil => cases values
    | cons v' vs =>
      cases k with
      | zero =>
        cases widths
        cases values
        rw [List.take_zero, List.sum_nil, Nat.shiftRight_zero, packFields, Nat.add_mul_mod_self_left, Nat.mod_mod]
      | succ k =>
        have above : packFields (w' :: ws) (v' :: vs) >>> w' = packFields ws vs := by
          rw [packFields, Nat.shiftRight_eq_div_pow, Nat.add_mul_div_left _ _ (Nat.two_pow_pos w'),
            Nat.div_eq_of_lt (Nat.mod_lt _ (Nat.two_pow_pos w')), Nat.zero_add]
        rw [List.take_succ_cons, List.sum_cons, Nat.shiftRight_add, above]
        exact ih vs k widths values

theorem packFields_shiftLeft (ws vs : List Nat) (w v place : Nat) :
    packFields (w :: ws) (v :: vs) <<< place = (v % 2 ^ w) <<< place + packFields ws vs <<< (place + w) := by
  rw [packFields, Nat.shiftLeft_eq, Nat.shiftLeft_eq, Nat.shiftLeft_eq, Nat.pow_add]
  ring

theorem leBytes_mod (n v : Nat) : leBytes n (v % 256 ^ n) = leBytes n v := by
  induction n generalizing v with
  | zero => rfl
  | succ n ih =>
    have low : BitVec.ofNat 8 (v % 256 ^ (n + 1)) = BitVec.ofNat 8 v := by
      refine BitVec.eq_of_toNat_eq ?_
      rw [BitVec.toNat_ofNat, BitVec.toNat_ofNat]
      exact Nat.mod_mod_of_dvd v (Dvd.intro_left (256 ^ n) rfl)
    have high : v % 256 ^ (n + 1) / 256 = v / 256 % 256 ^ n := by
      rw [Nat.pow_succ', Nat.mod_mul_right_div_self]
    rw [leBytes, leBytes, low, high, ih]

/-! ## The header of a bead -/

section
variable (b : Bead)

/-- The widths of a header's fields, reserved bits as fields of their own (R195). -/
def beadWidths : List Nat :=
  [12, 7, 12, 1, 12, 7, 12, 1, 4, 4, 4, 8, 16, 16, 10, 2, 32, 8, 24, 24, 8, 16, 16]

/-- `HCHK` of a header. -/
def beadCheck : Nat := (crc16 (leBytes 28 (beadLow b))).toNat

/-- The values of a header's fields. -/
def beadValues : List Nat :=
  [b.dstPkg, b.dstDie, b.dstRod, bit b.world, b.srcPkg, b.srcDie, b.srcRod, 0, b.job, b.kind, b.csub, b.status, b.epoch,
    b.seq, b.handle, 0, b.tag, b.version, b.length, b.credit, 0, beadCheck b, 0]

theorem bit_mod_two (w : Bool) : bit w % 2 = bit w := by cases w <;> rfl

theorem packFields_bead : packFields beadWidths (beadValues b) = beadLow b + beadCheck b <<< 224 := by
  have check : beadCheck b % 65536 = beadCheck b := Nat.mod_eq_of_lt (BitVec.isLt _)
  have none : packFields [] [] = 0 := rfl
  rw [← Nat.shiftLeft_zero (n := packFields _ _), beadWidths, beadValues]
  simp only [packFields_shiftLeft, none, Nat.zero_add, Nat.reduceAdd]
  simp only [check, bit_mod_two, Nat.zero_mod, Nat.zero_shiftLeft, Nat.shiftLeft_zero, Nat.zero_add, Nat.reducePow]
  unfold beadLow
  simp only [Nat.reducePow]
  abel

theorem packBead_toNat : (packBead b).toNat = packFields beadWidths (beadValues b) := by
  have fits : packFields beadWidths (beadValues b) < 2 ^ 256 := packFields_lt ..
  have whole : packBead b = BitVec.ofNat 256 (packFields beadWidths (beadValues b)) := by
    rw [packFields_bead]
    rfl
  rw [whole, BitVec.toNat_ofNat, Nat.mod_eq_of_lt fits]

/-- A field of a packed header that its width holds. -/
theorem hf_packBead (hi lo k : Nat) {w v : Nat} (fits : v < 2 ^ w) (widths : beadWidths[k]? = some w)
    (values : (beadValues b)[k]? = some v) (place : (beadWidths.take k).sum = lo) (width : hi + 1 - lo = w) :
    hf (packBead b) hi lo = v := by
  rw [hf, packBead_toNat, bitsOf_packFields _ _ k widths values place width, Nat.mod_eq_of_lt fits]

theorem bitOf_packBead (i k : Nat) {v : Nat} (widths : beadWidths[k]? = some 1) (values : (beadValues b)[k]? = some v)
    (place : (beadWidths.take k).sum = i) : bitOf (packBead b).toNat i = (v % 2 ^ 1 == 1) := by
  rw [bitOf, packBead_toNat, bitsOf_packFields _ _ k widths values place (Nat.add_sub_cancel_left i 1)]

end

/-- Settles O22: each field stands in the header at its place (`hf_packBead`), and the check bytes are those of the
fields before them. -/
theorem beadHeaderRoundTrip : Obligations.BeadHeaderRoundTrip := by
  unfold Obligations.BeadHeaderRoundTrip
  intro b dstPkg dstDie dstRod srcPkg srcDie srcRod job kind csub status epoch seq handle tag version length credit
  refine ⟨?_, ?_, ?_⟩
  · have world : bitOf (packBead b).toNat 31 = b.world := by
      refine (bitOf_packBead b 31 3 rfl rfl rfl).trans ?_
      cases b.world <;> rfl
    rw [beadOf, world, hf_packBead b 11 0 0 dstPkg rfl rfl rfl rfl, hf_packBead b 18 12 1 dstDie rfl rfl rfl rfl,
      hf_packBead b 30 19 2 dstRod rfl rfl rfl rfl, hf_packBead b 43 32 4 srcPkg rfl rfl rfl rfl,
      hf_packBead b 50 44 5 srcDie rfl rfl rfl rfl, hf_packBead b 62 51 6 srcRod rfl rfl rfl rfl,
      hf_packBead b 67 64 8 job rfl rfl rfl rfl, hf_packBead b 71 68 9 kind rfl rfl rfl rfl,
      hf_packBead b 75 72 10 csub rfl rfl rfl rfl, hf_packBead b 83 76 11 status rfl rfl rfl rfl,
      hf_packBead b 99 84 12 epoch rfl rfl rfl rfl, hf_packBead b 115 100 13 seq rfl rfl rfl rfl,
      hf_packBead b 125 116 14 handle rfl rfl rfl rfl, hf_packBead b 159 128 16 tag rfl rfl rfl rfl,
      hf_packBead b 167 160 17 version rfl rfl rfl rfl, hf_packBead b 191 168 18 length rfl rfl rfl rfl,
      hf_packBead b 215 192 19 credit rfl rfl rfl rfl]
  · have low : leBytes 28 (packBead b).toNat = leBytes 28 (beadLow b) := by
      have step : (2 : Nat) ^ 224 = 256 ^ 28 := by norm_num
      rw [packBead_toNat, packFields_bead, ← leBytes_mod, ← leBytes_mod 28 (beadLow b), Nat.shiftLeft_eq, step,
        Nat.add_mul_mod_self_right]
    have check : (packBead b).extractLsb' 224 16 = crc16 (leBytes 28 (beadLow b)) := by
      refine BitVec.eq_of_toNat_eq ?_
      rw [BitVec.extractLsb'_toNat]
      exact hf_packBead b 239 224 21 (BitVec.isLt _) rfl rfl rfl rfl
    rw [hdrOk, low, check, decide_eq_true rfl]
  · have bit63 : bitOf (packBead b).toNat 63 = false := bitOf_packBead b 63 7 rfl rfl rfl
    rw [hdrReserved, bit63, hf_packBead b 127 126 15 (by decide) rfl rfl rfl rfl,
      hf_packBead b 223 216 20 (by decide) rfl rfl rfl rfl, hf_packBead b 255 240 22 (by decide) rfl rfl rfl rfl]
    rfl

/-! ## `AVAIL` and `GRANT` -/

section
variable {e i : Nat} (d : Die)

theorem reg_ccStale (entry : i < 512) {k : Nat} (word : k < 32) : (ccStale e d).reg (ccBase i + k) =
    if ccBase i + k = ccBase e + 8 then 0 else (d.put ⟨ccBase e + 4, 17, 16⟩ 2).reg (ccBase i + k) := by
  rw [ccStale, reg_creditGo (inCreditCache_ccBase entry word), Die.reg_setReg, Nat.zero_mod]

theorem ccGrant_ccClose_ne (entry : i < 512) (ne : i ≠ e) : ccGrant (ccClose e d) i = ccGrant d i := by
  have apart : ccBase i + 12 ≠ ccBase e + 4 ∧ ccBase i + 12 ≠ ccBase e + 8 ∧ ccBase i + 12 ≠ ccBase e + 12 := by
    unfold ccBase
    omega
  obtain ⟨ne4, ne8, ne12⟩ := apart
  rw [ccGrant, reg_ccClose d entry (by omega), if_neg (not_or.mpr ⟨ne12, ne8⟩), Die.reg_put_ne _ _ _ _ ne4, ccGrant]

theorem ccAvail_ccClose_ne (entry : i < 512) (ne : i ≠ e) : ccAvail (ccClose e d) i = ccAvail d i := by
  have apart : ccBase i + 8 ≠ ccBase e + 4 ∧ ccBase i + 8 ≠ ccBase e + 8 ∧ ccBase i + 8 ≠ ccBase e + 12 := by
    unfold ccBase
    omega
  obtain ⟨ne4, ne8, ne12⟩ := apart
  rw [ccAvail, reg_ccClose d entry (by omega), if_neg (not_or.mpr ⟨ne12, ne8⟩), Die.reg_put_ne _ _ _ _ ne4, ccAvail]

theorem reg_ccWorld (d : Die) (w : List (Nat × Bool)) (o : Nat) : ({ d with ccWorld := w } : Die).reg o = d.reg o := rfl

theorem reg_ccFill (b : Bead) (o : Nat) : (ccFill b e d).reg o =
    ((((((d.setReg (ccBase e) (ccKey b.srcPkg b.srcDie b.srcRod)).setReg (ccBase e + 4) b.epoch).setReg
      (ccBase e + 8) b.credit).setReg (ccBase e + 12) b.credit).setReg (ccBase e + 16) 0).setReg
      (ccBase e + 20) (b.tag % 2 ^ 15)).reg o := reg_ccWorld _ _ o

theorem ccAvail_ccFill (b : Bead) : ccAvail (ccFill b e d) i =
    if i = e then b.credit % 2 ^ 32 else ccAvail d i := by
  have apart : ccBase i + 8 ≠ ccBase e ∧ ccBase i + 8 ≠ ccBase e + 4 ∧ ccBase i + 8 ≠ ccBase e + 12 ∧
      ccBase i + 8 ≠ ccBase e + 16 ∧ ccBase i + 8 ≠ ccBase e + 20 ∧ (ccBase i + 8 = ccBase e + 8 ↔ i = e) := by
    unfold ccBase
    omega
  obtain ⟨ne0, ne4, ne12, ne16, ne20, own⟩ := apart
  rw [ccAvail, reg_ccFill, Die.reg_setReg, if_neg ne20, Die.reg_setReg, if_neg ne16, Die.reg_setReg,
    if_neg ne12, Die.reg_setReg,
    Die.reg_setReg, if_neg ne4, Die.reg_setReg, if_neg ne0]
  exact if_congr own rfl rfl

theorem ccGrant_ccFill (b : Bead) : ccGrant (ccFill b e d) i =
    if i = e then b.credit % 2 ^ 32 else ccGrant d i := by
  have apart : ccBase i + 12 ≠ ccBase e ∧ ccBase i + 12 ≠ ccBase e + 4 ∧ ccBase i + 12 ≠ ccBase e + 8 ∧
      ccBase i + 12 ≠ ccBase e + 16 ∧ ccBase i + 12 ≠ ccBase e + 20 ∧ (ccBase i + 12 = ccBase e + 12 ↔ i = e) := by
    unfold ccBase
    omega
  obtain ⟨ne0, ne4, ne8, ne16, ne20, own⟩ := apart
  rw [ccGrant, reg_ccFill, Die.reg_setReg, if_neg ne20, Die.reg_setReg, if_neg ne16, Die.reg_setReg,
    Die.reg_setReg, if_neg ne8,
    Die.reg_setReg, if_neg ne4, Die.reg_setReg, if_neg ne0]
  exact if_congr own rfl rfl

theorem ccAvail_ccStale (entry : i < 512) : ccAvail (ccStale e d) i = if i = e then 0 else ccAvail d i := by
  have apart : ccBase i + 8 ≠ ccBase e + 4 ∧ (ccBase i + 8 = ccBase e + 8 ↔ i = e) := by
    unfold ccBase
    omega
  rw [ccAvail, reg_ccStale d entry (by omega), Die.reg_put_ne _ _ _ _ apart.1]
  exact if_congr apart.2 rfl rfl

theorem ccGrant_ccStale (entry : i < 512) : ccGrant (ccStale e d) i = ccGrant d i := by
  have apart : ccBase i + 12 ≠ ccBase e + 4 ∧ ccBase i + 12 ≠ ccBase e + 8 := by
    unfold ccBase
    omega
  rw [ccGrant, reg_ccStale d entry (by omega), if_neg apart.2, Die.reg_put_ne _ _ _ _ apart.1, ccGrant]

end

/-- Settles O23: what each operation leaves of `AVAIL` and `GRANT`, for the entry it names and for every other one. -/
theorem creditWithinGrant : Obligations.CreditWithinGrant := by
  unfold Obligations.CreditWithinGrant
  intro d e i units b entry entry' held
  refine ⟨?_, ?_, ?_, ?_⟩
  · rw [ccGrant_ccReturn units d entry']
    by_cases own : i = e
    · subst own
      rw [ccAvail_ccReturn_same units d entry]
      exact Nat.min_le_left ..
    · rwa [ccAvail_ccReturn_ne units d entry' own]
  · by_cases own : i = e
    · subst own
      rw [ccAvail_ccClose_same d entry]
      exact Nat.zero_le _
    · rwa [ccAvail_ccClose_ne d entry' own, ccGrant_ccClose_ne d entry' own]
  · rw [ccGrant_ccStale d entry', ccAvail_ccStale d entry']
    split
    · exact Nat.zero_le _
    · exact held
  · rw [ccAvail_ccFill d, ccGrant_ccFill d]
    split
    · exact Nat.le_refl _
    · exact held

end Sys2Proof.Machine
end

section
/-! PROOFS. Registers of a host function and of the Punty die, invalidation (O47) and the check of a critical command
(O49). -/

namespace Sys2Proof.Machine

/-! ## Registers -/

theorem Fn.reg_lt (x : Fn) (o : Nat) : x.reg o < 2 ^ 32 := BitVec.isLt _

theorem Fn.reg_setReg (x : Fn) (o k v : Nat) : (x.setReg o v).reg k = if k = o then v % 2 ^ 32 else x.reg k := by
  by_cases own : k = o <;> simp [Fn.reg, Fn.setReg, tabGet_tabSet, own]

theorem Fn.reg_put_ne (x : Fn) (f : Fld) (v : Nat) {k : Nat} (ne : k ≠ f.off) : (x.put f v).reg k = x.reg k := by
  rw [Fn.put, Fn.reg_setReg, if_neg ne]

theorem Fn.bitsOf_reg_put (x : Fn) (f : Fld) (v : Nat) (word : f.hi < 32) :
    bitsOf ((x.put f v).reg f.off) f.hi f.lo = v % 2 ^ (f.hi + 1 - f.lo) := by
  rw [Fn.put, Fn.reg_setReg, if_pos rfl, bitsOf_mod_two_pow _ _ word, bitsOf_putBits]

theorem State.reg_put_ne (s : State) (f : Fld) (v : Nat) {k : Nat} (ne : k ≠ f.off) : (s.put f v).reg k = s.reg k := by
  rw [State.put, State.reg_setReg, if_neg ne]

theorem State.get_put_same (s : State) (f : Fld) (v : Nat) (word : f.hi < 32) :
    (s.put f v).get f = v % 2 ^ (f.hi + 1 - f.lo) := by
  rw [State.get, State.put, State.reg_setReg, if_pos rfl, bitsOf_mod_two_pow _ _ word, bitsOf_putBits]

theorem State.flag_put_one (s : State) (o i : Nat) (word : i < 32) : (s.put ⟨o, i, i⟩ 1).flag o i = true := by
  have field := s.get_put_same ⟨o, i, i⟩ 1 word
  rw [Nat.add_sub_cancel_left] at field
  exact decide_eq_true field

/-! ## A function that is invalidated -/

/-- The device's indices of the completion rings, which move to BAR0 (R382). -/
def keepIndices (x : Fn) : Fn := (List.range 4).foldl (fun x q => x.setReg (0x1020 + 4 * q) (x.devIdx q)) x

/-- A function without its rings and windows. -/
def closeRings (x : Fn) : Fn := { x with regs := tabDrop x.regs 0 0x400, rings := [], windows := [] }

/-- The function that is invalidated. -/
def invalidFn (x : Fn) : Fn :=
  let x := closeRings (keepIndices x)
  (x.put ⟨0x1000, 15, 0⟩ (x.attach + 1)).event 0

/-- A binding whose ring is of the function is open. -/
def openBinding (f : Nat) (b : Binding) : Binding :=
  if b.ring.any (fun r => decide (r.1 = f)) then { b with ring := none } else b

theorem invalidate_eq (f : Nat) (s : State) : invalidate f s =
    { s.setFn f (invalidFn (s.fn f)) with binding := s.binding.map (openBinding f) } := rfl

theorem ring_openBinding (f i : Nat) (b : Binding) : (openBinding f b).ring ≠ some (f, i) := by
  unfold openBinding
  split
  · nofun
  · next other =>
    intro ring
    simp [ring] at other

/-- Nothing but registers of the function changes as the indices are kept. -/
theorem keepIndices_kept (x : Fn) : ∃ regs, keepIndices x = { x with regs := regs } ∧
    ∀ k, k < 0x1020 → (keepIndices x).reg k = x.reg k := by
  refine List.foldlRecOn (motive := fun y : Fn => ∃ regs, y = { x with regs := regs } ∧
    ∀ k, k < 0x1020 → y.reg k = x.reg k) _ _ ⟨x.regs, rfl, fun _ _ => rfl⟩ fun y kept q _ => ?_
  obtain ⟨regs, rfl, same⟩ := kept
  refine ⟨_, rfl, fun k low => ?_⟩
  rw [Fn.reg_setReg, if_neg (by omega)]
  exact same k low

theorem reg_closeRings (x : Fn) (k : Nat) : (closeRings x).reg k = if k < 0x400 then 0 else x.reg k := by
  rw [Fn.reg, closeRings]
  dsimp only
  rw [tabGet_tabDrop]
  by_cases low : k < 0x400 <;> simp [low, Fn.reg]

theorem reg_invalidFn_ring (x : Fn) {k : Nat} (low : k < 0x400) : (invalidFn x).reg k = 0 := by
  rw [invalidFn, Fn.event, Fn.reg_put_ne _ _ _ (by dsimp only; omega), Fn.reg_put_ne _ _ _ (by dsimp only; omega),
    reg_closeRings, if_pos low]

theorem attach_invalidFn (x : Fn) : (invalidFn x).attach = (x.attach + 1) % 65536 := by
  obtain ⟨_, _, same⟩ := keepIndices_kept x
  have before : (closeRings (keepIndices x)).attach = x.attach := by
    rw [Fn.attach, Fn.attach, reg_closeRings, if_neg (by decide), same _ (by decide)]
  rw [Fn.attach, invalidFn, Fn.event, Fn.reg_put_ne _ _ _ (by decide), before]
  exact Fn.bitsOf_reg_put _ ⟨0x1000, 15, 0⟩ _ (by decide)

/-- Settles O47: `invalidFn` says what becomes of the function, `openBinding` what of every binding. -/
theorem invalidateClears : Obligations.InvalidateClears := by
  unfold Obligations.InvalidateClears
  intro f s _ t
  have own : t.fn f = invalidFn (s.fn f) := (fn_setFn s f f _).trans (if_pos rfl)
  obtain ⟨regs, kept, _⟩ := keepIndices_kept (s.fn f)
  have shape : ∃ regs, invalidFn (s.fn f) = { s.fn f with regs := regs, rings := [], windows := [] } := by
    refine ⟨(invalidFn (s.fn f)).regs, ?_⟩
    rw [invalidFn, kept]
    rfl
  obtain ⟨regs', shape⟩ := shape
  refine ⟨fun r ring => ⟨?_, ?_⟩, ?_, ?_, ?_, ?_, ?_, fun g other => ?_, fun b mem i => ?_, rfl⟩
  · have low : ringOff r + 8 < 0x400 := by unfold ringOff; omega
    rw [own, Fn.ringState, reg_invalidFn_ring _ low]
    rfl
  · rw [own, shape]
    rfl
  · rw [own, shape]
  · rw [own, attach_invalidFn]
  · rw [own, shape]
  · rw [own, shape]
  · rw [own, shape]
  · exact (fn_setFn s f g _).trans (if_neg other)
  · obtain ⟨b', _, rfl⟩ := List.mem_map.mp mem
    exact ring_openBinding f i b'

/-! ## The check of a critical command -/

theorem crucible_cruRefused (st : Status) (s : State) : (cruRefused st s).crucible = s.crucible := by
  unfold cruRefused
  split <;> rfl

/-- The outcomes of the check (R397, R398): a refusal that no tag and no counter caused, one of a tag, one of a nonce or
counter, and a pass. -/
theorem critChk_cases (fp : FetchPoint) (pkt : Bytes) (s : State) :
    (∃ st, critChk fp pkt s = (some st, s) ∧ st ≠ .badTag ∧ st ≠ .counterReplay) ∨
    critChk fp pkt s = (some .badTag, cruRefused .badTag s) ∨
    critChk fp pkt s = (some .counterReplay, cruRefused .counterReplay s) ∨
    ∃ k key, packetOk fp pkt = true ∧ natAt pkt 16 16 = s.nonce ∧ s.keyFor (natAt pkt 0 2) (natAt pkt 3 1) = some (k, key) ∧
      kmac256 key (sliceB pkt 0 48 ++ pkt.drop 64) 16 (ascii "TUZESHA-CMD") = sliceB pkt 48 16 ∧
      tabGet (fun _ => 0) s.crucible.streams (16 * fp.index + k) < natAt pkt 8 8 ∧
      critChk fp pkt s = (none, { s with crucible := { s.crucible with
        streams := tabSet (fun _ => 0) s.crucible.streams (16 * fp.index + k) (natAt pkt 8 8) } }) := by
  unfold critChk
  dsimp only
  by_cases whole : packetOk fp pkt = true
  · rw [if_neg (by simp [whole])]
    cases known : s.keyFor (natAt pkt 0 2) (natAt pkt 3 1) with
    | none => exact .inl ⟨_, rfl, nofun, nofun⟩
    | some found =>
      obtain ⟨k, key⟩ := found
      dsimp only
      by_cases tag : kmac256 key (sliceB pkt 0 48 ++ pkt.drop 64) 16 (ascii "TUZESHA-CMD") = sliceB pkt 48 16
      · rw [if_neg (not_not.mpr tag)]
        by_cases fresh : natAt pkt 16 16 ≠ s.nonce ∨
            natAt pkt 8 8 ≤ tabGet (fun _ => 0) s.crucible.streams (16 * fp.index + k)
        · exact .inr (.inr (.inl (if_pos fresh)))
        · rw [if_neg fresh]
          obtain ⟨nonce, counter⟩ := not_or.mp fresh
          exact .inr (.inr (.inr ⟨k, key, whole, not_not.mp nonce, rfl, tag, Nat.lt_of_not_le counter, rfl⟩))
      · exact .inr (.inl (if_pos tag))
  · rw [if_pos (by simpa using whole)]
    exact .inl ⟨_, rfl, nofun, nofun⟩

/-- Settles O49, by the outcomes of the check (`critChk_cases`). -/
theorem criticalCheck : Obligations.CriticalCheck := by
  unfold Obligations.CriticalCheck
  intro fp pkt s
  dsimp only
  obtain ⟨st, refused, noTag, noCounter⟩ | tag | counter | ⟨k, key, whole, nonce, known, tag, higher, pass⟩ :=
    critChk_cases fp pkt s
  · rw [refused]
    exact ⟨nofun, fun _ => rfl, fun h => absurd (Option.some.inj h) noTag,
      fun h => absurd (Option.some.inj h) noCounter, fun _ => Nat.le_refl _⟩
  · rw [tag, crucible_cruRefused]
    exact ⟨nofun, fun _ => rfl, fun _ => State.flag_put_one _ _ 0 (by decide), nofun, fun _ => Nat.le_refl _⟩
  · rw [counter, crucible_cruRefused]
    exact ⟨nofun, fun _ => rfl, nofun, fun _ => State.flag_put_one _ _ 1 (by decide), fun _ => Nat.le_refl _⟩
  · rw [pass]
    have stored (i : Nat) : tabGet (fun _ => 0) (tabSet (fun _ => 0) s.crucible.streams (16 * fp.index + k)
        (natAt pkt 8 8)) i = if i = 16 * fp.index + k then natAt pkt 8 8
          else tabGet (fun _ => 0) s.crucible.streams i := tabGet_tabSet ..
    refine ⟨fun _ => ⟨whole, nonce, k, key, known, tag, higher, ?_, fun i other => ?_⟩, fun h => absurd rfl h, nofun,
      nofun, fun i => ?_⟩
    · exact (stored _).trans (if_pos rfl)
    · exact (stored i).trans (if_neg other)
    · dsimp only
      rw [stored]
      split
      · next own =>
        rw [own]
        exact higher.le
      · exact Nat.le_refl _

end Sys2Proof.Machine
end

section
/-! PROOFS. The step ledger: tallies, deadline, notices and controls (O32), decisions (O33), notices at a die (O34) and
LEDGER_DONE (O35). -/

namespace Sys2Proof.Machine

/-! ## Commands at the block that take the front of an inbox -/

/-- The patrol period of an active die moves on, and nothing else of the block. -/
theorem modDie_patrolNow (s : State) (p : Nat) : ∃ n, s.modDie p patrolNow = s.setDie p ((s.die p).patrolAt n) := by
  obtain ⟨n, moved⟩ := patrolNow_eq (s.die p)
  exact ⟨n, by rw [State.modDie, moved]; rfl⟩

theorem next_atActive {s : State} {p : PDie} {f g : State → State} (act : (s.die p).run = .active)
    (e : ∀ n, f (s.setDie p ((s.die p).patrolAt n)) = g (s.setDie p ((s.die p).patrolAt n))) :
    (Host.Outcome.next (s.atActive p f) : Host.Outcome State Fault Refusal) = .next (s.ranAt p g) := by
  refine congrArg Host.Outcome.next (atActive_ranAt act ?_)
  obtain ⟨n, moved⟩ := modDie_patrolNow s p
  rw [moved]
  exact e n

/-- A command at the block that takes the frame at the front of an active die's inbox. -/
theorem next_atActive_front {s : State} {p : PDie} {fr : Frame} {rest : List Frame} {ok : Bool} {k g : State → State}
    (act : (s.die p).run = .active) (front : (s.die p).inbox = fr :: rest) (acts : ok = true)
    (e : ∀ n, k (s.setDie p ((s.die p).taken n rest)) = g (s.setDie p ((s.die p).patrolAt n))) :
    (Host.Outcome.next (s.atActive p fun s => s.fromInbox p ok fr k) : Host.Outcome State Fault Refusal) =
      .next (s.ranAt p g) := by
  refine next_atActive act fun n => ?_
  have front' : ((s.setDie p ((s.die p).patrolAt n)).die p).inbox = fr :: rest := by
    rw [die_setDie_self]
    exact front
  rw [acts, State.fromInbox_front front', State.modDie, die_setDie_self, setDie_setDie]
  exact e n

theorem ran_eq_ranAt (s : State) (p : PDie) (g : Die → Die) : s.ran p g = s.ranAt p fun s => s.modDie p g := rfl

theorem next_onDie_front {s : State} {p : PDie} {fr : Frame} {rest : List Frame} {ok : Bool} {f g : Die → Die}
    (act : (s.die p).run = .active) (front : (s.die p).inbox = fr :: rest) (acts : ok = true)
    (e : ∀ n, f ((s.die p).taken n rest) = g ((s.die p).patrolAt n)) :
    (Host.Outcome.next (s.onDie p (fromInbox ok fr f)) : Host.Outcome State Fault Refusal) = .next (s.ran p g) :=
  congrArg Host.Outcome.next (onDie_front act front acts e)

/-! ## Commands of the ledger (R267, R268, R277) -/

section
variable {d : Die}

theorem dieLedgerTally_stale {h : BitVec 256} (act : d.run = .active) (whole : hdrOk h = true)
    (stale : tallyOk h = false ∨ ldgMatches d (beadOf h) = false) : dieLedgerTally h d = d.count 0x92060 1 := by
  rw [dieLedgerTally, arriving_whole act whole]
  obtain bad | other := stale
  · simp [bad, staleTally]
  · simp [other, staleTally]

theorem dieLedgerTally_counts {h : BitVec 256} (act : d.run = .active) (whole : hdrOk h = true)
    (ok : tallyOk h = true) (own : ldgMatches d (beadOf h) = true) : dieLedgerTally h d =
      let d' := if ldgRuns d then d else { d.setFlag 0x92004 2 with ldgNotice := none }
      let d' := d'.count (0x9203C + 4 * (beadOf h).seq) (beadOf h).epoch
      match ldgDecides d' with
      | some dec => ldgDecide dec d'
      | none => d' := by
  rw [dieLedgerTally, arriving_whole act whole, if_neg (by simp [ok, own])] <;> rfl

theorem dieLedgerDeadline_runs (act : d.run = .active) (collecting : ldgState d = 1) (runs : ldgRuns d = true)
    (going : paused d (ldgJob d) = false) : dieLedgerDeadline d = ldgDecide (1, 0x0E) d := by
  simp [dieLedgerDeadline, rodUnitOn, act, collecting, runs, going, Status.code]

theorem dieNoticeResend_active (act : d.run = .active) : dieNoticeResend d = ldgAnnounce d := by
  simp [dieNoticeResend, rodUnitOn, act]

/-- A write of bit 0 leaves every other bit of the value. -/
theorem bitsOf_putBit0 (v b : Nat) {hi lo : Nat} (above : 0 < lo) : bitsOf (putBits v 0 0 b) hi lo = bitsOf v hi lo :=
  bitsOf_putBits_apart v b (Nat.le_refl 0) (.inr above)

theorem bitOf_putBit0 (v b : Nat) : bitOf (putBits v 0 0 b) 0 = decide (b % 2 = 1) := by
  rw [bitOf, bitsOf_putBits]
  simp [BEq.beq]

theorem bitsOf_putBit0_low (v : Nat) : bitsOf (putBits v 0 0 1) 4 0 = 2 * bitsOf v 4 1 + 1 := by
  simp only [putBits, bitsOf, Nat.shiftRight_eq_div_pow, Nat.shiftLeft_eq]
  omega

theorem dieLdgEnable_starts {v : Nat} (off : d.flag 0x92000 0 = false) (limit : bitsOf v 12 5 ≠ 0)
    (reserved : bitsOf v 31 21 = 0) : dieLdgEnable true v d =
      let d' := ldgClear (((d.put ⟨0x92000, 12, 5⟩ (bitsOf v 12 5)).put ⟨0x92000, 4, 0⟩
        (2 * bitsOf v 4 1 + 1)).put ⟨0x92000, 20, 13⟩ (bitsOf v 20 13))
      { (d'.put ⟨0x92004, 1, 0⟩ 1).put ⟨0x92004, 15, 8⟩ 0 with ldgNotice := none } := by
  have set : bitOf (putBits v 0 0 1) 0 = true := bitOf_putBit0 v 1
  rw [dieLdgEnable, ldgCtlWrite]
  simp only [off, set, bitsOf_putBit0 v 1 (show 0 < 21 by decide),
    bitsOf_putBit0 v 1 (show 0 < 5 by decide), bitsOf_putBit0 v 1 (show 0 < 13 by decide), bitsOf_putBit0_low, limit,
    reserved, Bool.not_true, Bool.false_eq_true, if_false, ne_eq, not_true_eq_false, decide_false, Bool.or_self, if_true]

theorem dieLdgDisable_stops {v : Nat} (on : d.flag 0x92000 0 = true)
    (same : bitsOf v 20 1 = d.get ⟨0x92000, 20, 1⟩) (reserved : bitsOf v 31 21 = 0) : dieLdgDisable true v d =
      { (ldgClear (d.put ⟨0x92000, 0, 0⟩ 0)).put ⟨0x92004, 1, 0⟩ 0 with ldgNotice := none } := by
  have clear : bitOf (putBits v 0 0 0) 0 = false := bitOf_putBit0 v 0
  rw [dieLdgDisable, ldgCtlWrite]
  simp only [on, clear, bitsOf_putBit0 v 0 (show 0 < 21 by decide), bitsOf_putBit0 v 0 (show 0 < 1 by decide), same,
    reserved, Bool.not_true, Bool.false_eq_true, if_false, ne_eq, not_true_eq_false, decide_false, Bool.or_self, if_true]

end

/-- Settles O32: each command at the die, `dieLedgerTally` and the rest of R267 and R277. -/
theorem ledgerCommandsComplete : Obligations.LedgerCommandsComplete := by
  unfold Obligations.LedgerCommandsComplete
  intro p s act
  refine ⟨fun h rest front whole tally => ⟨fun stale => ?_, fun ok own => ?_⟩, fun collecting runs going => ?_, ?_,
    fun v off limit reserved => ?_, fun v on same reserved => ?_, fun v w other => ?_⟩
  · exact next_onDie_front act front tally fun n =>
      dieLedgerTally_stale (d := (s.die p).taken n rest) act whole stale
  · exact next_onDie_front act front tally fun n =>
      dieLedgerTally_counts (d := (s.die p).taken n rest) act whole ok own
  · exact next_onDie act fun n => dieLedgerDeadline_runs (d := (s.die p).patrolAt n) act collecting runs going
  · exact next_onDie act fun n => dieNoticeResend_active (d := (s.die p).patrolAt n) act
  · exact next_onDie act fun n => dieLdgEnable_starts (d := (s.die p).patrolAt n) off limit reserved
  · exact next_onDie act fun n => dieLdgDisable_stops (d := (s.die p).patrolAt n) on same reserved
  · have ignored (v' : Nat) (d : Die) : ldgCtlWrite (decide (w = .mgmt)) v' d = d.invalidWrite 0x90000 := by
      simp [ldgCtlWrite, other]
    exact ⟨next_onDie act fun n => ignored _ _, next_onDie act fun n => ignored _ _⟩

/-! ## Decisions (R267, R268, R274) -/

theorem reg_emitBead (b : Bead) (d : Die) (o : Nat) : (emitBead b d).reg o = d.reg o := rfl

theorem reg_ldgAnnounce (d : Die) (o : Nat) : (ldgAnnounce d).reg o = d.reg o := by
  unfold ldgAnnounce
  split
  · rfl
  · refine List.foldlRecOn (motive := fun d' : Die => d'.reg o = d.reg o) _ _ rfl fun d' kept k _ => ?_
    dsimp only
    split
    · exact kept
    · exact kept

theorem Die.reg_resetRegs (d : Die) (lo hi o : Nat) :
    (d.resetRegs lo hi).reg o = if lo ≤ o ∧ o < hi then (dieReset o).toNat else d.reg o := by
  rw [Die.reg, Die.resetRegs]
  dsimp only
  rw [tabGet_tabDrop]
  split <;> rfl

section
variable (d : Die)

theorem get_ldgClear (f : Fld) (word : f.hi < 32) (out : f.off < 0x92040 ∨ 0x9205C ≤ f.off)
    (other : f.off ≠ 0x92004 ∨ f.hi < 2 ∨ 2 < f.lo) : (ldgClear d).get f = d.get f := by
  rw [ldgClear, Die.get_put_apart _ _ (Nat.le_refl 2) word other, Die.get, Die.reg_resetRegs,
    if_neg (by omega), Die.get]

theorem reg_ldgClear_ne {o : Nat} (out : o < 0x92040 ∨ 0x9205C ≤ o) (ne : o ≠ 0x92004) :
    (ldgClear d).reg o = d.reg o := by
  rw [ldgClear, Die.reg_put_ne _ _ _ _ ne, Die.reg_resetRegs, if_neg (by omega)]

theorem ldgRuns_ldgClear : (ldgClear d).get ⟨0x92004, 2, 2⟩ = 0 := by
  rw [ldgClear, Die.get_put_same _ _ _ (by decide)]
  rfl

theorem ldgCount_ldgClear {i : Nat} (lo : 1 ≤ i) (hi : i ≤ 7) : (ldgClear d).reg (0x9203C + 4 * i) = 0 := by
  have none : ∀ k ≤ 7, 1 ≤ k → (dieReset (0x9203C + 4 * k)).toNat = 0 := by decide
  rw [ldgClear, Die.reg_put_ne _ _ _ _ (by dsimp only; omega), Die.reg_resetRegs, if_pos (by omega), none i hi lo]

/-- The adoption of a re-shard writes the pending generation, the expected counts and `VALID` alone. -/
theorem reg_ldgAdopt (step : Nat) {o : Nat} (gen : o ≠ 0x9200C) (contexts : o ≠ 0x92010) (dies : o ≠ 0x92014)
    (valid : o ≠ 0x9202C) : (ldgAdopt step d).reg o = d.reg o := by
  unfold ldgAdopt
  split
  · rw [Die.reg_put_ne _ _ _ _ valid, Die.reg_setReg, if_neg dies, Die.reg_setReg, if_neg contexts,
      Die.reg_put_ne _ _ _ _ gen]
  · rfl

end

/-- The decision that stands once `REPEAT_LIMIT` is applied. -/
def ldgKind (d : Die) (kind : Nat) : Nat := if kind = 1 ∧ ldgLimit d ≤ ldgAttempt d then 2 else kind

/-- What a decision makes of the unit's registers once the counts are clear. -/
def ldgMoves (d : Die) (kind cause : Nat) : Die :=
  if ldgKind d kind = 0 then
    ((ldgAdopt (ldgStep d) (ldgClear d)).setReg48 0x92008
      ((ldgStep d + ldgN (ldgAdopt (ldgStep d) (ldgClear d))) % 2 ^ 48)).put ⟨0x92004, 15, 8⟩ 0
  else
    let d' := (ldgClear d).put ⟨0x92004, 23, 16⟩ cause
    if ldgKind d kind = 1 then d'.put ⟨0x92004, 15, 8⟩ (ldgAttempt d + 1) else d'.put ⟨0x92004, 1, 0⟩ 2

theorem reg_ldgDecide (d : Die) (kind cause o : Nat) :
    (ldgDecide (kind, cause) d).reg o = (ldgMoves d kind cause).reg o := by
  rw [ldgDecide]
  exact reg_ldgAnnounce _ o

section
variable (d : Die) (kind cause : Nat)

/-- A field of `LDG_STATUS` or of a register that no decision writes. -/
theorem get_ldgMoves_ne (f : Fld) (out : f.off = 0x92004 ∨ f.off = 0x92000) (word : f.hi < 32)
    (apart : f.off = 0x92000 ∨ (f.lo = 2 ∧ f.hi = 2)) : (ldgMoves d kind cause).get f = (ldgClear d).get f := by
  have adopted : (ldgAdopt (ldgStep d) (ldgClear d)).get f = (ldgClear d).get f := by
    rw [Die.get, Die.get, reg_ldgAdopt] <;> omega
  have stepped (d' : Die) (v : Nat) : (d'.setReg48 0x92008 v).get f = d'.get f := by
    rw [Die.get, Die.setReg48, Die.reg_put_ne _ _ _ _ (by dsimp only; omega), Die.reg_setReg,
      if_neg (by omega), Die.get]
  unfold ldgMoves
  dsimp only
  split
  · rw [Die.get_put_apart _ _ (by dsimp only; omega) word (by dsimp only; omega), stepped, adopted]
  · split
    · rw [Die.get_put_apart _ _ (by dsimp only; omega) word (by dsimp only; omega),
        Die.get_put_apart _ _ (by dsimp only; omega) word (by dsimp only; omega)]
    · rw [Die.get_put_apart _ _ (by dsimp only; omega) word (by dsimp only; omega),
        Die.get_put_apart _ _ (by dsimp only; omega) word (by dsimp only; omega)]

theorem reg_ldgMoves_count {i : Nat} (lo : 1 ≤ i) (hi : i ≤ 7) : (ldgMoves d kind cause).reg (0x9203C + 4 * i) = 0 := by
  rw [← ldgCount_ldgClear d lo hi]
  unfold ldgMoves
  dsimp only
  split
  · rw [Die.reg_put_ne _ _ _ _ (by dsimp only; omega), Die.setReg48, Die.reg_put_ne _ _ _ _ (by dsimp only; omega),
      Die.reg_setReg, if_neg (by omega), reg_ldgAdopt] <;> omega
  · split <;> rw [Die.reg_put_ne _ _ _ _ (by dsimp only; omega), Die.reg_put_ne _ _ _ _ (by dsimp only; omega)]

end

/-- The registers of a unit that commits. -/
theorem ldgMoves_commit (d : Die) (cause : Nat) (collecting : ldgState d = 1) :
    ldgStep (ldgMoves d 0 cause) = (ldgStep d + ldgN d) % 2 ^ 48 ∧ ldgAttempt (ldgMoves d 0 cause) = 0 ∧
      ldgState (ldgMoves d 0 cause) = 1 := by
  have kind : ldgKind d 0 = 0 := if_neg (by simp)
  have windows : ldgN (ldgAdopt (ldgStep d) (ldgClear d)) = ldgN d := by
    refine congrArg (· + 1) ?_
    rw [Die.get, reg_ldgAdopt _ _ (by decide) (by decide) (by decide) (by decide),
      reg_ldgClear_ne d (by decide) (by decide), Die.get]
  rw [ldgMoves, if_pos kind, windows]
  refine ⟨?_, Die.get_put_same _ ⟨0x92004, 15, 8⟩ 0 (by decide), ?_⟩
  · have low (d' : Die) : (d'.put ⟨0x92004, 15, 8⟩ 0).reg48 0x92008 = d'.reg48 0x92008 :=
      congrArg₂ (fun x y => x + bitsOf y 15 0 <<< 32) (Die.reg_put_ne _ _ _ _ (by decide)) (Die.reg_put_ne _ _ _ _ (by decide))
    rw [ldgStep, low, Die.reg48_setReg48, Nat.mod_mod]
  · have apart (d' : Die) (v : Nat) : (d'.setReg48 0x92008 v).get ⟨0x92004, 1, 0⟩ = d'.get ⟨0x92004, 1, 0⟩ := by
      rw [Die.get, Die.setReg48, Die.reg_put_ne _ _ _ _ (by decide), Die.reg_setReg, if_neg (by decide), Die.get]
    rw [ldgState, Die.get_put_apart _ _ (by decide) (by decide) (by decide), apart, Die.get,
      reg_ldgAdopt _ _ (by decide) (by decide) (by decide) (by decide), ← Die.get,
      get_ldgClear d ⟨0x92004, 1, 0⟩ (by decide) (by decide) (by decide)]
    exact collecting

/-- A decision that is no COMMIT leaves the step as it is. -/
theorem ldgStep_ldgMoves (d : Die) {kind : Nat} (cause : Nat) (other : ldgKind d kind ≠ 0) :
    ldgStep (ldgMoves d kind cause) = ldgStep d := by
  have kept (o : Nat) (ne : o ≠ 0x92004) (low : o < 0x92040) : (ldgMoves d kind cause).reg o = d.reg o := by
    rw [ldgMoves, if_neg other]
    dsimp only
    split <;> rw [Die.reg_put_ne _ _ _ _ ne, Die.reg_put_ne _ _ _ _ ne, reg_ldgClear_ne d (.inl low) ne]
  exact congrArg₂ (fun x y => x + bitsOf y 15 0 <<< 32) (kept _ (by decide) (by decide)) (kept _ (by decide) (by decide))

/-- The registers of a unit that repeats. -/
theorem ldgMoves_repeat (d : Die) {cause : Nat} (byte : cause < 256) (collecting : ldgState d = 1)
    (room : ldgAttempt d < ldgLimit d) :
    ldgAttempt (ldgMoves d 1 cause) = ldgAttempt d + 1 ∧ ldgState (ldgMoves d 1 cause) = 1 ∧
      (ldgMoves d 1 cause).get ⟨0x92004, 23, 16⟩ = cause := by
  have kind : ldgKind d 1 = 1 := if_neg (by omega)
  have limit : ldgLimit d < 2 ^ 8 := Die.get_lt d ⟨0x92000, 12, 5⟩
  rw [ldgMoves, kind, if_neg (by decide), if_pos rfl]
  refine ⟨?_, ?_, ?_⟩
  · rw [ldgAttempt, Die.get_put_same _ _ _ (by decide)]
    exact Nat.mod_eq_of_lt (show ldgAttempt d + 1 < 2 ^ 8 by omega)
  · rw [ldgState, Die.get_put_apart _ _ (by decide) (by decide) (by decide),
      Die.get_put_apart _ _ (by decide) (by decide) (by decide), get_ldgClear d _ (by decide) (by decide) (by decide)]
    exact collecting
  · rw [Die.get_put_apart _ _ (by decide) (by decide) (by decide), Die.get_put_same _ _ _ (by decide)]
    exact Nat.mod_eq_of_lt byte

/-- The registers of a unit that stops. -/
theorem ldgMoves_stop (d : Die) {kind cause : Nat} (byte : cause < 256) (stop : ldgKind d kind = 2) :
    ldgAttempt (ldgMoves d kind cause) = ldgAttempt d ∧ ldgState (ldgMoves d kind cause) = 2 ∧
      (ldgMoves d kind cause).get ⟨0x92004, 23, 16⟩ = cause := by
  rw [ldgMoves, stop, if_neg (by decide), if_neg (by decide)]
  refine ⟨?_, ?_, ?_⟩
  · rw [ldgAttempt, Die.get_put_apart _ _ (by decide) (by decide) (by decide),
      Die.get_put_apart _ _ (by decide) (by decide) (by decide), get_ldgClear d _ (by decide) (by decide) (by decide)]
    rfl
  · rw [ldgState, Die.get_put_same _ _ _ (by decide)]
    rfl
  · rw [Die.get_put_apart _ _ (by decide) (by decide) (by decide), Die.get_put_same _ _ _ (by decide)]
    exact Nat.mod_eq_of_lt byte

theorem Die.get_congr {d d' : Die} (f : Fld) (same : d.reg f.off = d'.reg f.off) : d.get f = d'.get f := by
  rw [Die.get, Die.get, same]

/-- Settles O33: the rows in their order, and the registers that `ldgMoves` leaves. -/
theorem ledgerDecides : Obligations.LedgerDecides := by
  unfold Obligations.LedgerDecides
  refine ⟨fun d => ?_, fun d kind cause lt byte collecting => ?_⟩
  · intro c contexts dies
    have rows : ldgDecides d =
        if 0 < c 5 then some (2, 0x09) else if 0 < c 7 then some (1, 0x0A) else if 0 < c 4 then some (1, 0x03)
        else if 0 < c 3 ∨ contexts < c 1 ∨ dies < c 6 then some (1, 0x0A)
        else if c 1 = contexts ∧ c 6 = dies then if 0 < c 2 then some (1, 0x09) else some (0, 0)
        else none := rfl
    rw [rows]
    refine ⟨fun h => if_pos h, fun h5 h7 => ?_, fun h5 h7 h4 => ?_, fun h5 h7 h4 excess => ?_,
      fun h5 h7 h4 h3 h1 h6 h2 => ?_, fun h5 h7 h4 h3 h1 h6 h2 => ?_, fun h5 h7 h4 h3 h1 h6 short => ?_⟩
    · rw [if_neg (by omega), if_pos h7]
    · rw [if_neg (by omega), if_neg (by omega), if_pos h4]
    · rw [if_neg (by omega), if_neg (by omega), if_neg (by omega), if_pos excess]
    · rw [if_neg (by omega), if_neg (by omega), if_neg (by omega), if_neg (by omega), if_pos ⟨h1, h6⟩, if_pos h2]
    · rw [if_neg (by omega), if_neg (by omega), if_neg (by omega), if_neg (by omega), if_pos ⟨h1, h6⟩,
        if_neg (by omega)]
    · rw [if_neg (by omega), if_neg (by omega), if_neg (by omega), if_neg (by omega), if_neg (by omega)]
  · intro d'
    have reg (o : Nat) : d'.reg o = (ldgMoves d kind cause).reg o := reg_ldgDecide d kind cause o
    have get (f : Fld) : d'.get f = (ldgMoves d kind cause).get f := Die.get_congr f (reg _)
    have step : ldgStep d' = ldgStep (ldgMoves d kind cause) :=
      congrArg₂ (fun x y => x + bitsOf y 15 0 <<< 32) (reg _) (reg _)
    have attempt : ldgAttempt d' = ldgAttempt (ldgMoves d kind cause) := get _
    have state : ldgState d' = ldgState (ldgMoves d kind cause) := get _
    rw [step, attempt, state, get ⟨0x92004, 23, 16⟩]
    refine ⟨?_, fun i lo hi => ?_, ?_, ?_, fun stop => ?_⟩
    · rw [ldgRuns, Die.flag_eq_get, get, get_ldgMoves_ne d kind cause _ (by decide) (by decide) (by decide),
        ldgRuns_ldgClear]
      rfl
    · rw [ldgCount, reg, reg_ldgMoves_count d kind cause lo hi]
    · rintro rfl
      exact ldgMoves_commit d cause collecting
    · rintro rfl room
      have kind : ldgKind d 1 ≠ 0 := by rw [ldgKind, if_neg (by omega)]; decide
      exact ⟨ldgStep_ldgMoves d cause kind, ldgMoves_repeat d byte collecting room⟩
    · have stops : ldgKind d kind = 2 := by
        obtain rfl | ⟨rfl, spent⟩ := stop
        · exact if_neg (by omega)
        · exact if_pos ⟨rfl, spent⟩
      exact ⟨ldgStep_ldgMoves d cause (by rw [stops]; decide), ldgMoves_stop d byte stops⟩

/-! ## Notices at a die (R269) -/

section
variable {h : BitVec 256} {d : Die} {csub : Nat} {apply : Bead → Die → Die} (act : d.run = .active)
  (whole : hdrOk h = true) (ok : noticeOk h csub = true) (last : d.get ⟨redBase (beadOf h).job, 15, 9⟩ = 127)
include act whole ok last

theorem notice_applies (applies : noticeApplies d (beadOf h) = true) : notice csub apply h d = apply (beadOf h) d := by
  rw [notice, arriving_whole act whole]
  simp [ok, last, applies]

theorem notice_counts (late : noticeApplies d (beadOf h) = false) :
    notice csub apply h d = d.count 0x90004 1 := by
  rw [notice, arriving_whole act whole]
  simp [ok, last, late]

omit last in
theorem noticeTaken_eq : noticeTaken csub h d = noticeApplies d (beadOf h) := by
  simp [noticeTaken, rodUnitOn, act, whole, ok]

end

theorem isControl_of_noticeOk {h : BitVec 256} {csub : Nat} (ok : noticeOk h csub = true) :
    isControl h csub = true := by
  simp only [noticeOk, Bool.and_eq_true] at ok
  exact ok.1.1.1.1.1.1

section
variable {p : Nat} {h : BitVec 256} {s : State} {d d' : Die}

/-- What a COMMIT that a die applies makes of the block; `d` is the die. -/
theorem commitNotice_taken (taken : noticeTaken 3 h d = true) (die : dieCommitNotice h d = d') :
    commitNotice p h (s.setDie p d) = match s.logicalOf p with
      | some l => committed l p (beadOf h).job (redWindow d (beadOf h).job) (s.setDie p d')
      | none => s.setDie p d' := by
  unfold commitNotice
  dsimp only
  rw [die_setDie_self, taken, State.modDie, die_setDie_self, setDie_setDie, die]
  rfl

theorem repeatNotice_taken (taken : noticeTaken 4 h d = true) (die : dieRepeatNotice h d = d') :
    repeatNotice p h (s.setDie p d) = match s.logicalOf p with
      | some l => (s.jobBindings l (beadOf h).job).foldl
          (fun s x => inputRewind p (redWindow d (beadOf h).job) true x s) (s.setDie p d')
      | none => s.setDie p d' := by
  unfold repeatNotice
  dsimp only
  rw [die_setDie_self, taken, State.modDie, die_setDie_self, setDie_setDie, die]
  rfl

theorem stopNotice_taken (taken : noticeTaken 5 h d = true) (die : dieStopNotice h d = d') :
    stopNotice p h (s.setDie p d) = stopJob (beadOf h).job (beadOf h).handle (s.setDie p d') := by
  unfold stopNotice
  dsimp only
  rw [die_setDie_self, taken, State.modDie, die_setDie_self, setDie_setDie, die]
  rfl

theorem commitNotice_late (late : noticeTaken 3 h d = false) (die : dieCommitNotice h d = d') :
    commitNotice p h (s.setDie p d) = s.setDie p d' := by
  unfold commitNotice
  dsimp only
  rw [die_setDie_self, late, State.modDie, die_setDie_self, setDie_setDie, die]
  rfl

theorem repeatNotice_late (late : noticeTaken 4 h d = false) (die : dieRepeatNotice h d = d') :
    repeatNotice p h (s.setDie p d) = s.setDie p d' := by
  unfold repeatNotice
  dsimp only
  rw [die_setDie_self, late, State.modDie, die_setDie_self, setDie_setDie, die]
  rfl

theorem stopNotice_late (late : noticeTaken 5 h d = false) (die : dieStopNotice h d = d') :
    stopNotice p h (s.setDie p d) = s.setDie p d' := by
  unfold stopNotice
  dsimp only
  rw [die_setDie_self, late, State.modDie, die_setDie_self, setDie_setDie, die]
  rfl

end

/-- Settles O34: the notice is applied or counted at the die, and what the block does with one that is applied. -/
theorem noticesComplete : Obligations.NoticesComplete := by
  unfold Obligations.NoticesComplete
  intro p h rest s b took w act front whole last
  have effect (n : Nat × Nat) (f : Die → Die) : (s.setDie p ((s.die p).patrolAt n)).modDie p (fun d => f (took d)) =
      s.setDie p (f ((s.die p).taken n rest)) := by
    rw [State.modDie, die_setDie_self, setDie_setDie]
    rfl
  have told {csub : Nat} (ok : noticeOk h csub = true) (n : Nat × Nat) :
      noticeTaken csub h ((s.die p).taken n rest) = noticeApplies (s.die p) b :=
    noticeTaken_eq (d := (s.die p).taken n rest) act whole ok
  refine ⟨fun applies => ⟨fun ok => ?_, fun ok => ?_, fun ok => ?_⟩, fun late => ⟨fun ok => ?_,
    fun ok => ?_, fun ok => ?_⟩⟩
  · refine next_atActive_front act front (isControl_of_noticeOk ok) fun n => ?_
    refine (commitNotice_taken ((told ok n).trans applies)
      (notice_applies (d := (s.die p).taken n rest) act whole ok last applies)).trans ?_
    dsimp only
    rw [effect]
    rfl
  · refine next_atActive_front act front (isControl_of_noticeOk ok) fun n => ?_
    refine (repeatNotice_taken ((told ok n).trans applies)
      (notice_applies (d := (s.die p).taken n rest) act whole ok last applies)).trans ?_
    dsimp only
    rw [effect]
    rfl
  · refine next_atActive_front act front (isControl_of_noticeOk ok) fun n => ?_
    refine (stopNotice_taken ((told ok n).trans applies)
      (notice_applies (d := (s.die p).taken n rest) act whole ok last applies)).trans ?_
    rw [effect]
  · rw [ran_eq_ranAt]
    refine next_atActive_front act front (isControl_of_noticeOk ok) fun n => ?_
    refine (commitNotice_late ((told ok n).trans late)
      (notice_counts (d := (s.die p).taken n rest) act whole ok last late)).trans ?_
    rw [effect n fun d => d.count 0x90004 1]
  · rw [ran_eq_ranAt]
    refine next_atActive_front act front (isControl_of_noticeOk ok) fun n => ?_
    refine (repeatNotice_late ((told ok n).trans late)
      (notice_counts (d := (s.die p).taken n rest) act whole ok last late)).trans ?_
    rw [effect n fun d => d.count 0x90004 1]
  · rw [ran_eq_ranAt]
    refine next_atActive_front act front (isControl_of_noticeOk ok) fun n => ?_
    refine (stopNotice_late ((told ok n).trans late)
      (notice_counts (d := (s.die p).taken n rest) act whole ok last late)).trans ?_
    rw [effect n fun d => d.count 0x90004 1]

/-! ## LEDGER_DONE (R271) -/

/-- The field of an op word in which a command puts its mode reads as that mode. -/
theorem opField_withMode (v : OpWord) (hi lo m : Nat) (word : hi < 96) :
    opField (withMode hi lo v m).x hi lo = m % 2 ^ (hi + 1 - lo) := by
  rw [opField, withMode, BitVec.toNat_ofNat, bitsOf_mod_two_pow _ _ word, bitsOf_putBits]

/-- The issue of a long op writes no register but `SEQ_ISSUED`. -/
theorem reg_accept (d : Die) (t : ThreadId) (op : LongOp) {o : Nat} (low : o ≠ 0x30030) (high : o ≠ 0x30034) :
    (accept d t op).reg o = d.reg o := by
  have entered (ops : List LongOp) (next : Nat) :
      ({ issued d t with ops := ops, nextOp := next } : Die).reg o = d.reg o := issued_reg d t o low high
  unfold accept
  dsimp only
  split
  · rw [Die.reg_setThread]
    exact entered ..
  · exact entered ..

section
variable {t : ThreadId} {w : OpWord} {d : Die} (pass : Passes d t 0x62 w [(41, 0)]) (room : HasRoom d t 0x62 w)

/-- A LEDGER_DONE at its unit (R271). -/
def ledgerDoneOp (t : ThreadId) (w : OpWord) (d : Die) : LongOp :=
  { newOp d t 0x62 w .red with
    phase := .running, sval := (d.thread t).sreg (opField w.x 16 12), sval2 := (d.thread t).sreg (opField w.x 41 37) }

theorem redAttempt_accept (j : Nat) : redAttempt (accept d t (ledgerDoneOp t w d)) j = redAttempt d j :=
  Die.get_congr _ (reg_accept _ _ _ (by unfold redBase; dsimp only; omega) (by unfold redBase; dsimp only; omega))

include pass room

theorem dieLedgerDone_current (mode : opField w.x 6 5 = 0)
    (now : ((d.thread t).sreg (opField w.x 16 12)).toNat = redAttempt d (d.threadJob t).toNat) :
    dieLedgerDone t w d =
      let d' := accept d t (ledgerDoneOp t w d)
      ledgerSend (d.threadJob t).toNat 6 (redAttempt d' (d.threadJob t).toNat) (redStep d' (d.threadJob t).toNat) d' := by
  have byte : redAttempt d (d.threadJob t).toNat < 2 ^ 8 := Die.get_lt d _
  rw [dieLedgerDone, issueLong_enters pass room]
  · simp only [mode]
    exact if_pos (now.trans (redAttempt_accept _).symm)
  · simp only [mode]
    rw [if_neg (by omega), if_neg (by omega)]

theorem dieLedgerDone_older (mode : opField w.x 6 5 = 0)
    (old : ((d.thread t).sreg (opField w.x 16 12)).toNat < redAttempt d (d.threadJob t).toNat) :
    dieLedgerDone t w d =
      let d' := accept d t (ledgerDoneOp t w d)
      finishOp d.nextOp .ok (d'.modOp d.nextOp fun o => { o with
        result := some (BitVec.ofNat 5 (opField o.x 11 7),
          doneWord 1 (redAttempt d' (d.threadJob t).toNat) (d'.get ⟨redBase (d.threadJob t).toNat + 0x1C, 15, 8⟩)) }) := by
  have byte : redAttempt d (d.threadJob t).toNat < 2 ^ 8 := Die.get_lt d _
  rw [dieLedgerDone, issueLong_enters pass room]
  · simp only [mode]
    exact if_neg fun now => old.ne (now.trans (redAttempt_accept _))
  · simp only [mode]
    rw [if_neg (by omega), if_neg (by omega)]

theorem dieLedgerDone_waitctx (mode : opField w.x 6 5 = 1)
    (sc : ((d.thread t).sreg (opField w.x 16 12)).toNat < 2 ^ 20)
    (context : bitsOf ((d.thread t).sreg (opField w.x 16 12)).toNat 10 0 < 1536)
    (ss : ((d.thread t).sreg (opField w.x 41 37)).toNat < 2 ^ 48)
    (reached : pairLt (redStep d (d.threadJob t).toNat) (redAttempt d (d.threadJob t).toNat)
      ((d.thread t).sreg (opField w.x 41 37)).toNat (bitsOf ((d.thread t).sreg (opField w.x 16 12)).toNat 19 12) = false) :
    dieLedgerDone t w d = waitctxTry (ledgerDoneOp t w d) (accept d t (ledgerDoneOp t w d)) := by
  rw [dieLedgerDone, issueLong_enters pass room]
  · simp only [mode]
    rfl
  · simp only [mode]
    rw [if_neg (by omega), if_neg (by simp [reached])]

theorem dieLedgerDone_release (mode : opField w.x 6 5 = 2)
    (context : bitsOf ((d.thread t).sreg (opField w.x 16 12)).toNat 10 0 < 1536)
    (may : mayRelease d (ctxBase (bitOf ((d.thread t).sreg (opField w.x 16 12)).toNat 11)
      (bitsOf ((d.thread t).sreg (opField w.x 16 12)).toNat 10 0)) = true) :
    dieLedgerDone t w d = ctxWake (scCtx (ledgerDoneOp t w d))
      (setCtxState (scCtx (ledgerDoneOp t w d)) 1 (accept d t (ledgerDoneOp t w d))) := by
  rw [dieLedgerDone, issueLong_enters pass room]
  · simp only [mode]
    rfl
  · simp only [mode]
    rw [if_neg (by omega), if_pos may]

end

/-- Settles O35: the op of each mode that passes its checks, at its unit (`ledgerDoneOp`). -/
theorem ledgerDoneComplete : Obligations.LedgerDoneComplete := by
  unfold Obligations.LedgerDoneComplete
  intro p t v s m lt w d0 j sc ss o b att pass room
  have act : (s.die p).run = .active := active_of_canIssue pass.1
  have mode : opField w.x 6 5 = m := (opField_withMode v 6 5 m (by decide)).trans (Nat.mod_eq_of_lt (by omega))
  refine ⟨?_, ?_, ?_, ?_⟩
  · rintro rfl now
    exact next_onDie act fun n => dieLedgerDone_current (d := (s.die p).patrolAt n) pass room mode now
  · rintro rfl old
    exact next_onDie act fun n => dieLedgerDone_older (d := (s.die p).patrolAt n) pass room mode old
  · rintro rfl word context step reached
    exact next_onDie act fun n =>
      dieLedgerDone_waitctx (d := (s.die p).patrolAt n) pass room mode word context step reached
  · rintro rfl context may
    have released : mayRelease (s.die p) b = true := by simpa [mayRelease] using may
    exact next_onDie act fun n => dieLedgerDone_release (d := (s.die p).patrolAt n) pass room mode context released

end Sys2Proof.Machine
end

section
/-! PROOFS. Ops that enter the DMA queue (O15), the vector queue (O11) and the array queue (O7). -/

namespace Sys2Proof.Machine

section
variable {t : ThreadId} {w : OpWord} {d : Die}

/-! ## Movement (R178 to R183) -/

theorem issueMove_enters {opcode : Nat} {fields : List (Nat × Nat)} {chk : Die → Thread → Option Status}
    (pass : Passes d t opcode w fields) (room : HasRoom d t opcode w) (ok : chk d (d.thread t) = none) :
    issueMove opcode t w fields chk d = dmaGo (accept d t (newOp d t opcode w .dma)) := by
  rw [issueMove, issueLong_enters pass room ok]

theorem dieDma_enters (pass : Passes d t 0x40 w [(68, 0)]) (room : HasRoom d t 0x40 w)
    (inSpd : opField w.x 22 6 + (oregOff (d.thread t) w).toNat + opField w.x 68 52 ≤ spdWords)
    (inMem : 64 * (opField w.x 51 23 + (oregOff (d.thread t) w).toNat) + 512 * opField w.x 68 52 ≤ 2 ^ 35) :
    dieDma t w d = dmaGo (accept d t (newOp d t 0x40 w .dma)) := by
  refine issueMove_enters pass room ?_
  dsimp only
  rw [if_neg (Nat.not_lt.mpr inSpd), if_neg (Nat.not_lt.mpr inMem)]

end

/-- Settles O15: each op enters the queue by `issueMove_enters`. -/
theorem movementOpsComplete : Obligations.MovementOpsComplete := by
  unfold Obligations.MovementOpsComplete
  intro p t w s off n done ok
  refine ⟨?_, ?_, ?_, ?_, ?_⟩
  · rintro ⟨pass, room, _⟩ inSpd inMem
    exact next_onDie (active_of_canIssue pass.1) fun k =>
      dieDma_enters (d := (s.die p).patrolAt k) pass room inSpd inMem
  all_goals
    rintro ⟨pass, room, checked⟩
    exact next_onDie (active_of_canIssue pass.1) fun k =>
      issueMove_enters (d := (s.die p).patrolAt k) pass room checked

/-! ## Vector ops (R185 to R189) -/

section
variable {t : ThreadId} {w : OpWord} {d : Die}

theorem issueVec_enters {opcode : Nat} {fields : List (Nat × Nat)} {chk : Die → Thread → Option Status}
    (pass : Passes d t opcode w fields) (room : HasRoom d t opcode w) (ok : chk d (d.thread t) = none) :
    issueVec opcode t w fields chk d =
      vecGo (payBucket (d.threadJob t).toNat (3 * vecHs opcode w.x) (accept d t
        { newOp d t opcode w .vector with sval := (d.thread t).sreg (opField w.x 49 45) })) := by
  rw [issueVec, issueLong_enters pass room ok]
  rfl

theorem dieRngDraw_enters (pass : Passes d t 0x39 w [(6, 0), (40, 24), (90, 75)]) (room : HasRoom d t 0x39 w)
    (mode : opField w.x 6 5 ≤ 1)
    (inside : inSpd (512 * (opField w.x 40 24 + (oregOff (d.thread t) w).toNat)) (128 * opField w.x 90 75) = true) :
    dieRngDraw t w d =
      vecGo (payBucket (d.threadJob t).toNat (3 * vecHs 0x39 w.x) (accept d t
        { newOp d t 0x39 w .vector with sval := (d.thread t).sreg (opField w.x 49 45) })) := by
  rw [dieRngDraw]
  refine issueVec_enters pass room ?_
  rw [if_neg (Nat.not_lt.mpr mode), if_neg (by simp [inside])]

end

/-- Settles O11: each op enters the queue by `issueVec_enters`. -/
theorem vectorOpsComplete : Obligations.VectorOpsComplete := by
  unfold Obligations.VectorOpsComplete
  intro p t w s ok done reg
  have enters (opcode : Nat) (h : reg opcode) :
      (Host.Outcome.next (s.onDie p (dieVec opcode t w)) : Host.Outcome State Fault Refusal) = done opcode := by
    obtain ⟨pass, room, checked⟩ := h
    exact next_onDie (active_of_canIssue pass.1) fun k =>
      issueVec_enters (d := (s.die p).patrolAt k) pass room checked
  refine ⟨enters _, enters _, enters _, enters _, enters _, enters _, enters _, enters _, enters _, enters _, enters _,
    enters _, enters _, enters _, enters _, enters _, enters _, enters _, enters _, enters _, enters _, enters _,
    enters _, enters _, ?_, ?_⟩
  · rintro ⟨pass, room, checked⟩
    exact next_onDie (active_of_canIssue pass.1) fun k =>
      issueVec_enters (d := (s.die p).patrolAt k) pass room checked
  · rintro ⟨pass, room, _⟩ mode inside
    exact next_onDie (active_of_canIssue pass.1) fun k =>
      dieRngDraw_enters (d := (s.die p).patrolAt k) pass room mode inside

/-! ## Matrix ops (R113 to R117) -/

section
variable {t : ThreadId} {w : OpWord} {d : Die}

theorem dieMma_enters (pass : Passes d t 0x10 w mmaFields) (room : HasRoom d t 0x10 w)
    (ok : mmaChk w d (d.thread t) = none) : dieMma t w d =
      arrayGo (payBucket (d.threadJob t).toNat (4 * mmaSteps (d.thread t).descA.fmt.toNat (mmaF w.x))
        (accept d t (newOp d t 0x10 w .array))) := by
  rw [dieMma, issueLong_enters pass room ok]
  rfl

theorem dieSwap_enters (pass : Passes d t 0x13 w swapFields) (room : HasRoom d t 0x13 w) :
    dieSwap t w d = arrayGo (accept d t (newOp d t 0x13 w .array)) := by
  rw [dieSwap, issueLong_enters pass room rfl, afterArray]

theorem dieDrain_enters (pass : Passes d t 0x14 w drainFields) (room : HasRoom d t 0x14 w)
    (ok : drainChk w d (d.thread t) = none) :
    dieDrain t w d = arrayGo (accept d t (newOp d t 0x14 w .array)) := by
  rw [dieDrain, issueLong_enters pass room ok, afterArray]

theorem dieZeroAcc_enters (pass : Passes d t 0x15 w zeroFields) (room : HasRoom d t 0x15 w) :
    dieZeroAcc t w d = arrayGo (accept d t (newOp d t 0x15 w .array)) := by
  rw [dieZeroAcc, issueLong_enters pass room rfl, afterArray]

/-- The descriptor that a load writes keeps the rules of R113. -/
abbrev LoadOk (t : ThreadId) (w : OpWord) (d : Die) : Prop :=
  opField w.x 39 36 ≤ 12 ∧ opField w.x 16 0 + (oregOff (d.thread t) w).toNat < spdWords ∧
    blockWords (opField w.x 39 36) (opField w.x 41 40 + 1) ≤ opField w.x 35 20

/-- The descriptor of a load. -/
def loadDesc (t : ThreadId) (w : OpWord) (d : Die) (skew : Nat) : Desc :=
  ⟨BitVec.ofNat 17 (opField w.x 16 0 + (oregOff (d.thread t) w).toNat), BitVec.ofNat 16 (opField w.x 35 20),
    BitVec.ofNat 4 (opField w.x 39 36), BitVec.ofNat 2 (opField w.x 41 40), BitVec.ofNat 2 skew⟩

theorem dieLoad_a (pass : Passes d t 0x11 w (loadFields true)) (ok : LoadOk t w d) : dieLoad true t w d =
    (issued d t).modThread t fun th => { th with descA := loadDesc t w d (opField w.x 43 42) } := by
  obtain ⟨fmt, base, stride⟩ := ok
  simp only [dieLoad, if_true]
  rw [issueOp_passes pass]
  · rfl
  · rw [if_neg (Nat.not_lt.mpr fmt), if_neg (Nat.not_le.mpr base), if_neg (Nat.not_lt.mpr stride)]

theorem dieLoad_b (pass : Passes d t 0x12 w (loadFields false)) (ok : LoadOk t w d) : dieLoad false t w d =
    (issued d t).modThread t fun th => { th with descB := loadDesc t w d 0 } := by
  obtain ⟨fmt, base, stride⟩ := ok
  simp only [dieLoad, Bool.false_eq_true, if_false]
  rw [issueOp_passes pass]
  · rfl
  · rw [if_neg (Nat.not_lt.mpr fmt), if_neg (Nat.not_le.mpr base), if_neg (Nat.not_lt.mpr stride)]

end

section
variable {d : Die} (act : d.run = .active)
include act

theorem dieDrainStart_runs {mk id : Nat} {o : LongOp} (going : d.halted = false) (clear : d.clearing = false)
    (idle : arrBusy d 0x14 = false) (head : headMarker d.ops = some (mk, id)) (op : d.op? id = some o) :
    dieDrainStart d =
      let r := runDrain o d
      settle (arrayGo (vecGo
        (({ r.2 with ops := r.2.ops.filter (fun q => decide (q.id ≠ mk)) } : Die).opDone id r.1))) := by
  have open_ : ¬(d.halted || decide (d.run ≠ .active) || d.clearing || arrBusy d 0x14) = true := by
    simp [act, going, clear, idle]
  rw [dieDrainStart, if_neg open_, head]
  dsimp only
  rw [op]

omit act in
theorem dieOpCompletion_completes {id : Nat} {o : LongOp} {st : Status} (op : d.op? id = some o)
    (phase : o.phase = .done st) (kind : o.kind = .op) (turn : mayComplete d o = true) (going : d.halted = false) :
    dieOpCompletion id d = settle (unitsGo (landGen (finishOp id st d))) := by
  rw [dieOpCompletion, op]
  dsimp only
  rw [phase]
  simp [kind, turn, going]

theorem dieAccAccess_read {off : BitVec 41} {len : Nat} (ok : accAccessOk off.toNat len = true) :
    dieAccAccess off len none d =
      arrayGo { d with ops := d.ops ++ [{ newOp d 0 0xFF ⟨0, 0, 0⟩ .array with kind := .access off len none }]
                       nextOp := d.nextOp + 1 } := by
  simp [dieAccAccess, act, ok]

theorem dieAccAccess_write {off : BitVec 41} (len : Nat) {bs : Bytes} (ok : accAccessOk off.toNat bs.length = true) :
    dieAccAccess off len (some bs) d =
      arrayGo { d with ops := d.ops ++ [{ newOp d 0 0xFF ⟨0, 0, 0⟩ .array with
                                            kind := .access off bs.length (some bs) }]
                       nextOp := d.nextOp + 1 } := by
  simp [dieAccAccess, act, ok]

theorem dieAccAccess_malformed {off : BitVec 41} {len : Nat} (bad : accAccessOk off.toNat len = false) :
    dieAccAccess off len none d = { d with accOut := d.accOut ++ [(.malformed, [])] } := by
  simp [dieAccAccess, act, bad]

end

/-- Settles O7: the queued ops by `issueLong_enters`, the loads by `issueOp_passes`, and the events of the array. -/
theorem matrixComplete : Obligations.MatrixComplete := by
  unfold Obligations.MatrixComplete
  refine ⟨fun p t w s => ⟨fun pass room ok => ?_, fun pass room => ?_, fun pass room ok => ?_, fun pass room => ?_⟩,
    fun p t w s => ⟨fun pass ok => ?_, fun pass ok => ?_⟩, fun p s act =>
    ⟨fun mk id o going clear idle head op => ?_, fun id o st op phase kind turn going => ?_, fun off len ok => ?_,
      fun off len bs ok => ?_, fun off len bad => ?_⟩⟩
  · exact next_onDie (active_of_canIssue pass.1) fun n => dieMma_enters (d := (s.die p).patrolAt n) pass room ok
  · exact next_onDie (active_of_canIssue pass.1) fun n => dieSwap_enters (d := (s.die p).patrolAt n) pass room
  · exact next_onDie (active_of_canIssue pass.1) fun n => dieDrain_enters (d := (s.die p).patrolAt n) pass room ok
  · exact next_onDie (active_of_canIssue pass.1) fun n => dieZeroAcc_enters (d := (s.die p).patrolAt n) pass room
  · exact next_onDie (active_of_canIssue pass.1) fun n => dieLoad_a (d := (s.die p).patrolAt n) pass ok
  · exact next_onDie (active_of_canIssue pass.1) fun n => dieLoad_b (d := (s.die p).patrolAt n) pass ok
  · exact next_onDie act fun n => dieDrainStart_runs (d := (s.die p).patrolAt n) act going clear idle head op
  · exact next_onDie act fun n => dieOpCompletion_completes (d := (s.die p).patrolAt n) op phase kind turn going
  · exact next_onDie act fun n => dieAccAccess_read (d := (s.die p).patrolAt n) act ok
  · exact next_onDie act fun n => dieAccAccess_write (d := (s.die p).patrolAt n) act len ok
  · exact next_onDie act fun n => dieAccAccess_malformed (d := (s.die p).patrolAt n) act bad

end Sys2Proof.Machine
end

section
/-! PROOFS. Messaging ops (O17), the limits of waiting ops (O18) and the arrival of data beads (O19). -/

namespace Sys2Proof.Machine

/-! ## Messaging ops (R207, R210, R212, R213) -/

section
variable {t : ThreadId} {w : OpWord} {d : Die}

theorem issueMsg_enters {opcode : Nat} {fields : List (Nat × Nat)} {chk : Die → Thread → Option Status}
    {mk : Thread → LongOp → LongOp} {post : LongOp → Die → Die} (pass : Passes d t opcode w fields)
    (room : HasRoom d t opcode w) (ok : chk d (d.thread t) = none) : issueMsg opcode t w fields chk mk post d =
      let o := { mk (d.thread t) (newOp d t opcode w .msg) with phase := .running }
      post o (accept d t o) := by
  rw [issueMsg, issueLong_enters pass room ok]

theorem diePeek_enters (pass : Passes d t 0x52 w [(42, 0)]) (room : HasRoom d t 0x52 w) : diePeek t w d =
    serveRod (opField w.x 16 5) (accept d t { newOp d t 0x52 w .msg with phase := .running }) := by
  rw [diePeek, issueMsg_enters pass room rfl]

theorem dieRecv_enters (pass : Passes d t 0x51 w [(55, 36), (34, 0)]) (room : HasRoom d t 0x51 w)
    (inside : bitOf w.x.toNat 17 = true → opField w.x 34 18 + (oregOff (d.thread t) w).toNat ≤ 98303) :
    dieRecv t w d =
      serveRod (opField w.x 16 5) (accept d t { newOp d t 0x51 w .msg with phase := .running }) := by
  rw [dieRecv, issueMsg_enters pass room]
  exact if_neg fun h => Nat.not_lt.mpr (inside h.1) h.2

theorem dieOpen_enters (pass : Passes d t 0x53 w [(46, 0)]) (room : HasRoom d t 0x53 w)
    (ok : openChk w d (d.thread t) = none) : dieOpen t w d =
      let o := { newOp d t 0x53 w .msg with phase := .running, sval := (d.thread t).sreg (opField w.x 21 17) }
      openGo w.x o (accept d t o) := by
  rw [dieOpen, issueMsg_enters pass room ok]

theorem dieClose_enters (pass : Passes d t 0x54 w [(23, 0)]) (room : HasRoom d t 0x54 w)
    (writer : bitOf w.x.toNat 18 = true → badWriter ((d.thread t).sreg (opField w.x 23 19)) = false) :
    dieClose t w d =
      let o := { newOp d t 0x54 w .msg with phase := .running, sval := (d.thread t).sreg (opField w.x 23 19) }
      closeGo w.x o (accept d t o) := by
  rw [dieClose, issueMsg_enters pass room]
  exact if_neg fun h => by simp [writer h.1] at h

/-- A SEND that its checks let through is not counted as one of the other world's. -/
theorem dieSend_passes {e : Nat} (pass : Passes d t 0x50 w [(70, 0)]) (ok : sendChk w d (d.thread t) = none)
    (entry : sendEntry d ((d.thread t).sreg (opField w.x 9 5)) = some e) : dieSend t w d =
      if ccAvail d e < sendUnits w.x then stallCredit t e w d
      else
        let d' := unblock t.toNat d
        if 1024 ≤ d'.sendsOut ∨ tokenFull (d.thread t) w then stallAt d' t .waitQueue 0x50 w
        else
          let o := { newOp d' t 0x50 w .msg with
            phase := .running, sval := (d.thread t).sreg (opField w.x 9 5)
            sval2 := (d.thread t).sreg (opField w.x 14 10) }
          sendGo e o (accept d' t o) := by
  have uncounted : dieSend.countWorld t w d = d := by simp [dieSend.countWorld, ok]
  rw [dieSend, uncounted, issueOp_passes pass ok]
  dsimp only
  rw [entry]

theorem dieSend_enters {e : Nat} (pass : Passes d t 0x50 w [(70, 0)]) (ok : sendChk w d (d.thread t) = none)
    (entry : sendEntry d ((d.thread t).sreg (opField w.x 9 5)) = some e) (credit : sendUnits w.x ≤ ccAvail d e)
    (handle : d.sendsOut < 1024) (token : tokenFull (d.thread t) w = false) : dieSend t w d =
      let d' := unblock t.toNat d
      let o := { newOp d' t 0x50 w .msg with
        phase := .running, sval := (d.thread t).sreg (opField w.x 9 5)
        sval2 := (d.thread t).sreg (opField w.x 14 10) }
      sendGo e o (accept d' t o) := by
  have free : ¬(1024 ≤ (unblock t.toNat d).sendsOut ∨ tokenFull (d.thread t) w = true) := by
    rw [token]
    exact fun h => h.elim (Nat.not_le.mpr handle) Bool.false_ne_true
  rw [dieSend_passes pass ok entry, if_neg (Nat.not_lt.mpr credit)]
  exact if_neg free

theorem dieSend_stalls {e : Nat} (pass : Passes d t 0x50 w [(70, 0)]) (ok : sendChk w d (d.thread t) = none)
    (entry : sendEntry d ((d.thread t).sreg (opField w.x 9 5)) = some e) (short : ccAvail d e < sendUnits w.x) :
    dieSend t w d = stallCredit t e w d := by
  rw [dieSend_passes pass ok entry, if_pos short]

end

/-- The credit cache does not rest on the patrol period. -/
theorem ccFind_patrolAt (d : Die) (n : Nat × Nat) (pkg die rod : Nat) :
    ccFind (d.patrolAt n) pkg die rod = ccFind d pkg die rod := by
  have reg (o : Nat) : (d.patrolAt n).reg o = d.reg o := rfl
  simp only [ccFind, reg]

theorem sendEntry_patrolAt (d : Die) (n : Nat × Nat) (dst : Word64) :
    sendEntry (d.patrolAt n) dst = sendEntry d dst := ccFind_patrolAt ..

theorem sendState_patrolAt (d : Die) (n : Nat × Nat) (dst : Word64) (units : Nat) :
    sendState (d.patrolAt n) dst units = sendState d dst units := by
  unfold sendState
  rw [sendEntry_patrolAt]
  generalize sendEntry d dst = entry
  cases entry with
  | none => rfl
  | some e => rfl

theorem sendChk_patrolAt (w : OpWord) (d : Die) (n : Nat × Nat) (th : Thread) :
    sendChk w (d.patrolAt n) th = sendChk w d th := by
  unfold sendChk
  dsimp only
  cases sendFields w.x (oregOff th w).toNat (th.sreg (opField w.x 9 5)) (th.sreg (opField w.x 14 10)) with
  | some st => rfl
  | none => exact sendState_patrolAt ..

/-- Settles O17: each op at its unit, `issueMsg_enters`, and SEND by its credit, `dieSend_passes`. -/
theorem messageOpsComplete : Obligations.MessageOpsComplete := by
  unfold Obligations.MessageOpsComplete
  intro p t w s n th off
  refine ⟨fun pass room => ?_, fun pass room inside => ?_, fun pass room ok => ?_, fun pass room writer => ?_,
    fun e pass ok entry credit handle token => ?_, fun e pass ok entry short => ?_⟩
  · exact next_onDie (active_of_canIssue pass.1) fun k => diePeek_enters (d := (s.die p).patrolAt k) pass room
  · exact next_onDie (active_of_canIssue pass.1) fun k => dieRecv_enters (d := (s.die p).patrolAt k) pass room inside
  · exact next_onDie (active_of_canIssue pass.1) fun k => dieOpen_enters (d := (s.die p).patrolAt k) pass room ok
  · exact next_onDie (active_of_canIssue pass.1) fun k => dieClose_enters (d := (s.die p).patrolAt k) pass room writer
  · exact next_onDie (active_of_canIssue pass.1) fun k =>
      dieSend_enters (d := (s.die p).patrolAt k) pass ((sendChk_patrolAt ..).trans ok)
        ((sendEntry_patrolAt ..).trans entry) credit handle token
  · exact next_onDie (active_of_canIssue pass.1) fun k =>
      dieSend_stalls (d := (s.die p).patrolAt k) pass ((sendChk_patrolAt ..).trans ok)
        ((sendEntry_patrolAt ..).trans entry) short

/-! ## Limits (R209, R210, R238, R271) -/

section
variable {d : Die} {id : Nat} {o : LongOp} (op : d.op? id = some o) (going : paused d o.job.toNat = false)

section
include op going

theorem diePeekRecvTimeout_ends (unit : o.unit = .msg) (opcode : o.opcode = 0x51 ∨ o.opcode = 0x52)
    (limit : rodTimeoutOf o ≠ 0) : diePeekRecvTimeout id d = finishOp id .timeout (zeroPeek o d) := by
  rw [diePeekRecvTimeout, op]
  exact if_pos ⟨unit, opcode, limit, by rw [going]; rfl⟩

theorem dieVerUseTimeout_ends (opcode : o.opcode = 0x70) (phase : o.phase = .running)
    (limit : opField o.x 38 19 ≠ 0) : dieVerUseTimeout id d = finishOp id .timeout d := by
  rw [dieVerUseTimeout, op]
  simp [opcode, phase, limit, going]

theorem dieLedgerDoneTimeout_ends (opcode : o.opcode = 0x62) (phase : o.phase = .running)
    (mode : opField o.x 6 5 ≤ 1) (limit : opField o.x 36 17 ≠ 0) :
    dieLedgerDoneTimeout id d = finishOp id .timeout d := by
  rw [dieLedgerDoneTimeout, op]
  simp [opcode, phase, mode, limit, going]

end

theorem dieAnswerTimeout_send {k op e units : Nat} {epoch sq : BitVec 16} {since : BitVec 48}
    (handle : tabGet noHandle d.handles k = some ⟨op, .send e units, epoch, sq, since⟩)
    (now : ccEpoch d e = epoch.toNat) (opened : ccState d e = 0) : dieAnswerTimeout k d =
      handleFreed (finishOp op .timeout (ccStale e (((dropHandle k d).setFlag 0x50008 2).event 0x50000))) := by
  have word : (((dropHandle k d).setFlag 0x50008 2).event 0x50000).reg (ccBase e + 4) = d.reg (ccBase e + 4) := by
    rw [Die.reg_event, Die.reg_setFlag_ne _ _ _ _ (by unfold ccBase; omega)]
    rfl
  have epoch' : ccEpoch (((dropHandle k d).setFlag 0x50008 2).event 0x50000) e = epoch.toNat :=
    (congrArg (bitsOf · 15 0) word).trans now
  have state' : ccState (((dropHandle k d).setFlag 0x50008 2).event 0x50000) e = 0 :=
    (congrArg (bitsOf · 17 16) word).trans opened
  rw [dieAnswerTimeout, handle]
  dsimp only
  rw [if_pos ⟨epoch', state'⟩]

end

/-- Settles O18: each limit at the die. -/
theorem opTimersComplete : Obligations.OpTimersComplete := by
  unfold Obligations.OpTimersComplete
  refine ⟨fun p s act => ⟨fun id o op unit opcode limit going => ?_,
    fun k op e units epoch sq since handle now opened => ?_⟩,
    fun p id o s act op phase going => ⟨fun opcode limit => ?_, fun opcode mode limit => ?_⟩⟩
  · exact next_onDie act fun n => diePeekRecvTimeout_ends (d := (s.die p).patrolAt n) op going unit opcode limit
  · exact next_onDie act fun n => dieAnswerTimeout_send (d := (s.die p).patrolAt n) handle now opened
  · exact next_onDie act fun n => dieVerUseTimeout_ends (d := (s.die p).patrolAt n) op going opcode phase limit
  · exact next_onDie act fun n => dieLedgerDoneTimeout_ends (d := (s.die p).patrolAt n) op going opcode phase mode limit

/-! ## Data beads (R197, R205) -/

section
variable {h : BitVec 256} {payload : Bytes} {d : Die}

/-- Checks 3 to 7 of R205, in order. -/
theorem beadVerdict_malformed
    (bad : beadBad h = true ∨ (beadOf h).dstDie = 127 ∨ payload.length + 32 ≠ 32 * (beadOf h).length) :
    beadVerdict h payload d = .error .malformed := if_pos bad

section
variable (good : beadBad h = false) (die : (beadOf h).dstDie ≠ 127)
  (length : payload.length + 32 = 32 * (beadOf h).length)
include good die length

theorem beadVerdict_whole : beadVerdict h payload d =
    if !worldOk (beadOf h).world (rodWorld d (beadOf h).dstRod) then .error .worldViolation
    else if (beadOf h).epoch ≠ rodEpoch d (beadOf h).dstRod then .error .staleEpoch
    else if !rodOpen d (beadOf h).dstRod ∨ (beadOf h).job ≠ rodJob d (beadOf h).dstRod then .error .closed
    else match rodPlace d (beadOf h).dstRod (beadOf h).length with
      | none => .error .resourceExhausted
      | some at_ => .ok at_ := by
  rw [beadVerdict, if_neg (by simp [good, die, length])] <;> rfl

theorem beadVerdict_worldViolation (world : worldOk (beadOf h).world (rodWorld d (beadOf h).dstRod) = false) :
    beadVerdict h payload d = .error .worldViolation := by
  rw [beadVerdict_whole good die length, if_pos (by rw [world]; rfl)]

variable (world : worldOk (beadOf h).world (rodWorld d (beadOf h).dstRod) = true)
include world

theorem beadVerdict_staleEpoch (epoch : (beadOf h).epoch ≠ rodEpoch d (beadOf h).dstRod) :
    beadVerdict h payload d = .error .staleEpoch := by
  rw [beadVerdict_whole good die length, if_neg (by simp [world]), if_pos epoch]

variable (epoch : (beadOf h).epoch = rodEpoch d (beadOf h).dstRod)
include epoch

theorem beadVerdict_closed
    (other : rodOpen d (beadOf h).dstRod = false ∨ (beadOf h).job ≠ rodJob d (beadOf h).dstRod) :
    beadVerdict h payload d = .error .closed := by
  rw [beadVerdict_whole good die length, if_neg (by simp [world]), if_neg (not_not.mpr epoch),
    if_pos (by simpa using other)]

variable (opened : rodOpen d (beadOf h).dstRod = true) (job : (beadOf h).job = rodJob d (beadOf h).dstRod)
include opened job

theorem beadVerdict_placed : beadVerdict h payload d =
    match rodPlace d (beadOf h).dstRod (beadOf h).length with
      | none => .error .resourceExhausted
      | some at_ => .ok at_ := by
  rw [beadVerdict_whole good die length, if_neg (by simp [world]), if_neg (not_not.mpr epoch),
    if_neg (by simp [opened, job])]

end

theorem ownRow_data (kind : (beadOf h).kind ≤ 1) : ownRow (beadOf h) = false := by
  simp only [ownRow, Bool.or_eq_false_iff, Bool.and_eq_false_iff, decide_eq_false_iff_not]
  omega

section
variable (act : d.run = .active) (whole : hdrOk h = true) (kind : (beadOf h).kind ≤ 1)
include act whole kind

theorem arrivalWaits_refused {st : Status} (verdict : beadVerdict h payload d = .error st) :
    arrivalWaits h payload d = false := by
  simp [arrivalWaits, rodUnitOn, act, whole, ownRow_data kind, verdict]

theorem arrivalWaits_ring {place : Nat} (verdict : beadVerdict h payload d = .ok (false, place)) :
    arrivalWaits h payload d = d.clearing := by
  simp [arrivalWaits, rodUnitOn, act, whole, ownRow_data kind, verdict]

theorem dieBeadArrival_refused (ue : Bool) {st : Status} (verdict : beadVerdict h payload d = .error st) :
    dieBeadArrival h payload ue d = nakBead (beadOf h) st (if st = .worldViolation then worldRefused d else d) := by
  rw [dieBeadArrival, arriving_whole act whole]
  simp [ownRow_data kind, verdict]

theorem dieBeadArrival_ring (ue : Bool) {place : Nat} (verdict : beadVerdict h payload d = .ok (false, place)) :
    dieBeadArrival h payload ue d = serveRod (beadOf h).dstRod
      (deliverBead (beadOf h) (storeBead (beadOf h).dstRod (heldHeader h ue) payload false place d)) := by
  rw [dieBeadArrival, arriving_whole act whole]
  simp [ownRow_data kind, verdict]

end

/-- The verdict does not rest on the inbox or the patrol period. -/
theorem beadVerdict_taken (n : Nat × Nat) (rest : List Frame) :
    beadVerdict h payload (d.taken n rest) = beadVerdict h payload d := rfl

theorem beadVerdict_patrolAt (n : Nat × Nat) :
    beadVerdict h payload (d.patrolAt n) = beadVerdict h payload d := rfl

end

/-- Settles O19: the verdict by the checks in their order, and what the bead's row does with it. -/
theorem beadArrivalComplete : Obligations.BeadArrivalComplete := by
  unfold Obligations.BeadArrivalComplete
  intro p h payload rest s b n took act front whole kind
  have data : isData h = true := by simp [isData, show (beadOf h).kind ≤ 1 from kind]
  have taken (k : Nat × Nat) (ue : Bool) :
      fromInbox (isData h) (.bead h payload) (dieBeadArrival h payload ue) ((s.die p).patrolAt k) =
        dieBeadArrival h payload ue ((s.die p).taken k rest) := by
    rw [data, fromInbox_front (d := (s.die p).patrolAt k) front]
    rfl
  refine ⟨fun ue place good die length world epoch opened job room => ?_, fun ue st verdict => ?_,
    beadVerdict_malformed, fun good die length => ⟨beadVerdict_worldViolation good die length, fun world =>
      ⟨beadVerdict_staleEpoch good die length world, beadVerdict_closed good die length world,
        fun epoch opened job none => ?_⟩⟩⟩
  · have verdict : beadVerdict h payload (s.die p) = .ok (false, place) :=
      (beadVerdict_placed good die length world epoch opened job).trans (by rw [room])
    have waits (k : Nat × Nat) : arrivalWaits h payload ((s.die p).patrolAt k) = (s.die p).clearing :=
      arrivalWaits_ring (d := (s.die p).patrolAt k) act whole kind verdict
    refine ⟨fun clear => next_onDie act fun k => ?_, fun clearing => next_onDie act fun k => ?_⟩
    · rw [waits, clear, if_neg Bool.false_ne_true, taken]
      exact dieBeadArrival_ring (d := (s.die p).taken k rest) act whole kind ue verdict
    · rw [waits, clearing, if_pos rfl]
      rfl
  · refine next_onDie act fun k => ?_
    have goes : arrivalWaits h payload ((s.die p).patrolAt k) = false :=
      arrivalWaits_refused (d := (s.die p).patrolAt k) act whole kind verdict
    rw [goes, if_neg Bool.false_ne_true, taken]
    exact dieBeadArrival_refused (d := (s.die p).taken k rest) act whole kind ue verdict
  · exact (beadVerdict_placed good die length world epoch opened job).trans (by rw [none])

end Sys2Proof.Machine
end

section
/-! PROOFS. The version ops: VER_USE (O24), VER_NEW (O25), VER_PIN and VER_RELEASE (O26). -/

namespace Sys2Proof.Machine

/-! ## The registry reads as before the issue of an op -/

/-- The registers of the version registry, and all above them, read the same. -/
def SameRegistry (d d' : Die) : Prop := ∀ o, 0x60000 ≤ o → d'.reg o = d.reg o

theorem sameRegistry_patrolAt (d : Die) (n : Nat × Nat) : SameRegistry d (d.patrolAt n) := fun _ _ => rfl

theorem sameRegistry_accept (d : Die) (t : ThreadId) (op : LongOp) : SameRegistry d (accept d t op) :=
  fun _ above => reg_accept d t op (by omega) (by omega)

theorem sameRegistry_verDone (id : Nat) (st : Status) (res : Option (BitVec 5 × Word64)) (d : Die) :
    SameRegistry d (verDone id st res d) := fun _ _ => rfl

section
variable {d d' : Die} (same : SameRegistry d d')
include same

theorem SameRegistry.get (f : Fld) (above : 0x60000 ≤ f.off) : d'.get f = d.get f :=
  Die.get_congr f (same _ above)

theorem SameRegistry.slotState (t k : Nat) : slotState d' t k = slotState d t k :=
  same.get _ (by unfold slotReg verBase; dsimp only; omega)

theorem SameRegistry.slotNumber (t k : Nat) : slotNumber d' t k = slotNumber d t k :=
  same.get _ (by unfold slotReg verBase; dsimp only; omega)

theorem SameRegistry.slotRefs (t k : Nat) : slotRefs d' t k = slotRefs d t k :=
  same.get _ (by unfold slotReg verBase; dsimp only; omega)

theorem SameRegistry.slotPins (t k : Nat) : slotPins d' t k = slotPins d t k :=
  same.get _ (by unfold slotReg verBase; dsimp only; omega)

theorem SameRegistry.slotOf (t n : Nat) : slotOf d' t n = slotOf d t n := by
  simp only [Machine.slotOf, same.slotState, same.slotNumber]

theorem SameRegistry.verSlots (t : Nat) : verSlots d' t = verSlots d t :=
  congrArg (· + 1) (same.get _ (by unfold verBase; dsimp only; omega))

theorem SameRegistry.freeSlot (t : Nat) : freeSlot d' t = freeSlot d t := by
  simp only [Machine.freeSlot, same.slotState, same.verSlots]

theorem SameRegistry.verLast (t : Nat) : verLast d' t = verLast d t :=
  same.get _ (by unfold verBase; dsimp only; omega)

theorem SameRegistry.verCommitValid (t : Nat) : verCommitValid d' t = verCommitValid d t :=
  congrArg (bitOf · 24) (same _ (by unfold verBase; omega))

theorem SameRegistry.absentWaits (t n : Nat) : absentWaits d' t n = absentWaits d t n := by
  rw [Machine.absentWaits, Machine.absentWaits, same.verCommitValid, same.verLast]

theorem SameRegistry.verWord (t k : Nat) : verWord d' t k = verWord d t k := by
  rw [Machine.verWord, Machine.verWord, same _ (by unfold verBase; omega), same.slotNumber]

end

/-! ## VER_USE (R231, R232, R238, R239) -/

section
variable {t : ThreadId} {w : OpWord} {d : Die}

/-- The first checks of a version op hold (R239). -/
theorem verChk_passes {bits : Nat} {k : Nat → Nat → Option Status} (width : verSa w.x (d.thread t) < 2 ^ bits)
    (enable : verEnable d (opField w.x 6 5) = true) (job : verJob d (opField w.x 6 5) = (d.threadJob t).toNat) :
    verChk w bits t d (d.thread t) k = k (opField w.x 6 5) (verSa w.x (d.thread t)) := by
  rw [verChk, if_neg (Nat.not_le.mpr width), if_neg (by simp [enable, job])]

/-- The number that a VER_USE names. -/
def verUseNumber (t : ThreadId) (w : OpWord) (d : Die) : Nat :=
  if opField w.x 8 7 = 0 then windowNumber d (opField w.x 6 5) (verSa w.x (d.thread t)) else verSa w.x (d.thread t)

/-- A VER_USE at its unit. -/
def verUseOp (t : ThreadId) (w : OpWord) (d : Die) : LongOp :=
  { newOp d t 0x70 w .ver with phase := .running, stamp := verUseNumber t w d }

/-- LOOKUP reports the slot of its number (R238). -/
def verLookup (w : OpWord) (o : LongOp) (d : Die) : Die :=
  match slotOf d (opField w.x 6 5) o.stamp with
  | some k => verDone o.id .ok (some (verSd w.x, verWord d (opField w.x 6 5) k)) d
  | none => d

/-- What a VER_USE does once it has issued (R232, R238). -/
def verUseGo (w : OpWord) (o : LongOp) (d : Die) : Die :=
  if opField w.x 8 7 = 2 then verLookup w o d else verJudge (opField w.x 6 5) o d

section
variable (pass : Passes d t 0x70 w [(38, 0)]) (room : HasRoom d t 0x70 w) (mode : opField w.x 8 7 ≠ 3)
  (width : verSa w.x (d.thread t) < 2 ^ (if opField w.x 8 7 = 0 then 48 else 8))
  (enable : verEnable d (opField w.x 6 5) = true) (job : verJob d (opField w.x 6 5) = (d.threadJob t).toNat)
  (start : opField w.x 8 7 = 0 → verStart d (opField w.x 6 5) ≤ verSa w.x (d.thread t))
include pass room mode width enable job start

/-- A VER_USE whose slot or number lets it through issues. -/
theorem dieVerUse_enters
    (ok : (∃ k, slotOf d (opField w.x 6 5) (verUseNumber t w d) = some k ∧
        (opField w.x 8 7 = 2 ∨ slotState d (opField w.x 6 5) k ≠ 4 ∨ slotRefs d (opField w.x 6 5) k ≠ 65535)) ∨
      (slotOf d (opField w.x 6 5) (verUseNumber t w d) = none ∧ opField w.x 8 7 ≠ 2 ∧
        absentWaits d (opField w.x 6 5) (verUseNumber t w d) = true)) :
    dieVerUse t w d = verUseGo w (verUseOp t w d) (accept d t (verUseOp t w d)) := by
  rw [dieVerUse]
  dsimp only
  rw [issueVer, issueLong_enters pass room]
  · rfl
  · rw [if_neg mode, verChk_passes width enable job, if_neg fun h => Nat.not_lt.mpr (start h.1) h.2]
    change (match slotOf d (opField w.x 6 5) (verUseNumber t w d) with
      | some k => _
      | none => _) = none
    obtain ⟨k, slot, free⟩ | ⟨slot, judged, waits⟩ := ok
    · rw [slot]
      exact if_neg fun h => free.elim h.1 fun free => free.elim (· h.2.1) (· h.2.2)
    · rw [slot]
      refine if_neg fun h => h.elim judged fun h => ?_
      change (!absentWaits d (opField w.x 6 5) (verUseNumber t w d)) = true at h
      simp [waits] at h

end

/-- The op of a slot that is LIVE takes a reference, at its issue. -/
theorem verUseGo_takes (use : opField w.x 8 7 ≠ 2) {k : Nat}
    (slot : slotOf d (opField w.x 6 5) (verUseNumber t w d) = some k) (live : slotState d (opField w.x 6 5) k = 4) :
    verUseGo w (verUseOp t w d) (accept d t (verUseOp t w d)) =
      verTake (opField w.x 6 5) k (verUseOp t w d) (accept d t (verUseOp t w d)) := by
  have same := sameRegistry_accept d t (verUseOp t w d)
  rw [verUseGo, if_neg use, verJudge]
  have slot' : slotOf (accept d t (verUseOp t w d)) (opField w.x 6 5) (verUseOp t w d).stamp = some k :=
    (same.slotOf ..).trans slot
  rw [slot']
  exact if_pos ((same.slotState ..).trans live)

theorem verUseGo_waits (use : opField w.x 8 7 ≠ 2)
    (slot : (slotOf d (opField w.x 6 5) (verUseNumber t w d) = none ∧
        absentWaits d (opField w.x 6 5) (verUseNumber t w d) = true) ∨
      ∃ k, slotOf d (opField w.x 6 5) (verUseNumber t w d) = some k ∧ slotState d (opField w.x 6 5) k ≠ 4) :
    verUseGo w (verUseOp t w d) (accept d t (verUseOp t w d)) = accept d t (verUseOp t w d) := by
  have same := sameRegistry_accept d t (verUseOp t w d)
  rw [verUseGo, if_neg use, verJudge]
  obtain ⟨absent, waits⟩ | ⟨k, slot, other⟩ := slot
  · have absent' : slotOf (accept d t (verUseOp t w d)) (opField w.x 6 5) (verUseOp t w d).stamp = none :=
      (same.slotOf ..).trans absent
    rw [absent']
    exact if_pos ((same.absentWaits ..).trans waits)
  · have slot' : slotOf (accept d t (verUseOp t w d)) (opField w.x 6 5) (verUseOp t w d).stamp = some k :=
      (same.slotOf ..).trans slot
    rw [slot']
    exact if_neg fun live => other ((same.slotState ..).symm.trans live)

theorem verUseGo_looks (look : opField w.x 8 7 = 2) {k : Nat}
    (slot : slotOf d (opField w.x 6 5) (verUseNumber t w d) = some k) :
    verUseGo w (verUseOp t w d) (accept d t (verUseOp t w d)) =
      verDone d.nextOp .ok (some (verSd w.x, verWord d (opField w.x 6 5) k)) (accept d t (verUseOp t w d)) := by
  have same := sameRegistry_accept d t (verUseOp t w d)
  have slot' : slotOf (accept d t (verUseOp t w d)) (opField w.x 6 5) (verUseOp t w d).stamp = some k :=
    (same.slotOf ..).trans slot
  rw [verUseGo, if_pos look, verLookup, slot', ← same.verWord]
  rfl

end

/-- Settles O24: VER_USE issues by `dieVerUse_enters`; what it does then is `verUseGo`. -/
theorem versionUseComplete : Obligations.VersionUseComplete := by
  unfold Obligations.VersionUseComplete
  intro p t v s m lt w st d sa number run o pass room width enable job start
  have act : (s.die p).run = .active := active_of_canIssue pass.1
  have mode : opField w.x 8 7 = m := (opField_withMode v 8 7 m (by decide)).trans (Nat.mod_eq_of_lt (by omega))
  have runs (g : Die → Die) (e : ∀ n, dieVerUse t w ((s.die p).patrolAt n) = g ((s.die p).patrolAt n)) :
      exec run s = .next (s.ran p g) := by
    have cases : m = 0 ∨ m = 1 ∨ m = 2 := by omega
    obtain rfl | rfl | rfl := cases <;> exact next_onDie act e
  have named : verUseNumber t w (s.die p) = number := by rw [verUseNumber, mode]
  have op (n : Nat × Nat) : verUseOp t w ((s.die p).patrolAt n) = o ((s.die p).patrolAt n) :=
    congrArg (fun x => { newOp ((s.die p).patrolAt n) t 0x70 w .ver with phase := .running, stamp := x }) named
  have enters (n : Nat × Nat) := dieVerUse_enters (d := (s.die p).patrolAt n) pass room (by omega)
    (by rw [mode]; exact width) enable job (by rw [mode]; exact start)
  have slotAt (n : Nat × Nat) : slotOf ((s.die p).patrolAt n) st (verUseNumber t w ((s.die p).patrolAt n)) =
      slotOf (s.die p) st number :=
    ((sameRegistry_patrolAt (s.die p) n).slotOf st _).trans (congrArg (slotOf (s.die p) st) named)
  have waitsAt (n : Nat × Nat) : absentWaits ((s.die p).patrolAt n) st (verUseNumber t w ((s.die p).patrolAt n)) =
      absentWaits (s.die p) st number := congrArg (absentWaits (s.die p) st) named
  refine ⟨fun k use slot live refs => ?_, fun use slot => ?_, fun k look slot => ?_⟩
  · refine runs _ fun n => ?_
    rw [enters n (.inl ⟨k, (slotAt n).trans slot, .inr (.inr refs)⟩),
      verUseGo_takes (d := (s.die p).patrolAt n) (by omega) ((slotAt n).trans slot) live, op]
  · refine runs _ fun n => ?_
    rw [enters n, verUseGo_waits (d := (s.die p).patrolAt n) (by omega), op]
    · rw [slotAt, waitsAt]
      exact slot
    · rw [slotAt, waitsAt]
      obtain ⟨absent, waits⟩ | ⟨k, slot, other⟩ := slot
      · exact .inr ⟨absent, by omega, waits⟩
      · exact .inl ⟨k, slot, .inr (.inl other)⟩
  · refine runs _ fun n => ?_
    rw [enters n (.inl ⟨k, (slotAt n).trans slot, .inl (mode.trans look)⟩),
      verUseGo_looks (d := (s.die p).patrolAt n) (mode.trans look) ((slotAt n).trans slot), op]

/-! ## VER_NEW (R234, R238, R239) -/

section
variable {t : ThreadId} {w : OpWord} {d : Die} {k : Nat}

/-- A VER_NEW, VER_PIN or VER_RELEASE at its unit. -/
def verOp (opcode : Nat) (t : ThreadId) (w : OpWord) (stamp : Nat) (d : Die) : LongOp :=
  { newOp d t opcode w .ver with phase := .running, stamp := stamp }

theorem slotState_verDone (id : Nat) (st : Status) (res : Option (BitVec 5 × Word64)) (d : Die) (u j : Nat) :
    slotState (verDone id st res d) u j = slotState d u j := rfl

/-- The stage's slots lie in its LPDDR (R230, R239). -/
abbrev SlotsFit (d : Die) (u : Nat) : Prop :=
  bitsOf (d.reg (verBase u + 4)) 26 15 ≠ 0 ∧
    bitsOf (d.reg (verBase u + 4)) 14 0 + verSlots d u * bitsOf (d.reg (verBase u + 4)) 26 15 ≤ 32768

/-- SEAL, once it has issued (R234). -/
def verSealGo (u : Nat) (o : LongOp) (d : Die) : Die :=
  match slotOf d u o.stamp with
  | some k =>
    let d := verDone o.id .ok none d
    if slotState d u k = 3 then verRetire u (verWake u o.stamp (setSlotState u k 4 d)) else setSlotState u k 2 d
  | none => d

/-- ALLOC or INITIAL, once it has issued (R234). -/
def verFillGo (w : OpWord) (o : LongOp) (d : Die) : Die :=
  let u := opField w.x 6 5
  let n := (o.stamp + 1) % 256
  match freeSlot d u with
  | none => d
  | some k =>
    if opField w.x 8 7 = 0 then
      let d := verAlloc u k n (if verCommitValid d u ∧ n = verLast d u then 3 else 1) d
      verDone o.id .ok (some (verSd w.x, verWord d u k)) d
    else
      let d := verAlloc u k n 3 d
      verDone o.id .ok none ((d.put ⟨verBase u + 0x10, 23, 16⟩ n).setFlag (verBase u + 0x10) 24)

section
variable (pass : Passes d t 0x71 w [(18, 0)]) (room : HasRoom d t 0x71 w)
  (width : verSa w.x (d.thread t) < 2 ^ (if opField w.x 8 7 = 1 then 8 else 48))
  (enable : verEnable d (opField w.x 6 5) = true) (job : verJob d (opField w.x 6 5) = (d.threadJob t).toNat)
include pass room width enable job

theorem dieVerNew_seals (mode : opField w.x 8 7 = 1)
    (slot : slotOf d (opField w.x 6 5) (verSa w.x (d.thread t)) = some k)
    (seals : slotState d (opField w.x 6 5) k = 1 ∨ slotState d (opField w.x 6 5) k = 3) :
    dieVerNew t w d = verSealGo (opField w.x 6 5) (verOp 0x71 t w (verSa w.x (d.thread t)) d)
      (accept d t (verOp 0x71 t w (verSa w.x (d.thread t)) d)) := by
  rw [dieVerNew]
  dsimp only
  rw [issueVer, issueLong_enters pass room]
  · exact if_pos mode
  · rw [if_neg (by omega), verChk_passes width enable job, if_pos mode, slot]
    exact if_pos seals

theorem dieVerNew_fills (mode : opField w.x 8 7 = 0 ∨ opField w.x 8 7 = 2) (fit : SlotsFit d (opField w.x 6 5))
    (new : opField w.x 8 7 = 0 → slotOf d (opField w.x 6 5) ((verSa w.x (d.thread t) + 1) % 256) = none)
    (first : opField w.x 8 7 = 2 → (∀ i, i < 8 → slotState d (opField w.x 6 5) i = 0) ∧
      verSa w.x (d.thread t) = (verStart d (opField w.x 6 5) + 2 ^ 48 - 1) % 2 ^ 48)
    (free : freeSlot d (opField w.x 6 5) = some k) :
    dieVerNew t w d = verFillGo w (verOp 0x71 t w (verSa w.x (d.thread t)) d)
      (accept d t (verOp 0x71 t w (verSa w.x (d.thread t)) d)) := by
  have fills : opField w.x 8 7 ≠ 1 := by omega
  rw [dieVerNew]
  dsimp only
  rw [issueVer, issueLong_enters pass room]
  · exact if_neg fills
  · rw [if_neg (by omega), verChk_passes width enable job, if_neg fills,
      if_neg (not_or.mpr ⟨fit.1, Nat.not_lt.mpr fit.2⟩), if_neg, if_neg, free]
    · exact if_neg Bool.false_ne_true
    · rintro ⟨initial, used | other⟩
      · obtain ⟨i, mem, busy⟩ := List.any_eq_true.mp used
        exact of_decide_eq_true busy ((first initial).1 i (List.mem_range.mp mem))
      · exact other (first initial).2
    · rintro ⟨alloc, taken⟩
      simp [new alloc] at taken

end

theorem verSealGo_of_state (slot : slotOf d (opField w.x 6 5) (verSa w.x (d.thread t)) = some k) :
    let o := verOp 0x71 t w (verSa w.x (d.thread t)) d
    let d' := verDone d.nextOp .ok none (accept d t o)
    verSealGo (opField w.x 6 5) o (accept d t o) =
      if slotState d (opField w.x 6 5) k = 3 then
        verRetire (opField w.x 6 5) (verWake (opField w.x 6 5) (verSa w.x (d.thread t))
          (setSlotState (opField w.x 6 5) k 4 d'))
      else setSlotState (opField w.x 6 5) k 2 d' := by
  intro o d'
  have same := sameRegistry_accept d t o
  have slot' : slotOf (accept d t o) (opField w.x 6 5) o.stamp = some k := (same.slotOf ..).trans slot
  rw [verSealGo, slot']
  dsimp only
  rw [slotState_verDone, same.slotState]
  rfl

theorem verFillGo_alloc (mode : opField w.x 8 7 = 0) (free : freeSlot d (opField w.x 6 5) = some k) :
    let o := verOp 0x71 t w (verSa w.x (d.thread t)) d
    let n := (verSa w.x (d.thread t) + 1) % 256
    let d' := verAlloc (opField w.x 6 5) k n
      (if verCommitValid d (opField w.x 6 5) ∧ n = verLast d (opField w.x 6 5) then 3 else 1) (accept d t o)
    verFillGo w o (accept d t o) = verDone d.nextOp .ok (some (verSd w.x, verWord d' (opField w.x 6 5) k)) d' := by
  intro o n d'
  have same := sameRegistry_accept d t o
  rw [verFillGo]
  dsimp only
  rw [same.freeSlot, free]
  dsimp only
  rw [if_pos mode, same.verCommitValid, same.verLast]
  rfl

theorem verFillGo_initial (mode : opField w.x 8 7 = 2) (free : freeSlot d (opField w.x 6 5) = some k) :
    let o := verOp 0x71 t w (verSa w.x (d.thread t)) d
    let n := (verSa w.x (d.thread t) + 1) % 256
    let d' := verAlloc (opField w.x 6 5) k n 3 (accept d t o)
    verFillGo w o (accept d t o) = verDone d.nextOp .ok none
      ((d'.put ⟨verBase (opField w.x 6 5) + 0x10, 23, 16⟩ n).setFlag (verBase (opField w.x 6 5) + 0x10) 24) := by
  intro o n d'
  have same := sameRegistry_accept d t o
  rw [verFillGo]
  dsimp only
  rw [same.freeSlot, free]
  dsimp only
  rw [if_neg (by omega)]
  rfl

end

/-- Settles O25: each mode of VER_NEW at its unit. -/
theorem versionNewComplete : Obligations.VersionNewComplete := by
  unfold Obligations.VersionNewComplete
  intro p t v s m k lt w st d sa b n o pass room width enable job
  have act : (s.die p).run = .active := active_of_canIssue pass.1
  have mode : opField w.x 8 7 = m := (opField_withMode v 8 7 m (by decide)).trans (Nat.mod_eq_of_lt (by omega))
  have same (i : Nat × Nat) := sameRegistry_patrolAt (s.die p) i
  refine ⟨?_, ?_, ?_, ?_⟩
  · rintro rfl base fit new free
    refine next_onDie act fun i => (dieVerNew_fills (d := (s.die p).patrolAt i) pass room (by rw [mode]; exact width)
      enable job (.inl mode) ⟨base, fit⟩ (fun _ => ((same i).slotOf st n).trans new) (fun h => by omega)
      (((same i).freeSlot st).trans free)).trans ?_
    exact verFillGo_alloc (d := (s.die p).patrolAt i) mode (((same i).freeSlot st).trans free)
  · rintro rfl slot opened
    refine next_onDie act fun i => (dieVerNew_seals (d := (s.die p).patrolAt i) pass room (by rw [mode]; exact width)
      enable job mode (((same i).slotOf st sa).trans slot) (.inl opened)).trans ?_
    refine (verSealGo_of_state (d := (s.die p).patrolAt i) (((same i).slotOf st sa).trans slot)).trans (if_neg ?_)
    rw [(same i).slotState, opened]
    decide
  · rintro rfl slot committed
    refine next_onDie act fun i => (dieVerNew_seals (d := (s.die p).patrolAt i) pass room (by rw [mode]; exact width)
      enable job mode (((same i).slotOf st sa).trans slot) (.inr committed)).trans ?_
    exact (verSealGo_of_state (d := (s.die p).patrolAt i) (((same i).slotOf st sa).trans slot)).trans (if_pos committed)
  · rintro rfl base fit none first free
    refine next_onDie act fun i => (dieVerNew_fills (d := (s.die p).patrolAt i) pass room (by rw [mode]; exact width)
      enable job (.inr mode) ⟨base, fit⟩ (fun h => by omega) (fun _ => ⟨none, first⟩)
      (((same i).freeSlot st).trans free)).trans ?_
    exact verFillGo_initial (d := (s.die p).patrolAt i) mode (((same i).freeSlot st).trans free)

/-! ## VER_PIN and VER_RELEASE (R233, R236, R238, R239, R241) -/

section
variable {t : ThreadId} {w : OpWord} {d : Die} {k : Nat}
  (enable : verEnable d (opField w.x 6 5) = true) (job : verJob d (opField w.x 6 5) = (d.threadJob t).toNat)
  (width : verSa w.x (d.thread t) < 2 ^ 8) (slot : slotOf d (opField w.x 6 5) (verSa w.x (d.thread t)) = some k)
include enable job width slot

theorem dieVerPin_pins (pass : Passes d t 0x72 w [(6, 0), (19, 9)]) (room : HasRoom d t 0x72 w)
    (named : bitOf w.x.toNat 19 = false) (live : slotState d (opField w.x 6 5) k = 4)
    (pins : slotPins d (opField w.x 6 5) k < 15) :
    let d' := setSlotPins (opField w.x 6 5) k (slotPins d (opField w.x 6 5) k + 1) (accept d t (verOp 0x72 t w k d))
    dieVerPin t w d = verDone d.nextOp .ok (some (verSd w.x, verWord d' (opField w.x 6 5) k)) d' := by
  have same := sameRegistry_accept d t (verOp 0x72 t w k d)
  intro d'
  rw [dieVerPin]
  dsimp only
  rw [named, issueVer, issueLong_enters pass room]
  · simp only [Bool.false_eq_true, if_false, slot, Option.getD_some]
    have counted := same.slotPins (opField w.x 6 5) k
    exact congrArg (fun x => let d' := setSlotPins (opField w.x 6 5) k (x + 1) (accept d t (verOp 0x72 t w k d))
      verDone d.nextOp .ok (some (verSd w.x, verWord d' (opField w.x 6 5) k)) d') counted
  · simp only [Bool.false_eq_true, if_false]
    rw [verChk_passes width enable job, slot]
    dsimp only
    rw [if_neg (not_not.mpr live), if_neg (by omega)]

/-- What a VER_RELEASE of a slot does once it has issued. -/
def verReleaseGo (w : OpWord) (k : Nat) (d : Die) : Die :=
  let u := opField w.x 6 5
  if opField w.x 8 7 = 0 then
    let d' := setSlotRefs u k (slotRefs d u k - 1) d
    verRetire u (d'.setReg (0xA8028 + 0x40 * u) ((d'.reg (0xA8028 + 0x40 * u) + 1) % 2 ^ 32))
  else if opField w.x 8 7 = 1 then verRetire u (setSlotPins u k (slotPins d u k - 1) d)
  else freeSlotOf u k d

theorem dieVerRelease_releases (pass : Passes d t 0x73 w [(8, 0), (18, 14)]) (room : HasRoom d t 0x73 w)
    (mode : opField w.x 8 7 ≠ 3) (refs : opField w.x 8 7 = 0 → slotRefs d (opField w.x 6 5) k ≠ 0)
    (pins : opField w.x 8 7 = 1 → slotPins d (opField w.x 6 5) k ≠ 0)
    (free : opField w.x 8 7 = 2 → slotState d (opField w.x 6 5) k = 4 →
      slotRefs d (opField w.x 6 5) k = 0 ∧ slotPins d (opField w.x 6 5) k = 0) :
    dieVerRelease t w d = verReleaseGo w k
      (verDone d.nextOp .ok none (accept d t (verOp 0x73 t w (verSa w.x (d.thread t)) d))) := by
  have same := sameRegistry_accept d t (verOp 0x73 t w (verSa w.x (d.thread t)) d)
  have slot' := (same.slotOf (opField w.x 6 5) (verSa w.x (d.thread t))).trans slot
  rw [dieVerRelease]
  dsimp only
  rw [issueVer, issueLong_enters pass room]
  · change (match slotOf (accept d t (verOp 0x73 t w (verSa w.x (d.thread t)) d)) (opField w.x 6 5)
      (verSa w.x (d.thread t)) with
      | none => _
      | some k => _) = _
    rw [slot']
    rfl
  · rw [if_neg mode, verChk_passes width enable job, slot]
    dsimp only
    rw [if_neg fun h => refs h.1 h.2, if_neg fun h => pins h.1 h.2,
      if_neg fun h => h.2.2.elim (· (free h.1 h.2.1).1) (· (free h.1 h.2.1).2)]

end

section
variable {w : OpWord} {d d' : Die} {k : Nat} (same : SameRegistry d d')
include same

theorem verReleaseGo_ref (mode : opField w.x 8 7 = 0) : verReleaseGo w k d' =
    let d'' := setSlotRefs (opField w.x 6 5) k (slotRefs d (opField w.x 6 5) k - 1) d'
    let c := 0xA8028 + 0x40 * opField w.x 6 5
    verRetire (opField w.x 6 5) (d''.setReg c ((d''.reg c + 1) % 2 ^ 32)) := by
  rw [← same.slotRefs]
  exact if_pos mode

theorem verReleaseGo_unpin (mode : opField w.x 8 7 = 1) : verReleaseGo w k d' =
    verRetire (opField w.x 6 5) (setSlotPins (opField w.x 6 5) k (slotPins d (opField w.x 6 5) k - 1) d') := by
  rw [← same.slotPins]
  exact (if_neg (by omega)).trans (if_pos mode)

omit same in
theorem verReleaseGo_discard (mode : opField w.x 8 7 = 2) :
    verReleaseGo w k d' = freeSlotOf (opField w.x 6 5) k d' :=
  (if_neg (by omega)).trans (if_neg (by omega))

end

/-- Settles O26: VER_PIN and the three modes of VER_RELEASE at their unit. -/
theorem versionPinReleaseComplete : Obligations.VersionPinReleaseComplete := by
  unfold Obligations.VersionPinReleaseComplete
  intro p t v s m k lt w st d sa o done pst
  have mode : opField w.x 8 7 = m := (opField_withMode v 8 7 m (by decide)).trans (Nat.mod_eq_of_lt (by omega))
  have same (i : Nat × Nat) := sameRegistry_patrolAt (s.die p) i
  refine ⟨fun pass room named width enable job slot live pins => ?_, fun pass room width enable job slot => ?_⟩
  · exact next_onDie (active_of_canIssue pass.1) fun i => dieVerPin_pins (d := (s.die p).patrolAt i) enable job width
      (((same i).slotOf pst _).trans slot) pass room named live pins
  · have act : (s.die p).run = .active := active_of_canIssue pass.1
    have releases (refs : m = 0 → slotRefs d st k ≠ 0) (pins : m = 1 → slotPins d st k ≠ 0)
        (free : m = 2 → slotState d st k = 4 → slotRefs d st k = 0 ∧ slotPins d st k = 0) (i : Nat × Nat) :=
      dieVerRelease_releases (d := (s.die p).patrolAt i) enable job width (((same i).slotOf st sa).trans slot) pass room
        (by omega) (fun h => refs (mode.symm.trans h)) (fun h => pins (mode.symm.trans h))
        (fun h => free (mode.symm.trans h))
    refine ⟨?_, ?_, ?_⟩
    · rintro rfl refs
      refine next_onDie act fun i => (releases (fun _ => refs) (absurd · (by decide)) (absurd · (by decide)) i).trans ?_
      exact verReleaseGo_ref (d := (s.die p).patrolAt i) (sameRegistry_accept _ t _) mode
    · rintro rfl pins
      refine next_onDie act fun i => (releases (absurd · (by decide)) (fun _ => pins) (absurd · (by decide)) i).trans ?_
      exact verReleaseGo_unpin (d := (s.die p).patrolAt i) (sameRegistry_accept _ t _) mode
    · rintro rfl free
      refine next_onDie act fun i => (releases (absurd · (by decide)) (absurd · (by decide)) (fun _ => free) i).trans ?_
      exact verReleaseGo_discard mode

end Sys2Proof.Machine
end

section
/-! PROOFS. Remote accumulation at its owner: arriving packets (O28), pushes, sweeps and configuration (O30). -/

namespace Sys2Proof.Machine

/-! ## What the patrol period leaves of the controllers -/

theorem sweeping_of_reg {d d' : Die} (same : ∀ o, d'.reg o = d.reg o) (mc : Bool) : sweeping d' mc = sweeping d mc := by
  refine congrArg (fun f => (List.range 1536).any f) (funext fun c => ?_)
  rw [ctxState, ctxState, Die.get, Die.get, same]

theorem sweeping_patrolAt (d : Die) (n : Nat × Nat) (mc : Bool) : sweeping (d.patrolAt n) mc = sweeping d mc :=
  sweeping_of_reg (fun _ => rfl) mc

theorem sweeping_taken (d : Die) (n : Nat × Nat) (rest : List Frame) (mc : Bool) :
    sweeping (d.taken n rest) mc = sweeping d mc := sweeping_of_reg (fun _ => rfl) mc

theorem mcServes_patrolAt (d : Die) (n : Nat × Nat) (mc : Bool) (ch : Nat) :
    mcServes (d.patrolAt n) mc ch = mcServes d mc ch := rfl

theorem slotFree_patrolAt (d : Die) (n : Nat × Nat) (needle mc : Bool) (ch : Nat) :
    slotFree (d.patrolAt n) needle mc ch = slotFree d needle mc ch := rfl

theorem lpServes_patrolAt (needle : Bool) (a len : Nat) (d : Die) (n : Nat × Nat) :
    lpServes needle a len (d.patrolAt n) = lpServes needle a len d := by
  simp only [lpServes, mcServes_patrolAt, slotFree_patrolAt]

/-! ## Arriving packets (R254, R255) -/

/-- A packet that checks 3 to 6 of R254 let through to its context. -/
structure RapOwned (h : BitVec 512) (payload : Bytes) (d : Die) : Prop where
  fields : rapBad h payload = false
  world : worldOk (rapOf h).world (ctxWorld d (ctxBase (rapOf h).mc (rapOf h).ctx)) = true
  enabled : ctxEnable d (ctxBase (rapOf h).mc (rapOf h).ctx) = true
  job : (rapOf h).job = ctxJob d (ctxBase (rapOf h).mc (rapOf h).ctx)
  op : (rapOf h).op = ctxOp d (ctxBase (rapOf h).mc (rapOf h).ctx)
  first : ctxRange d (ctxBase (rapOf h).mc (rapOf h).ctx) ≤ bitsOf (rapOf h).target 40 0
  aligned : (bitsOf (rapOf h).target 40 0 - ctxRange d (ctxBase (rapOf h).mc (rapOf h).ctx)) %
    accPerUnit (rapOf h).op = 0
  last : bitsOf (rapOf h).target 40 0 + accPerUnit (rapOf h).op * ((rapOf h).len + 1) ≤
    ctxRange d (ctxBase (rapOf h).mc (rapOf h).ctx) +
      accPerUnit (rapOf h).op * ctxUnits d (ctxBase (rapOf h).mc (rapOf h).ctx)

section
variable {h : BitVec 512} {payload : Bytes} {d : Die} (own : RapOwned h payload d)
include own

theorem rapCheck_owned : rapCheck h payload d =
    let r := rapOf h
    let b := ctxBase r.mc r.ctx
    if r.gen ≠ ctxGen d b then rapNak r .genMismatch (ctxWake b (ctxPoisoned b 4 r.step r.attempt d))
    else if pairLt r.step r.attempt (ctxStep d b) (ctxAttempt d b) then rapNak r .attemptStale (d.count 0x90008 1)
    else if ctxState d b = 0 ∧ ctxClean d b then
      ctxWake b (rapAccept b r payload (setCtxState b 2 (ctxArm b r d)))
    else if ctxState d b = 0 ∨ (r.step = ctxStep d b ∧ ctxAttempt d b < r.attempt) then
      ctxWake b (rapWait r.mc h payload (setCtxState b 1 (ctxArm b r d)))
    else if ctxStep d b < r.step then
      ctxWake b (rapAccept b r payload (ctxPoison3 b (setCtxState b 2 (ctxRecord b r.step r.attempt d))))
    else ctxWake b (rapAccept b r payload d) := by
  rw [rapCheck, if_neg (by simp [own.fields]), if_neg (by simp [own.world]),
    if_neg (by simp [own.enabled, own.job, own.op])]
  exact if_neg fun h => h.elim (Nat.not_lt.mpr own.first) fun h =>
    h.elim (absurd own.aligned) (Nat.not_lt.mpr own.last)

theorem rapCheck_otherGen (gen : (rapOf h).gen ≠ ctxGen d (ctxBase (rapOf h).mc (rapOf h).ctx)) :
    rapCheck h payload d = rapNak (rapOf h) .genMismatch (ctxWake (ctxBase (rapOf h).mc (rapOf h).ctx)
      (ctxPoisoned (ctxBase (rapOf h).mc (rapOf h).ctx) 4 (rapOf h).step (rapOf h).attempt d)) := by
  rw [rapCheck_owned own]
  exact if_pos gen

variable (gen : (rapOf h).gen = ctxGen d (ctxBase (rapOf h).mc (rapOf h).ctx))
include gen

theorem rapCheck_stale (behind : pairLt (rapOf h).step (rapOf h).attempt
      (ctxStep d (ctxBase (rapOf h).mc (rapOf h).ctx)) (ctxAttempt d (ctxBase (rapOf h).mc (rapOf h).ctx)) = true) :
    rapCheck h payload d = rapNak (rapOf h) .attemptStale (d.count 0x90008 1) := by
  rw [rapCheck_owned own]
  dsimp only
  rw [if_neg (not_not.mpr gen), if_pos behind]

variable (current : pairLt (rapOf h).step (rapOf h).attempt (ctxStep d (ctxBase (rapOf h).mc (rapOf h).ctx))
  (ctxAttempt d (ctxBase (rapOf h).mc (rapOf h).ctx)) = false)
include current

theorem rapCheck_arms (idle : ctxState d (ctxBase (rapOf h).mc (rapOf h).ctx) = 0)
    (clean : ctxClean d (ctxBase (rapOf h).mc (rapOf h).ctx) = true) :
    let b := ctxBase (rapOf h).mc (rapOf h).ctx
    rapCheck h payload d = ctxWake b (rapAccept b (rapOf h) payload (setCtxState b 2 (ctxArm b (rapOf h) d))) := by
  dsimp only
  rw [rapCheck_owned own]
  dsimp only
  rw [if_neg (not_not.mpr gen), if_neg (by simp [current]), if_pos ⟨idle, clean⟩]

theorem rapCheck_waits
    (sweep : (ctxState d (ctxBase (rapOf h).mc (rapOf h).ctx) = 0 ∧
        ctxClean d (ctxBase (rapOf h).mc (rapOf h).ctx) = false) ∨
      (ctxState d (ctxBase (rapOf h).mc (rapOf h).ctx) ≠ 0 ∧
        (rapOf h).step = ctxStep d (ctxBase (rapOf h).mc (rapOf h).ctx) ∧
        ctxAttempt d (ctxBase (rapOf h).mc (rapOf h).ctx) < (rapOf h).attempt)) :
    let b := ctxBase (rapOf h).mc (rapOf h).ctx
    rapCheck h payload d = ctxWake b (rapWait (rapOf h).mc h payload (setCtxState b 1 (ctxArm b (rapOf h) d))) := by
  dsimp only
  rw [rapCheck_owned own]
  dsimp only
  rw [if_neg (not_not.mpr gen), if_neg (by simp [current])]
  obtain ⟨idle, dirty⟩ | ⟨busy, newer⟩ := sweep
  · rw [if_neg fun h => Bool.false_ne_true (dirty.symm.trans h.2), if_pos (.inl idle)]
  · rw [if_neg fun h => busy h.1, if_pos (.inr newer)]

variable (busy : ctxState d (ctxBase (rapOf h).mc (rapOf h).ctx) ≠ 0)
include busy

theorem rapCheck_poisons (ahead : ctxStep d (ctxBase (rapOf h).mc (rapOf h).ctx) < (rapOf h).step) :
    let b := ctxBase (rapOf h).mc (rapOf h).ctx
    rapCheck h payload d = ctxWake b (rapAccept b (rapOf h) payload
      (ctxPoison3 b (setCtxState b 2 (ctxRecord b (rapOf h).step (rapOf h).attempt d)))) := by
  dsimp only
  rw [rapCheck_owned own]
  dsimp only
  rw [if_neg (not_not.mpr gen), if_neg (by simp [current]), if_neg fun h => busy h.1,
    if_neg fun h => h.elim busy fun h => Nat.ne_of_gt ahead h.1, if_pos ahead]

theorem rapCheck_adds (step : (rapOf h).step = ctxStep d (ctxBase (rapOf h).mc (rapOf h).ctx))
    (attempt : (rapOf h).attempt = ctxAttempt d (ctxBase (rapOf h).mc (rapOf h).ctx)) :
    let b := ctxBase (rapOf h).mc (rapOf h).ctx
    rapCheck h payload d = ctxWake b (rapAccept b (rapOf h) payload d) := by
  dsimp only
  rw [rapCheck_owned own]
  dsimp only
  rw [if_neg (not_not.mpr gen), if_neg (by simp [current]), if_neg fun h => busy h.1,
    if_neg fun h => h.elim busy fun h => Nat.ne_of_gt h.2 attempt, if_neg (Nat.not_lt.mpr (Nat.le_of_eq step))]

end

theorem pairLt_self (step attempt : Nat) : pairLt step attempt step attempt = false := by simp [pairLt]

theorem pairLt_ahead {step step' : Nat} (attempt attempt' : Nat) (ahead : step' < step) :
    pairLt step attempt step' attempt' = false := by
  simp [pairLt]
  omega

/-- A packet at the front of the inbox, whose accumulators are served and whose controller is not sweeping. -/
theorem rapArrival_front {p : PDie} {h : BitVec 512} {payload : Bytes} {rest : List Frame} {s : State} {g : Die → Die}
    (act : (s.die p).run = .active) (front : (s.die p).inbox = .rap h payload :: rest) (whole : rapHdrOk h = true)
    (still : sweeping (s.die p) (rapOf h).mc = false)
    (served : lpServes false (bitsOf (rapOf h).target 40 0) (accPerUnit (rapOf h).op * ((rapOf h).len + 1)) (s.die p) =
      true)
    (e : ∀ n, rapCheck h payload ((s.die p).taken n rest) = g ((s.die p).patrolAt n)) :
    exec (.rapArrival p h payload) s = .next (s.ran p g) := by
  refine next_onDie act fun n => ?_
  have goes : rapWaits h payload ((s.die p).patrolAt n) = false := by
    simp [rapWaits, lpServes_patrolAt, served]
  have front' : ((s.die p).patrolAt n).inbox = .rap h payload :: rest := front
  rw [goes, fromInbox_front front', ← e n]
  change dieRapArrival h payload ((s.die p).taken n rest) = _
  have on : rodUnitOn ((s.die p).taken n rest) = true := decide_eq_true act
  rw [dieRapArrival, on, whole, rapOffer, sweeping_taken, still]
  rfl

/-- Settles O28: each row of R255 by its `rapCheck` lemma. -/
theorem packetArrivalComplete : Obligations.PacketArrivalComplete := by
  unfold Obligations.PacketArrivalComplete
  intro p h payload rest s d0 r b a k took act front whole still fields served world enabled job op first aligned last
  have own (n : Nat × Nat) : RapOwned h payload ((s.die p).taken n rest) :=
    ⟨fields, world, enabled, job, op, first, aligned, last⟩
  have arrives {g : Die → Die} (e : ∀ n, rapCheck h payload ((s.die p).taken n rest) = g ((s.die p).patrolAt n)) :
      exec (.rapArrival p h payload) s = .next (s.ran p g) := rapArrival_front act front whole still served e
  refine ⟨fun gen => ?_, fun gen => ⟨fun behind => ?_, fun step attempt busy => ?_, fun current idle clean => ?_,
    fun current sweep => ?_, fun busy ahead => ?_⟩⟩
  · exact arrives fun n => rapCheck_otherGen (own n) gen
  · exact arrives fun n => rapCheck_stale (own n) gen behind
  · have current : pairLt r.step r.attempt (ctxStep d0 b) (ctxAttempt d0 b) = false := by
      rw [step, attempt, pairLt_self]
    exact arrives fun n => rapCheck_adds (own n) gen current busy step attempt
  · exact arrives fun n => rapCheck_arms (own n) gen current idle clean
  · exact arrives fun n => rapCheck_waits (own n) gen current sweep
  · exact arrives fun n => rapCheck_poisons (own n) gen (pairLt_ahead _ _ ahead) busy ahead

/-! ## Pushes (R257, R258) -/

theorem dieAccumPush_enters {t : ThreadId} {w : OpWord} {d : Die} (pass : Passes d t 0x60 w [(64, 0)])
    (room : HasRoom d t 0x60 w) (ok : pushChk t w d (d.thread t) = none) : dieAccumPush t w d =
      let o : LongOp := { newOp d t 0x60 w .red with
        phase := .running, sval := (d.thread t).sreg (opField w.x 9 5), sval2 := (d.thread t).sreg (opField w.x 14 10)
        stamp := redStep d (d.threadJob t).toNat + redGen d (d.threadJob t).toNat <<< 48 }
      pushGo o.id (ceilDiv (opField w.x 64 49) 64 + 1) (accept d t o) := by
  rw [dieAccumPush, issueLong_enters pass room ok]

/-! ## Sweeps (R253, R255) -/

theorem postWrite_eq (r : Req) (a : Nat) (bs : Bytes) (d : Die) :
    ∃ q, postWrite r a bs d = { d with mcWrites := q } := by
  unfold postWrite
  dsimp only
  split
  · exact ⟨_, rfl⟩
  · exact ⟨_, rfl⟩

theorem postWrites_eq (r : Req) (a : Nat) (bs : Bytes) (d : Die) :
    ∃ q, postWrites r a bs d = { d with mcWrites := q } := by
  refine List.foldlRecOn (motive := fun d' : Die => ∃ q, d' = { d with mcWrites := q }) _ _ ⟨d.mcWrites, rfl⟩
    fun d' kept u _ => ?_
  obtain ⟨q, rfl⟩ := kept
  obtain ⟨q', posted⟩ := postWrite_eq r u.1 (sliceB bs (u.1 - a) u.2) { d with mcWrites := q }
  exact ⟨q', posted⟩

/-- A write of an extent changes the bytes, the marks and the write queues of the memory, and no register or op. -/
theorem lpStore_eq (r : Req) (a : Nat) (bs : Bytes) (d : Die) : ∃ k q, lpStore r a bs d =
    { lpWrite a (padHalf bs d).1 d with free := k, mcWrites := q } := by
  obtain ⟨q, posted⟩ := postWrites_eq r a (padHalf bs d).1 (lpWrite a (padHalf bs d).1 (padHalf bs d).2)
  exact ⟨_, q, posted⟩

theorem ops_lpStore (r : Req) (a : Nat) (bs : Bytes) (d : Die) : (lpStore r a bs d).ops = d.ops := by
  obtain ⟨k, q, stored⟩ := lpStore_eq r a bs d
  rw [stored]
  rfl

theorem reg_lpStore (r : Req) (a : Nat) (bs : Bytes) (d : Die) (o : Nat) : (lpStore r a bs d).reg o = d.reg o := by
  obtain ⟨k, q, stored⟩ := lpStore_eq r a bs d
  rw [stored]
  rfl

theorem sweepRange_passes {b : Nat} {d : Die}
    (ok : (unitsOk d (ctxReq d b) (accPerUnit (ctxOp d b) * ctxUnits d b / 64) (ctxRange d b)).2 = none) :
    sweepRange b d = (none, lpStore (ctxReq d b) (ctxRange d b)
      (List.replicate (64 * (accPerUnit (ctxOp d b) * ctxUnits d b / 64)) 0) d) := by
  rw [sweepRange]
  dsimp only
  rw [ok, unitsOk_all_of_none _ _ _ _ ok]
  rfl

/-- A sweep that no RELEASE waits for ends in ARMED. -/
theorem dieSweepComplete_arms {mc : Bool} {c : Nat} {d : Die} (act : d.run = .active) (exists_ : c < 1536)
    (state : ctxState d (ctxBase mc c) = 1)
    (served : lpServes false (ctxRange d (ctxBase mc c))
      (accPerUnit (ctxOp d (ctxBase mc c)) * ctxUnits d (ctxBase mc c)) d = true)
    (ok : (unitsOk d (ctxReq d (ctxBase mc c))
      (accPerUnit (ctxOp d (ctxBase mc c)) * ctxUnits d (ctxBase mc c) / 64) (ctxRange d (ctxBase mc c))).2 = none)
    (unreleased : (ledgerOps d 2).filter (fun o => decide (scCtx o = ctxBase mc c)) = []) :
    dieSweepComplete mc c d =
      let b := ctxBase mc c
      let n := accPerUnit (ctxOp d b) * ctxUnits d b / 64
      let d' := ctxWake b (setCtxState b 2
        ((lpStore (ctxReq d b) (ctxRange d b) (List.replicate (64 * n) 0) d).put ⟨b + 12, 6, 6⟩ 1))
      if sweeping d' mc then d' else rapReplay mc d' := by
  have runs : ¬(1536 ≤ c ∨ ctxState d (ctxBase mc c) ≠ 1 ∨ !rodUnitOn d ∨
      !lpServes false (ctxRange d (ctxBase mc c))
        (accPerUnit (ctxOp d (ctxBase mc c)) * ctxUnits d (ctxBase mc c)) d) := by
    simp [served, state, rodUnitOn, act, exists_]
  rw [dieSweepComplete, if_neg runs, sweepRange_passes ok]
  dsimp only
  have nobody (d' : Die) (f : Fld) (v : Nat) (same : d'.ops = d.ops) :
      (ledgerOps (d'.put f v) 2).filter (fun o => decide (scCtx o = ctxBase mc c)) = [] := by
    rw [ledgerOps, show (d'.put f v).ops = d.ops from same]
    exact unreleased
  rw [nobody _ _ _ (ops_lpStore ..)]
  rfl

/-! ## Configuration (R251) -/

section
variable {mc : Bool} {c word v : Nat} {d : Die}

theorem dieContextConfig_ignored (exists_ : c < 1536) (words : word < 3) :
    dieContextConfig false mc c word v d = d.invalidWrite (if mc then 0x80000 else 0x70000) := by
  have exists' : ¬(1536 ≤ c ∨ 3 ≤ word) := fun h => h.elim (Nat.not_le.mpr exists_) (Nat.not_le.mpr words)
  unfold dieContextConfig
  extract_lets b bad
  exact (if_neg exists').trans (if_pos rfl)

theorem putBits_self_zero {x hi lo : Nat} (clear : bitsOf x hi lo = 0) : putBits x hi lo 0 = x := by
  simp [putBits, clear]

/-- What a write of a word of a context leaves in it, where no reserved bit is set. -/
theorem contextWord_whole (limit : v < 2 ^ 32) (word0 : word = 0 → bitsOf v 15 11 = 0)
    (word1 : word = 1 → bitsOf v 31 29 = 0) :
    (if word = 0 then putBits v 15 11 0 else if word = 1 then v % 2 ^ 29 else v) = v := by
  split
  · exact putBits_self_zero (word0 ‹_›)
  · split
    · have high := word1 ‹_›
      simp only [bitsOf, Nat.shiftRight_eq_div_pow] at high
      omega
    · rfl

/-- The words of a context after a write that configures it: its state words start over. -/
def ctxRestart (mc : Bool) (b word v : Nat) (d : Die) : Die :=
  let d' := { (d.setReg (b + 4 * word) v).resetRegs (b + 12) (b + 32) with
    ctxTold := tabSet (fun _ => false) d.ctxTold (ctxKey b) false }
  if sweeping d' mc then d' else rapReplay mc d'

theorem dieContextConfig_configures (exists_ : c < 1536) (words : word < 3) (limit : v < 2 ^ 32)
    (word0 : word = 0 → bitsOf v 15 11 = 0) (word1 : word = 1 → bitsOf v 31 29 = 0)
    (off : ctxEnable d (ctxBase mc c) = false)
    (world : bitOf (if word = 0 then v else d.reg (ctxBase mc c)) 1 = true → d.world = true)
    (size : bitOf (if word = 0 then v else d.reg (ctxBase mc c)) 0 = true →
      bitsOf (if word = 2 then v else d.reg (ctxBase mc c + 8)) 19 0 ≠ 0)
    (home : ctxServed mc (if word = 1 then v else d.reg (ctxBase mc c + 4))
      (bitsOf (if word = 2 then v else d.reg (ctxBase mc c + 8)) 19 0)
      (bitsOf (if word = 0 then v else d.reg (ctxBase mc c)) 7 6) = true) :
    dieContextConfig true mc c word v d = ctxRestart mc (ctxBase mc c) word v d := by
  have exists' : ¬(1536 ≤ c ∨ 3 ≤ word) := fun h => h.elim (Nat.not_le.mpr exists_) (Nat.not_le.mpr words)
  unfold dieContextConfig
  refine (if_neg exists').trans ((if_neg Bool.false_ne_true).trans ?_)
  dsimp only
  rw [contextWord_whole limit word0 word1]
  refine (if_neg (by simp [off])).trans ((if_neg ?_).trans ?_)
  · simp only [home, Bool.not_true, Bool.or_false, Bool.or_eq_true, Bool.and_eq_true, Bool.not_eq_true',
      decide_eq_true_eq, not_or, not_and]
    exact ⟨fun one => by simp [world one], size⟩
  · obtain rfl | rfl | rfl : word = 0 ∨ word = 1 ∨ word = 2 := by omega
    · simp only [word0, ne_eq, not_true_eq_false, decide_false, Bool.false_eq_true, if_false]
      rfl
    · simp only [word1, ne_eq, not_true_eq_false, decide_false, Bool.false_eq_true, if_false]
      rfl
    · rfl

theorem dieContextConfig_disables (exists_ : c < 1536) (reserved : bitsOf v 15 11 = 0)
    (on : ctxEnable d (ctxBase mc c) = true) (minus : v + 1 = d.reg (ctxBase mc c)) :
    dieContextConfig true mc c 0 v d = ctxWake (ctxBase mc c) (d.setReg (ctxBase mc c) v) := by
  have exists' : ¬(1536 ≤ c ∨ 3 ≤ 0) := fun h => h.elim (Nat.not_le.mpr exists_) nofun
  unfold dieContextConfig
  refine (if_neg exists').trans ((if_neg Bool.false_ne_true).trans ?_)
  dsimp only
  rw [if_pos rfl, putBits_self_zero reserved]
  refine (if_pos on).trans ((if_pos ⟨rfl, minus⟩).trans ?_)
  rw [reserved]
  rfl

end

/-- Settles O30: the push by `dieAccumPush_enters`, the sweep by `dieSweepComplete_arms`, and the words of a context
by `dieContextConfig_whole`. -/
theorem pushSweepConfigComplete : Obligations.PushSweepConfigComplete := by
  unfold Obligations.PushSweepConfigComplete
  intro p s
  refine ⟨fun t w pass room ok => ?_, ?_, ?_⟩
  · exact next_onDie (active_of_canIssue pass.1) fun k => dieAccumPush_enters (d := (s.die p).patrolAt k) pass room ok
  · intro mc c b a n act exists_ state served ok unreleased
    refine next_onDie act fun k => dieSweepComplete_arms (d := (s.die p).patrolAt k) act exists_ state
      ((lpServes_patrolAt ..).trans served) ?_ ?_
    · rw [unitsOk_patrolAt]
      exact ok
    · rw [List.find?_eq_none] at unreleased
      exact List.filter_eq_nil_iff.mpr unreleased
  · intro mc c word v d0 b cfg units act exists_ words
    have words' : word.toNat < 3 := by
      have := word.isLt
      have : word.toNat ≠ 3 := fun h => words (BitVec.eq_of_toNat_eq h)
      omega
    have eq_nat (k : Nat) (small : k < 4) : (word.toNat = k) = (word = BitVec.ofNat 2 k) := by
      rw [← BitVec.toNat_inj, BitVec.toNat_ofNat, Nat.mod_eq_of_lt small]
    have eq0 := eq_nat 0 (by decide)
    have eq1 := eq_nat 1 (by decide)
    have eq2 := eq_nat 2 (by decide)
    refine ⟨fun off word0 word1 world size home => ?_, fun on first minus reserved => ?_, fun w other => ?_⟩
    · exact next_onDie act fun k => dieContextConfig_configures (d := (s.die p).patrolAt k) exists_ words' v.isLt
        (fun zero => word0 (BitVec.eq_of_toNat_eq zero)) (fun one => word1 (BitVec.eq_of_toNat_eq one)) off
        (by simp only [eq0]; exact world) (by simp only [eq0, eq2]; exact size)
        (by simp only [eq0, eq1, eq2]; exact home)
    · subst first
      exact next_onDie act fun k =>
        dieContextConfig_disables (d := (s.die p).patrolAt k) exists_ reserved on minus
    · have ignored : decide (w = .mgmt) = false := decide_eq_false other
      refine next_onDie act fun k => ?_
      rw [ignored]
      exact dieContextConfig_ignored exists_ words'

end Sys2Proof.Machine
end

section
/-! PROOFS. Runs of bytes cut into equal pieces, and an accepted packet (O29). -/

namespace Sys2Proof.Machine

/-! ## Runs of bytes -/

section
variable {f : Nat → Bytes} {k n : Nat} (pieces : ∀ i, i < n → (f i).length = k)
include pieces

theorem length_flatMap_range : ((List.range n).flatMap f).length = k * n := by
  induction n with
  | zero => simp
  | succ n ih =>
    rw [List.range_succ, List.flatMap_append, List.length_append, ih fun i h => pieces i (by omega)]
    simp [pieces n (by omega), Nat.mul_succ]

/-- A run of equal pieces is cut back into them. -/
theorem sliceB_flatMap_range {u : Nat} (h : u < n) : sliceB ((List.range n).flatMap f) (k * u) k = f u := by
  induction n with
  | zero => omega
  | succ n ih =>
    have before : ((List.range n).flatMap f).length = k * n := length_flatMap_range fun i h => pieces i (by omega)
    rw [List.range_succ, List.flatMap_append]
    by_cases last : u < n
    · rw [sliceB_append_left _ _ _ _ (by rw [before, ← Nat.mul_succ]; exact Nat.mul_le_mul_left k last)]
      exact ih (fun i h => pieces i (by omega)) last
    · obtain rfl : u = n := by omega
      have cut := sliceB_append ((List.range u).flatMap f) (f u)
      rw [before, pieces u h] at cut
      simpa using cut

end

theorem natAt_flatMap_leBytes (w : Nat) {n : Nat} (f : Nat → Nat) {i : Nat} (h : i < n) :
    natAt ((List.range n).flatMap fun i => leBytes w (f i)) (w * i) w = f i % 256 ^ w := by
  rw [natAt, sliceB_flatMap_range (fun _ _ => leBytes_length ..) h, leNat_leBytes]

theorem leNat_lt (bs : Bytes) : leNat bs < 256 ^ bs.length := by
  induction bs with
  | nil => simp [leNat]
  | cons b bs ih =>
    have := b.isLt
    rw [leNat, List.length_cons, Nat.pow_succ]
    omega

theorem natAt_lt (bs : Bytes) (o n : Nat) : natAt bs o n < 256 ^ n := by
  have := leNat_lt (sliceB bs o n)
  rwa [sliceB_length] at this

theorem wrapInt_lt (n : Nat) (i : Int) : wrapInt n i < 2 ^ n := by
  have size : (0 : Int) < (2 ^ n : Nat) := by positivity
  have := Int.emod_lt_of_pos i size
  have := Int.emod_nonneg i size.ne'
  unfold wrapInt
  omega

/-- Bytes written to a table are read back where they were put. -/
theorem tabSlice_tabPut_inside (t : List Host.Cell) (a : Nat) {vs : Bytes} {o k : Nat} (inside : o + k ≤ vs.length) :
    tabSlice zeroByte (tabPut zeroByte t a vs) (a + o) k = sliceB vs o k := by
  have whole : sliceB vs o k = (vs.drop o).take k := by
    have : ((vs.drop o).take k).length = k := by simp; omega
    simp [sliceB, this]
  rw [whole]
  refine List.ext_getElem (by simp; omega) fun i h _ => ?_
  have small : i < k := by simpa using h
  rw [← List.getD_eq_getElem _ 0, tabSlice_getD _ _ _ _ _ _ small, tabGet_tabPut, if_pos (by omega),
    show a + o + i - a = o + i by omega]
  simp [List.getD_eq_getElem?_getD, List.getElem?_eq_getElem (show o + i < vs.length by omega)]

/-! ## The operations of R250 on one payload unit -/

section
variable (old pay : Bytes)

theorem addUnit_tbi16 {i : Nat} (h : i < 32) : natAt (addUnit 0 old pay) (4 * i) 4 =
    wrapInt 32 (signedOf 32 (natAt old (4 * i) 4) + signedOf 16 (natAt pay (2 * i) 2)) :=
  (natAt_flatMap_leBytes 4 _ h).trans (Nat.mod_eq_of_lt (wrapInt_lt 32 _))

theorem addUnit_tbi32 {i : Nat} (h : i < 16) : natAt (addUnit 1 old pay) (8 * i) 8 =
    wrapInt 64 (signedOf 64 (natAt old (8 * i) 8) + signedOf 32 (natAt pay (4 * i) 4)) :=
  (natAt_flatMap_leBytes 8 _ h).trans (Nat.mod_eq_of_lt (wrapInt_lt 64 _))

theorem addUnit_u64 {i : Nat} (h : i < 8) : natAt (addUnit 2 old pay) (8 * i) 8 =
    (natAt old (8 * i) 8 + natAt pay (8 * i) 8) % 2 ^ 64 :=
  (natAt_flatMap_leBytes 8 _ h).trans (Nat.mod_mod ..)

theorem addUnit_umax32 {i : Nat} (h : i < 16) : natAt (addUnit 3 old pay) (4 * i) 4 =
    max (natAt old (4 * i) 4) (natAt pay (4 * i) 4) :=
  (natAt_flatMap_leBytes 4 _ h).trans (Nat.mod_eq_of_lt (max_lt (natAt_lt ..) (natAt_lt ..)))

theorem length_addUnit {op : Nat} (h : op < 4) : (addUnit op old pay).length = accPerUnit op := by
  obtain rfl | rfl | rfl | rfl : op = 0 ∨ op = 1 ∨ op = 2 ∨ op = 3 := by omega
  · exact length_flatMap_range fun _ _ => leBytes_length ..
  · exact length_flatMap_range fun _ _ => leBytes_length ..
  · exact length_flatMap_range fun _ _ => leBytes_length ..
  · exact length_flatMap_range fun _ _ => leBytes_length ..

end

/-! ## An accepted packet (R255) -/

/-- The registers of a context after `n` more payload units, and the answer to their packet. -/
def rapCount (b : Nat) (r : Rap) (d : Die) : Die :=
  let ovr := (List.range 64).countP (fun i => bitOf r.ovr i)
  let d := (d.setReg (b + 24) (ctxReceived d b + (r.len + 1))).count (b + 28) ovr
  let d := if 0 < ovr then d.setFlag (b + 12) 3 else d
  let d := d.put ⟨b + 12, 23, 16⟩ (max (ctxMaxe d b) r.lmaxe)
  let d := if r.lmaxe = 0xFF then d.setFlag (b + 12) 5 else d
  rapAnswer r 5 0 d

/-- The end of an arming whose last unit this was. -/
def rapEnd (b full : Nat) (d : Die) : Die := if ctxReceived d b = full then ctxComplete b d else d

/-- The sums that a packet writes. -/
def rapSums (r : Rap) (payload : Bytes) (d : Die) : Bytes :=
  (List.range (r.len + 1)).flatMap fun u => addUnit r.op
    (sliceB (tabSlice zeroByte d.lpddr (bitsOf r.target 40 0) (accPerUnit r.op * (r.len + 1))) (accPerUnit r.op * u)
      (accPerUnit r.op)) (sliceB payload (64 * u) 64)

theorem rapAccept_adds {b : Nat} {r : Rap} {payload : Bytes} {d : Die} (clean : ctxPoison d b = false)
    (eb : r.eb = ctxEb d b) (room : ctxReceived d b + (r.len + 1) ≤ ctxContrib d b * ctxUnits d b)
    (granted : ∀ i, i < accPerUnit r.op * (r.len + 1) / 64 →
      regionChk d (ctxReq d b) (bitsOf r.target 40 0 + 64 * i) 64 = none)
    (unmarked : lpBad d (bitsOf r.target 40 0) (accPerUnit r.op * (r.len + 1)) = []) :
    rapAccept b r payload d = rapEnd b (ctxContrib d b * ctxUnits d b) (rapCount b r
      ((lpStore (ctxReq d b) (bitsOf r.target 40 0) (rapSums r payload d) d).put ⟨b + 12, 6, 6⟩ 0)) := by
  have passes : (tabulate (accPerUnit r.op * (r.len + 1) / 64) fun i => bitsOf r.target 40 0 + 64 * i).findSome?
      (fun u => (regionChk d (ctxReq d b) u 64).map fun st => (u, st)) = none := by
    rw [List.findSome?_eq_none_iff]
    intro u listed
    obtain ⟨i, small, rfl⟩ := List.mem_map.mp listed
    rw [granted i (List.mem_range.mp small)]
    rfl
  rw [rapAccept]
  dsimp only
  rw [if_neg (by simp [clean]), if_neg (not_not.mpr eb), if_neg (Nat.not_lt.mpr room), passes]
  dsimp only
  rw [rapAdd, lpRead_unmarked unmarked]
  exact if_neg fun h => h rfl

/-! ### What the counting and the end of an arming leave -/

theorem reg_rapCount {b o : Nat} (r : Rap) (d : Die) (low : o ≠ b + 12) (count : o ≠ b + 28) :
    (rapCount b r d).reg o = (d.setReg (b + 24) (ctxReceived d b + (r.len + 1))).reg o := by
  rw [rapCount]
  rw [rapAnswer, reg_emitBead]
  split <;> split <;> simp only [Die.reg_setFlag_ne _ _ _ _ low, Die.reg_put_ne _ ⟨b + 12, 23, 16⟩ _ _ low,
    Die.reg_count_ne _ _ count]

theorem lpddr_rapCount (b : Nat) (r : Rap) (d : Die) : (rapCount b r d).lpddr = d.lpddr := by
  rw [rapCount]
  split <;> split <;> rfl

theorem maxe_rapCount {b : Nat} (r : Rap) (d : Die) (small : r.lmaxe < 256) :
    ctxMaxe (rapCount b r d) b = max (ctxMaxe d b) r.lmaxe := by
  have flagged (d : Die) (i : Nat) (low : i < 16) : ctxMaxe (d.setFlag (b + 12) i) b = ctxMaxe d b :=
    Die.get_put_apart d 1 (f := ⟨b + 12, i, i⟩) (g := ⟨b + 12, 23, 16⟩) (Nat.le_refl i) (show 23 < 32 by decide)
      (.inr (.inr low))
  have stored (d : Die) (v : Nat) : ctxMaxe (d.put ⟨b + 12, 23, 16⟩ v) b = v % 256 :=
    Die.get_put_same d ⟨b + 12, 23, 16⟩ v (show 23 < 32 by decide)
  have old : ctxMaxe d b < 256 := Die.get_lt ..
  have counted (v n : Nat) : ctxMaxe ((d.setReg (b + 24) v).count (b + 28) n) b = ctxMaxe d b := by
    rw [ctxMaxe, Die.get, Die.reg_count_ne _ _ (by dsimp only; omega), Die.reg_setReg, if_neg (by dsimp only; omega)]
    rfl
  have answered (d : Die) : ctxMaxe (rapAnswer r 5 0 d) b = ctxMaxe d b := rfl
  rw [rapCount, answered]
  split <;> split <;>
    simp only [flagged _ _ (show 5 < 16 by decide), stored, flagged _ _ (show 3 < 16 by decide), counted] <;>
    exact Nat.mod_eq_of_lt (max_lt old small)

theorem reg_ctxComplete (b o : Nat) (d : Die) : (ctxComplete b d).reg o = (setCtxState b 3 d).reg o := by
  rw [ctxComplete]
  split <;> split <;> rfl

theorem lpddr_ctxComplete (b : Nat) (d : Die) : (ctxComplete b d).lpddr = d.lpddr := by
  rw [ctxComplete]
  split <;> split <;> rfl

theorem lpddr_rapEnd (b full : Nat) (d : Die) : (rapEnd b full d).lpddr = d.lpddr := by
  rw [rapEnd]
  split
  · exact lpddr_ctxComplete b d
  · rfl

theorem reg_rapEnd {b full o : Nat} (d : Die) (low : o ≠ b + 12) : (rapEnd b full d).reg o = d.reg o := by
  rw [rapEnd]
  split
  · exact (reg_ctxComplete b o d).trans (Die.reg_put_ne _ _ _ _ low)
  · rfl

theorem maxe_rapEnd (b full : Nat) (d : Die) : ctxMaxe (rapEnd b full d) b = ctxMaxe d b := by
  rw [rapEnd]
  split
  · rw [ctxMaxe, Die.get, reg_ctxComplete]
    exact Die.get_put_apart d 3 (f := ⟨b + 12, 2, 0⟩) (g := ⟨b + 12, 23, 16⟩) (Nat.zero_le 2)
      (show 23 < 32 by decide) (.inr (.inr (show 2 < 16 by decide)))
  · rfl

/-! ### The memory that it leaves -/

theorem lpddr_lpStore_units (q : Req) (a : Nat) {bs : Bytes} (d : Die) {k : Nat} (units : bs.length = 64 * k) :
    (lpStore q a bs d).lpddr = tabPut zeroByte d.lpddr a bs := by
  obtain ⟨_, _, stored⟩ := lpStore_eq q a bs d
  rw [stored, padHalf_units bs d k units]
  rfl

theorem accPerUnit_units (op : Nat) : ∃ k, accPerUnit op = 64 * k := by
  unfold accPerUnit
  split
  · exact ⟨2, rfl⟩
  · exact ⟨1, rfl⟩

section
variable {r : Rap} {payload : Bytes} {d : Die} (op : r.op < 4)
include op

theorem length_rapSums : (rapSums r payload d).length = accPerUnit r.op * (r.len + 1) :=
  length_flatMap_range fun _ _ => length_addUnit _ _ op

theorem sliceB_rapSums {u : Nat} (h : u < r.len + 1) :
    sliceB (rapSums r payload d) (accPerUnit r.op * u) (accPerUnit r.op) =
      addUnit r.op (tabSlice zeroByte d.lpddr (bitsOf r.target 40 0 + accPerUnit r.op * u) (accPerUnit r.op))
        (sliceB payload (64 * u) 64) := by
  have inside : accPerUnit r.op * u + accPerUnit r.op ≤ accPerUnit r.op * (r.len + 1) := by
    rw [← Nat.mul_succ]
    exact Nat.mul_le_mul_left _ h
  rw [rapSums, sliceB_flatMap_range (fun _ _ => length_addUnit _ _ op) h, sliceB_tabSlice _ _ _ _ _ _ inside]

theorem lpddr_rapAccept {b : Nat} (clean : ctxPoison d b = false)
    (eb : r.eb = ctxEb d b) (room : ctxReceived d b + (r.len + 1) ≤ ctxContrib d b * ctxUnits d b)
    (granted : ∀ i, i < accPerUnit r.op * (r.len + 1) / 64 →
      regionChk d (ctxReq d b) (bitsOf r.target 40 0 + 64 * i) 64 = none)
    (unmarked : lpBad d (bitsOf r.target 40 0) (accPerUnit r.op * (r.len + 1)) = []) :
    (rapAccept b r payload d).lpddr = tabPut zeroByte d.lpddr (bitsOf r.target 40 0) (rapSums r payload d) := by
  obtain ⟨k, units⟩ := accPerUnit_units r.op
  have length : (rapSums r payload d).length = 64 * (k * (r.len + 1)) := by
    rw [length_rapSums op, units, Nat.mul_assoc]
  rw [rapAccept_adds clean eb room granted unmarked, lpddr_rapEnd, lpddr_rapCount]
  exact lpddr_lpStore_units _ _ _ length

end

/-- Settles O29: the sums that `rapAccept` writes and the registers it counts in, and the operations of R250. -/
theorem acceptedPacketAdds : Obligations.AcceptedPacketAdds := by
  unfold Obligations.AcceptedPacketAdds
  refine ⟨?_, fun old pay i => ⟨fun h _ _ => addUnit_tbi16 old pay h, fun h _ _ => addUnit_tbi32 old pay h,
    fun h _ _ => addUnit_u64 old pay h, fun h _ _ => addUnit_umax32 old pay h,
    fun _ _ => ⟨length_addUnit old pay (by decide), length_addUnit old pay (by decide)⟩,
    fun _ _ => ⟨length_addUnit old pay (by decide), length_addUnit old pay (by decide)⟩⟩⟩
  intro b r payload d mc c a n k d' _ _ wf op len _ _ clean eb lmaxe room size granted unmarked
  have memory : d'.lpddr = tabPut zeroByte d.lpddr a (rapSums r payload d) :=
    lpddr_rapAccept op clean eb room granted unmarked
  have accepted : d' = rapEnd b _ (rapCount b r _) := rapAccept_adds clean eb room granted unmarked
  have length : (rapSums r payload d).length = k * n := length_rapSums op
  refine ⟨fun u small => ?_, fun x outside => ?_, ?_, ?_, ?_⟩
  · rw [memory, tabSlice_tabPut_inside _ _ (by rw [length, ← Nat.mul_succ]; exact Nat.mul_le_mul_left _ small)]
    exact sliceB_rapSums op small
  · rw [memory, tabGet_tabPut, length, if_neg (by omega)]
  · rw [memory]
    exact tabPut_wf _ _ wf
  · rw [accepted, ctxReceived, reg_rapEnd _ (by omega), reg_rapCount _ _ (by omega) (by omega), Die.reg_setReg,
      if_pos rfl, ctxReceived, Die.reg_put_ne _ _ _ _ (by dsimp only; omega), reg_lpStore]
    exact Nat.mod_eq_of_lt (Nat.lt_of_le_of_lt room size)
  · rw [accepted, maxe_rapEnd, maxe_rapCount _ _ lmaxe]
    have old : ctxMaxe ((lpStore (ctxReq d b) a (rapSums r payload d) d).put ⟨b + 12, 6, 6⟩ 0) b = ctxMaxe d b := by
      rw [ctxMaxe, Die.get_put_apart _ _ (Nat.le_refl 6) (show 23 < 32 by decide)
        (.inr (.inr (show 6 < 16 by decide))), Die.get, reg_lpStore]
      rfl
    rw [old]

end Sys2Proof.Machine
end

section
/-! PROOFS. Tallies, their combining and the collectors (O31), and the turn of a router's output (O21). -/

namespace Sys2Proof.Machine

/-! ## TALLY_ADD and the collectors (R265, R266, R278) -/

section
variable {d : Die}

theorem dieTallyAdd_enters {t : ThreadId} {w : OpWord} (pass : Passes d t 0x61 w [(41, 0)])
    (room : HasRoom d t 0x61 w) (id : 0x100 ≤ opField w.x 25 10) (count : opField w.x 41 26 ≠ 0)
    (writer : badWriter ((d.thread t).sreg (opField w.x 9 5)) = false) : dieTallyAdd t w d =
      let v := (d.thread t).sreg (opField w.x 9 5)
      let j := (d.threadJob t).toNat
      let d' := accept d t { newOp d t 0x61 w .red with phase := .running, sval := v }
      emitTally d.nextOp (packBead { tallyBead (bitsOf v.toNat 11 0) (bitsOf v.toNat 18 12) j
        (opField w.x 25 10) (opField w.x 41 26) (redAttempt d' j) (redStep d' j) with
          srcPkg := d'.pkg.toNat, srcDie := d'.logical.toNat, world := d'.world }) d' := by
  rw [dieTallyAdd, issueLong_enters pass room]
  · rfl
  · exact if_neg fun h => h.elim (Nat.not_lt.mpr id) fun h => h.elim count fun h => Bool.false_ne_true (writer.symm.trans h)

theorem colFind_of_reg {d' : Die} (same : ∀ o, d'.reg o = d.reg o) (job id : Nat) :
    colFind d' job id = colFind d job id := by
  refine congrArg (fun f => (List.range 256).find? f) (funext fun c => ?_)
  rw [Die.flag, Die.flag, Die.get, Die.get, Die.get, Die.get, same]

variable {h : BitVec 256} {c : Nat} (act : d.run = .active) (whole : hdrOk h = true) (ok : tallyOk h = true)
  (entry : colFind d (beadOf h).job (beadOf h).seq = some c)
include act whole ok

theorem dieCollectorTally_collects : dieCollectorTally h d = collect (beadOf h) d := by
  rw [dieCollectorTally, arriving_whole act whole]
  dsimp only
  rw [if_neg (by simp [ok])]

include entry

theorem dieCollectorTally_adds (step : (beadOf h).handle = d.reg48 (colBase c + 0x14) % 1024)
    (attempt : (beadOf h).version = d.get ⟨colBase c + 0x18, 23, 16⟩) :
    dieCollectorTally h d = d.add48 (colBase c + 4) (beadOf h).epoch := by
  have same : ((beadOf h).handle + 1024 - d.reg48 (colBase c + 0x14) % 1024) % 1024 = 0 := by omega
  rw [dieCollectorTally_collects act whole ok, collect, entry]
  exact if_pos ⟨same, attempt⟩

theorem dieCollectorTally_repeats (step : (beadOf h).handle = d.reg48 (colBase c + 0x14) % 1024)
    (attempt : d.get ⟨colBase c + 0x18, 23, 16⟩ < (beadOf h).version) :
    dieCollectorTally h d = ((d.setReg48 (colBase c + 4) (d.reg48 (colBase c + 12))).put ⟨colBase c + 0x18, 23, 16⟩
      (beadOf h).version).add48 (colBase c + 4) (beadOf h).epoch := by
  have same : ((beadOf h).handle + 1024 - d.reg48 (colBase c + 0x14) % 1024) % 1024 = 0 := by omega
  rw [dieCollectorTally_collects act whole ok, collect, entry]
  exact (if_neg fun h => Nat.ne_of_gt attempt h.2).trans (if_pos ⟨same, attempt⟩)

theorem dieCollectorTally_moves {k : Nat} (least : 1 ≤ k) (most : k ≤ 511)
    (step : (beadOf h).handle = (d.reg48 (colBase c + 0x14) + k) % 1024) :
    dieCollectorTally h d = (((d.setReg48 (colBase c + 12) (d.reg48 (colBase c + 4))).setReg48 (colBase c + 0x14)
      ((d.reg48 (colBase c + 0x14) + k) % 2 ^ 48)).put ⟨colBase c + 0x18, 23, 16⟩
        (beadOf h).version).add48 (colBase c + 4) (beadOf h).epoch := by
  have ahead : ((beadOf h).handle + 1024 - d.reg48 (colBase c + 0x14) % 1024) % 1024 = k := by omega
  rw [dieCollectorTally_collects act whole ok, collect, entry]
  dsimp only
  rw [ahead]
  exact (if_neg fun h => by omega).trans ((if_neg fun h => by omega).trans (if_pos ⟨least, most⟩))

end

theorem dieCollectorEnable_whole (c : Nat) {v : Nat} (d : Die) (reserved : bitsOf v 30 20 = 0)
    (id : 0x100 ≤ bitsOf v 19 4) : dieCollectorEnable true c v d =
      let d' := ((d.put ⟨colBase c, 19, 4⟩ (bitsOf v 19 4)).put ⟨colBase c, 3, 0⟩ (bitsOf v 3 0)).put
        ⟨colBase c, 31, 31⟩ (bitsOf v 31 31)
      if bitOf v 31 then d'.resetRegs (colBase c + 4) (colBase c + 28) else d' := by
  simp only [dieCollectorEnable, reserved, Nat.not_lt.mpr id, Bool.not_true, Bool.false_eq_true, if_false, ne_eq,
    not_true_eq_false, decide_false, Bool.or_self]

/-! ## Tallies at an output (R264) -/

theorem held_takeTurn (p out lane i k : Nat) (s : State) :
    ((takeTurn p out lane i k s).die p).held = (s.die p).held := by
  rw [takeTurn, die_modDie_self]
  rfl

theorem rrc_takeTurn (p out lane i k : Nat) (s : State) : ((takeTurn p out lane i k s).die p).rrc = (s.die p).rrc := by
  rw [takeTurn, die_modDie_self]
  rfl

section
variable {p out lane i k l : Nat} {g : Seg} {egress : Option (BitVec 3)} {h : BitVec 256} {s : State}

theorem forward_tally (frame : g.frame = .bead h []) (tally : isTally g.frame = true) :
    forward p g (.go out l egress) s = combine p out l egress h g.op s := by
  rw [forward, frame]
  exact if_pos (by rw [← frame]; exact tally)

theorem tallyCombine_turn (on : routerOn s p = true) (due : dueTally s p out = none)
    (turn : turnOf s p out = some (lane, i, k, g, .go out l egress)) (frame : g.frame = .bead h [])
    (tally : isTally g.frame = true) :
    tallyCombine p out egress h s = combine p out l egress h g.op (takeTurn p out lane i k s) := by
  rw [tallyCombine, due, turn]
  dsimp only
  rw [if_pos (by rw [tally]; simp [frame]), routerTurn, if_neg (by simp [on]), due, turn]
  exact forward_tally frame tally

end

section
variable {p out lane : Nat} {egress : Option (BitVec 3)} {h : BitVec 256} {op : Option Nat} {s : State}

/-- Two tallies of one key at one output combine. -/
def combines (out : Nat) (h : BitVec 256) (e : HeldTally) : Bool :=
  !e.due && decide (e.dir = BitVec.ofNat 3 out) && decide (tallyKey e.h = tallyKey h)

theorem combine_holds (first : (s.die p).held.find? (combines out h) = none) : combine p out lane egress h op s =
    s.modDie p fun d => { d with held :=
      d.held ++ [⟨BitVec.ofNat 3 out, lane, egress, h, (s.die p).rrc, op.toList, false⟩] } := by
  unfold combine
  dsimp only
  change (match (s.die p).held.find? (combines out h) with | none => _ | some e => _) = _
  rw [first]

variable {e : HeldTally} (held : (s.die p).held.find? (combines out h) = some e)
include held

theorem combine_adds (fits : (beadOf e.h).epoch + (beadOf h).epoch ≤ 65535) : combine p out lane egress h op s =
    s.modDie p fun d => { d with held := d.held.map fun x => if x = e then
      { e with h := packBead { beadOf e.h with epoch := (beadOf e.h).epoch + (beadOf h).epoch }
               ops := e.ops ++ op.toList } else x } := by
  unfold combine
  dsimp only
  change (match (s.die p).held.find? (combines out h) with | none => _ | some e => _) = _
  rw [held]
  exact if_pos fits

theorem combine_releases (full : 65535 < (beadOf e.h).epoch + (beadOf h).epoch) : combine p out lane egress h op s =
    (releaseTally p e s).modDie p fun d => { d with held :=
      d.held ++ [⟨BitVec.ofNat 3 out, lane, egress, h, (s.die p).rrc, op.toList, false⟩] } := by
  unfold combine
  dsimp only
  change (match (s.die p).held.find? (combines out h) with | none => _ | some e => _) = _
  rw [held]
  exact if_neg (Nat.not_le.mpr full)

end

section
variable {p : Nat} {e : HeldTally} {s : State}

theorem releaseTally_refused (shut : beyond s p e.dir.toNat = false) : releaseTally p e s =
    refuse p (.bead e.h []) .unreachable (s.modDie p (tallyLeft e.ops ∘ fun d => { d with held := d.held.erase e })) := by
  rw [releaseTally, if_pos (by simp [shut])]

variable (beyond' : beyond s p e.dir.toNat = true)
include beyond'

theorem releaseTally_leaves (free : outputFree s p e.dir.toNat e.lane (heldSeg e) = true) : releaseTally p e s =
    (leave p e.dir.toNat e.lane (heldSeg e) (s.modDie p fun d => { d with held := d.held.erase e })).modDie p
      (tallyLeft e.ops) := by
  rw [releaseTally, if_neg (by simp [beyond']), if_pos free]

theorem releaseTally_waits (full : outputFree s p e.dir.toNat e.lane (heldSeg e) = false) : releaseTally p e s =
    s.modDie p fun d => { d with held := d.held.map fun x => if x = e then { e with due := true } else x } := by
  rw [releaseTally, if_neg (by simp [beyond']), if_neg (by simp [full])]

end

/-- Settles O31: tallies at their die by `issueLong_enters` and `collect`, at an output by `combine` and
`releaseTally`. -/
theorem tallyCommandsComplete : Obligations.TallyCommandsComplete := by
  unfold Obligations.TallyCommandsComplete
  intro p s
  refine ⟨fun t w pass room id count writer => ?_, ?_, ?_, ?_, fun c v act reserved id => ?_⟩
  · exact next_onDie (active_of_canIssue pass.1) fun n =>
      dieTallyAdd_enters (d := (s.die p).patrolAt n) pass room id count writer
  · intro dir lane i k l g egress h took new key on due turn frame tally
    have turned := tallyCombine_turn on due turn frame tally
    have dir' : BitVec.ofNat 3 dir.toNat = dir := BitVec.ofNat_toNat ..
    have held : (took.die p).held = (s.die p).held := held_takeTurn ..
    have rrc : (took.die p).rrc = (s.die p).rrc := rrc_takeTurn ..
    have same : combines dir.toNat h = key := by
      funext e
      rw [combines, dir']
    have find : (took.die p).held.find? (combines dir.toNat h) = (s.die p).held.find? key := by rw [held, same]
    have fresh : (⟨BitVec.ofNat 3 dir.toNat, l, egress, h, (took.die p).rrc, g.op.toList, false⟩ : HeldTally) = new := by
      rw [dir', rrc]
    refine ⟨fun first => congrArg Host.Outcome.next (turned.trans ?_), fun e first fits =>
      congrArg Host.Outcome.next (turned.trans ?_), fun e first full => congrArg Host.Outcome.next (turned.trans ?_)⟩
    · rw [combine_holds (find.trans first), fresh]
    · exact combine_adds (find.trans first) fits
    · rw [combine_releases (find.trans first) full, fresh]
  · intro dir h e out first
    have released : exec (.tallyCombineRelease p dir h) s = .next (releaseTally p e s) := by
      refine congrArg Host.Outcome.next ?_
      rw [tallyRelease, first]
    obtain ⟨dir', header⟩ : e.dir = dir ∧ e.h = h := by simpa using List.find?_some first
    subst dir' header
    refine ⟨fun beyond' free => ?_, fun beyond' full => ?_, fun shut => ?_⟩
    · rw [released, releaseTally_leaves beyond' free]
    · rw [released, releaseTally_waits beyond' full]
    · rw [released, releaseTally_refused shut]
  · intro h rest c b o took step att act front whole tally id entry
    have entry' (n : Nat × Nat) : colFind ((s.die p).taken n rest) b.job b.seq = some c :=
      (colFind_of_reg (fun _ => rfl) ..).trans entry
    have control : isCollectorTally h = true := by
      have : isControl h 2 = true := by
        simp only [tallyOk, Bool.and_eq_true] at tally
        exact tally.1.1.1.1.1
      simp [isCollectorTally, this, b] at id ⊢
      exact id
    refine ⟨fun same attempt => ?_, fun same attempt => ?_, fun k least most ahead => ?_⟩
    · exact next_onDie_front act front control fun n =>
        dieCollectorTally_adds (d := (s.die p).taken n rest) act whole tally (entry' n) same attempt
    · exact next_onDie_front act front control fun n =>
        dieCollectorTally_repeats (d := (s.die p).taken n rest) act whole tally (entry' n) same attempt
    · exact next_onDie_front act front control fun n =>
        dieCollectorTally_moves (d := (s.die p).taken n rest) act whole tally (entry' n) least most ahead
  · exact next_onDie act fun n => dieCollectorEnable_whole c.toNat _ reserved id

/-! ## The turn of an output (R205, R214, R215) -/

section
variable {s : State} {p out lane : Nat}

/-- What one input offers an output on a lane. -/
def contender (s : State) (p out lane i : Nat) : Option (Nat × Nat × Seg × Way) :=
  match offered s p i lane with
  | some (k, g, w) =>
    if w.out = out ∧ (outputFree s p out lane g ∨ isTally g.frame) then some (i, k, g, w) else none
  | none => none

theorem contenders_eq (s : State) (p out lane : Nat) :
    contenders s p out lane = (List.range 10).filterMap (contender s p out lane) := rfl

theorem contender_offers {i : Nat} {c : Nat × Nat × Seg × Way} (found : contender s p out lane i = some c) :
    c.1 = i ∧ offered s p i lane = some c.2 := by
  unfold contender at found
  split at found
  · split at found
    · obtain rfl := Option.some.inj found
      exact ⟨rfl, ‹_›⟩
    · cases found
  · cases found

theorem mem_contenders {c : Nat × Nat × Seg × Way} (listed : c ∈ contenders s p out lane) :
    offered s p c.1 lane = some c.2 := by
  obtain ⟨i, _, found⟩ := List.mem_filterMap.mp listed
  obtain ⟨rfl, offer⟩ := contender_offers found
  exact offer

/-- An output's inputs contend in their order. -/
theorem contenders_sorted (s : State) (p out lane : Nat) :
    (contenders s p out lane).Pairwise fun c c' => c.1 < c'.1 := by
  rw [contenders_eq]
  refine List.Pairwise.filterMap _ (fun i i' less c found c' found' => ?_) List.pairwise_lt_range
  rwa [(contender_offers found).1, (contender_offers found').1]

/-- The first that passes is before every other that does, in a list in order. -/
theorem find?_least {α : Type} {key : α → Nat} {l : List α} {q : α → Bool} {x y : α}
    (sorted : l.Pairwise fun a b => key a < key b) (first : l.find? q = some x) (listed : y ∈ l) (passes : q y = true) :
    key x ≤ key y := by
  obtain ⟨_, before, after, rfl, fails⟩ := List.find?_eq_some_iff_append.mp first
  obtain early | rfl | late : y ∈ before ∨ y = x ∨ y ∈ after := by simpa using listed
  · exact absurd early fun early => by simpa [passes] using fails y early
  · exact Nat.le_refl _
  · rw [List.pairwise_append] at sorted
    exact Nat.le_of_lt ((List.pairwise_cons.mp sorted.2.1).1 y late)

/-- The lane whose turn it is at an output (R215). -/
def turnLane (s : State) (p out : Nat) : Nat :=
  if (contenders s p out 1).isEmpty then 0
  else if (contenders s p out 0).isEmpty then 1 else 1 - tabGet (fun _ => 1) (s.die p).rtLane out

theorem turnLane_le (s : State) (p out : Nat) : turnLane s p out ≤ 1 := by
  unfold turnLane
  split
  · exact Nat.zero_le 1
  · split
    · exact Nat.le_refl 1
    · exact Nat.sub_le ..

/-- A turn is that of the first input past the last one served, or of the first. -/
theorem turnOf_eq {i k : Nat} {g : Seg} {w : Way} (turn : turnOf s p out = some (lane, i, k, g, w)) :
    lane = turnLane s p out ∧ ((contenders s p out lane).find? fun c =>
      decide (tabGet (fun _ => 9) (s.die p).rtLast (2 * out + lane) < c.1)).or (contenders s p out lane).head? =
        some (i, k, g, w) := by
  unfold turnOf at turn
  dsimp only at turn
  obtain ⟨c, served, same⟩ := Option.map_eq_some_iff.mp turn
  obtain ⟨rfl, rfl⟩ := Prod.mk.inj same
  have own : (if turnLane s p out = 0 then contenders s p out 0 else contenders s p out 1) =
      contenders s p out (turnLane s p out) := by
    obtain zero | one : turnLane s p out = 0 ∨ turnLane s p out = 1 := by have := turnLane_le s p out; omega
    · rw [if_pos zero, zero]
    · rw [if_neg (by omega), one]
  change ((if turnLane s p out = 0 then contenders s p out 0 else contenders s p out 1).find? _).or
    (if turnLane s p out = 0 then contenders s p out 0 else contenders s p out 1).head? = _ at served
  rw [own] at served
  exact ⟨rfl, served⟩

theorem entryWay_ne_discard (s : State) (p i l e : Nat) (egress : Option (BitVec 3)) :
    entryWay s p i l e egress ≠ .discard := by
  intro same
  obtain ⟨_, same⟩ | ⟨_, same⟩ := ite_eq_iff.mp same
  · cases same
  · cases same

/-- A frame's first segment is discarded for its check alone (R205, check 1). -/
theorem segWay_discard (s : State) (p i l : Nat) {g : Seg} (head : g.cont = false) :
    segWay s p i l g = .discard ↔ frameOk g.frame = false := by
  unfold segWay
  dsimp only
  rw [if_neg (by simp [head])]
  by_cases ok : frameOk g.frame = true
  · rw [if_neg (by simp [ok])]
    refine ⟨fun same => absurd same ?_, fun bad => absurd (ok.symm.trans bad) nofun⟩
    split
    · split
      · exact entryWay_ne_discard s p i l _ _
      · split
        · exact entryWay_ne_discard s p i l _ _
        · exact nofun
    · split
      · exact entryWay_ne_discard s p i l _ _
      · split
        · exact nofun
        · exact entryWay_ne_discard s p i l _ _
  · rw [if_pos (by simp [head, ok])]
    simpa using ok

theorem offered_way {i k : Nat} {g : Seg} {w : Way} (found : offered s p i lane = some (k, g, w)) :
    ∃ l, w = segWay s p i l g := by
  unfold offered at found
  split at found
  · obtain ⟨e, _, same⟩ := List.mem_map.mp (List.mem_of_find?_eq_some found)
    obtain ⟨-, same⟩ := Prod.mk.inj same
    obtain ⟨rfl, rfl⟩ := Prod.mk.inj same
    exact ⟨0, rfl⟩
  · obtain ⟨g', _, same⟩ := Option.map_eq_some_iff.mp found
    obtain ⟨-, same⟩ := Prod.mk.inj same
    obtain ⟨rfl, rfl⟩ := Prod.mk.inj same
    exact ⟨lane, rfl⟩

variable {i k : Nat} {g : Seg} {w : Way} (on : routerOn s p = true) (due : dueTally s p out = none)
  (turn : turnOf s p out = some (lane, i, k, g, w))
include on due turn

theorem routerForward_turn : routerForward p out g.frame s = forward p g w (takeTurn p out lane i k s) := by
  rw [routerForward, turnFrame, due, turn]
  refine (if_pos rfl).trans ?_
  rw [routerTurn, if_neg (by simp [on]), due, turn]

end

theorem forward_frame {p out l : Nat} {g : Seg} (egress : Option (BitVec 3)) (s : State)
    (plain : isTally g.frame = false) :
    forward p g (.go out l egress) s = leave p out l { g with egress := egress } s := by
  rw [forward]
  split
  · exact if_neg (by simp [plain])
  · rfl

/-- Settles O21: whose turn it is by `turnOf_eq`, and the way of its segment by `forward`. -/
theorem routerForwardComplete : Obligations.RouterForwardComplete := by
  unfold Obligations.RouterForwardComplete
  intro p out lane i k g w s took on due turn
  obtain ⟨lane', served⟩ := turnOf_eq turn
  have goes : exec (.routerForward p out g.frame) s = .next (forward p g w took) :=
    congrArg Host.Outcome.next (routerForward_turn on due turn)
  have listed : (i, k, g, w) ∈ contenders s p out.val lane := by
    obtain found | ⟨-, found⟩ := Option.or_eq_some_iff.mp served
    · exact List.mem_of_find?_eq_some found
    · exact List.mem_of_head? found
  refine ⟨listed, fun _ other => ?_, fun c rival later => ?_, fun l egress way plain => ⟨fun up head last => ?_,
    fun q low high beside => ?_⟩, fun st way => ?_, fun h bs way frame => ?_, fun head => ?_⟩
  · rw [lane', turnLane] at other ⊢
    by_cases one : (contenders s p out.val 1).isEmpty = true
    · rw [if_pos one] at other
      exact absurd (List.isEmpty_iff.mp one) other
    · rw [if_neg one] at other ⊢
      by_cases zero : (contenders s p out.val 0).isEmpty = true
      · rw [if_pos zero] at other
        exact absurd (List.isEmpty_iff.mp zero) other
      · rw [if_neg zero]
  · obtain found | ⟨nobody, -⟩ := Option.or_eq_some_iff.mp served
    · exact ⟨by simpa using List.find?_some found,
        find?_least (contenders_sorted s p out.val lane) found rival (by simpa using later)⟩
    · exact absurd (List.find?_eq_none.mp nobody c rival) (by simpa using later)
  · rw [goes, way, forward_frame egress took plain, leave, if_pos up]
    refine congrArg (fun f => Host.Outcome.next (took.modDie p f)) (funext fun d => ?_)
    simp [takeSeg, head, last]
  · rw [goes, way, forward_frame egress took plain, leave, if_neg (by omega), if_neg (by omega), if_neg (by omega),
      beside]
    rfl
  · rw [goes, way, forward]
  · rw [goes, way, forward, frame]
  · have offer : offered s p i lane = some (k, g, w) := mem_contenders listed
    obtain ⟨l, rfl⟩ := offered_way offer
    exact segWay_discard s p i l head

end Sys2Proof.Machine
end

section
/-! PROOFS. Storage of a die (O38) and the rows of the memory controllers (O36). -/

namespace Sys2Proof.Machine

/-! ## Storage of a die (R172, R281, R284) -/

/-- Table `t'` is `t` with bytes `bs` written at `a`, in canonical form. -/
structure WrittenAt (t t' : List Host.Cell) (a : Nat) (bs : Bytes) : Prop where
  wf : Memory.wf t' = true
  read : tabSlice zeroByte t' a bs.length = bs
  frame : ∀ x, (x < a ∨ a + bs.length ≤ x) → tabGet zeroByte t' x = tabGet zeroByte t x

/-- The first bytes of a longer write are read back. -/
theorem tabSlice_tabPut_prefix (t : List Host.Cell) (a : Nat) (bs ps : Bytes) :
    tabSlice zeroByte (tabPut zeroByte t a (bs ++ ps)) a bs.length = bs := by
  have cut := tabSlice_tabPut_inside t a (vs := bs ++ ps) (o := 0) (k := bs.length) (by simp)
  rw [Nat.add_zero, sliceB_append_left _ _ _ _ (by omega)] at cut
  simpa [sliceB] using cut

theorem tabGet_tabPut_outside (t : List Host.Cell) {a x : Nat} {bs : Bytes} (outside : x < a ∨ a + bs.length ≤ x) :
    tabGet zeroByte (tabPut zeroByte t a bs) x = tabGet zeroByte t x := by
  rw [tabGet_tabPut, if_neg (by omega)]

theorem writtenAt_tabPut {t : List Host.Cell} (a : Nat) (bs : Bytes) (w : Memory.wf t = true) :
    WrittenAt t (tabPut zeroByte t a bs) a bs :=
  ⟨tabPut_wf a bs w, by simpa using tabSlice_tabPut_prefix t a bs [], fun _ => tabGet_tabPut_outside t⟩

/-- So is a write that leaves the table where there is no byte to write. -/
theorem writtenAt_unless_empty {t : List Host.Cell} (a : Nat) (bs : Bytes) (w : Memory.wf t = true) :
    WrittenAt t (if bs.length = 0 then t else tabPut zeroByte t a bs) a bs := by
  split
  · obtain rfl := List.eq_nil_of_length_eq_zero ‹_›
    exact ⟨w, rfl, fun _ _ => rfl⟩
  · exact writtenAt_tabPut a bs w

section
variable (a : Nat) (bs : Bytes) (d : Die)

theorem stores_lpWritePart : (lpWritePart a bs d).spd = d.spd ∧
    (lpWritePart a bs d).lpddr = if bs.length = 0 then d.lpddr else tabPut zeroByte d.lpddr a bs := by
  have h := lpWritePart_stores a bs d
  simp only [Die.stores, Prod.mk.injEq] at h
  exact ⟨h.2.1, h.1⟩

theorem stores_spdWrite (client : Nat) : (spdWrite client a bs d).lpddr = d.lpddr ∧
    (spdWrite client a bs d).spd = if bs.length = 0 then d.spd else tabPut zeroByte d.spd a bs := by
  have h := spdWrite_stores client a bs d
  simp only [Die.stores, Prod.mk.injEq] at h
  exact ⟨h.1, h.2.1⟩

theorem stores_lpStore (r : Req) : (lpStore r a bs d).spd = d.spd ∧
    (lpStore r a bs d).lpddr = tabPut zeroByte d.lpddr a (padHalf bs d).1 := by
  have h := lpStore_stores r a bs d
  simp only [Die.stores, Prod.mk.injEq] at h
  exact ⟨h.2.1, h.1⟩

theorem length_padHalf : (padHalf bs d).1.length = roundUp bs.length 32 := by
  have : bs.length ≤ roundUp bs.length 32 := by
    unfold roundUp
    omega
  simp [padHalf, tabulate]
  omega

theorem lpBad_dropped {d : Die} {marks : List (Nat × LpMark)} {a len hi : Nat}
    (halves : len ≠ 0 → (a + len - 1) / 32 < hi)
    (dropped : d.lpMarks = tabDrop marks (a / 32) hi) : lpBad d a len = [] := by
  unfold lpBad
  split
  · rfl
  · rw [dropped, tabDrop, List.filter_filter, List.filter_eq_nil_iff]
    intro e _
    have := halves ‹_›
    simp
    omega

end

/-- Settles O38: each write by `WrittenAt`, and the halves whose marks it drops by `lpBad_dropped`. -/
theorem storageReadAfterWrite : Obligations.StorageReadAfterWrite := by
  unfold Obligations.StorageReadAfterWrite
  intro d r client a bs wfLp wfSpd d1 d2 d3 d4
  obtain ⟨spd2, lp2⟩ := stores_lpWritePart a bs d
  obtain ⟨lp3, spd3⟩ := stores_spdWrite a bs d client
  obtain ⟨spd4, lp4⟩ := stores_lpStore a bs d r
  have w1 : WrittenAt d.lpddr d1.lpddr a bs := writtenAt_tabPut a bs wfLp
  have w2 : WrittenAt d.lpddr d2.lpddr a bs := lp2 ▸ writtenAt_unless_empty a bs wfLp
  have w3 : WrittenAt d.spd d3.spd a bs := spd3 ▸ writtenAt_unless_empty a bs wfSpd
  obtain ⟨ps, pad, -⟩ := padHalf_fst bs d
  refine ⟨w1.wf, w2.wf, w3.wf, w1.read, w2.read, w3.read,
    fun x outside => ⟨w1.frame x outside, w2.frame x outside, w3.frame x outside⟩, rfl, spd2, lp3,
    fun aligned halves _ => ?_, ?_, ?_, spd4, fun x outside => ?_, fun aligned _ => ?_⟩
  · exact lpBad_dropped (fun _ => by omega) rfl
  · exact lp4 ▸ tabPut_wf _ _ wfLp
  · change tabSlice zeroByte d4.lpddr a bs.length = bs
    rw [lp4, pad]
    exact tabSlice_tabPut_prefix d.lpddr a bs ps
  · rw [lp4]
    exact tabGet_tabPut_outside _ (by rwa [length_padHalf])
  · obtain ⟨_, _, stored⟩ := lpStore_eq r a bs d
    have length : bs.length ≤ (padHalf bs d).1.length := by simp [pad]
    exact lpBad_dropped (fun _ => by omega) (congrArg Die.lpMarks stored)

/-! ## The rows of the controllers (R282 to R299) -/

section
variable {mc : Bool} {ch : Nat} {d : Die}

theorem dieMcRequest_enters {r : McReq} (home : mc = decide (2 ^ 34 ≤ r.addr.toNat)) (open_ : mcOpen d mc = true)
    (room : mcRoom d mc r = true) (granted : regionChk d (mcReqOf r) r.addr.toNat (mcLen r) = none) :
    dieMcRequest r d = mcGo mc (setMcSlots mc
      (mcSlots d mc ++ [⟨r, BitVec.ofNat 2 (mcChannel r.addr.toNat), false, d.rrc⟩]) d) := by
  subst home
  unfold dieMcRequest
  dsimp only
  rw [if_neg (by rw [open_, room]; decide), granted]

theorem dieMcRequest_refused {r : McReq} {st : Status} (home : mc = decide (2 ^ 34 ≤ r.addr.toNat))
    (open_ : mcOpen d mc = true) (room : mcRoom d mc r = true)
    (refused : regionChk d (mcReqOf r) r.addr.toNat (mcLen r) = some st) : dieMcRequest r d =
      let d' := regionRefused (mcReqOf r) r.addr.toNat st d
      { d' with mcOut := d'.mcOut ++ [(r.cls, st, [])] } := by
  subst home
  unfold dieMcRequest
  dsimp only
  rw [if_neg (by rw [open_, room]; decide), refused]

theorem dieMcReadReturn_serves {i : Nat} {q : McSlot} (slot : (mcSlots d mc)[i]? = some q)
    (serves : mcServes d mc q.channel.toNat = true) (calm : drainDue d mc q.channel.toNat = false)
    (next : nextRead d mc q.channel.toNat = some (q, i)) (unmarked : lpBad d q.req.addr.toNat (mcLen q.req) = []) :
    dieMcReadReturn mc i d =
      let d' := openPageAt mc q.req.addr.toNat d
      let turn := tabSet (fun _ => false) d'.lastNeedle (4 * mcIx mc + q.channel.toNat) (isNeedle q)
      memGo mc (setMcSlots mc ((mcSlots d mc).eraseIdx i) { d' with
        lastNeedle := turn
        mcOut := d.mcOut ++ [(q.req.cls, .ok, tabSlice zeroByte d.lpddr q.req.addr.toNat (mcLen q.req))] }) := by
  unfold dieMcReadReturn
  rw [slot]
  dsimp only
  rw [if_neg (by simp [serves, calm, next]), lpRead_unmarked]
  · rfl
  · exact unmarked

theorem dieWriteBatchDrain_drains (serves : mcServes d mc ch = true) (due : drainDue d mc ch = true) :
    dieWriteBatchDrain mc ch d =
      let q := (mcQueue d mc).filter fun q => decide (q.channel.toNat = ch)
      memGo mc (drainChannel mc ch (q.foldl (fun d q => openPageAt mc q.req.addr.toNat d) d)) := by
  rw [dieWriteBatchDrain, if_neg (by simp [serves, due])]

theorem dieMcEccWriteBack_corrects {h : Nat} (idle : channelIdle d mc (mcChannel (32 * h)) = true)
    (queued : tabGet (fun _ => none) d.lpWb (mcIx mc) = some h) (single : tabGet goodLp d.lpMarks h = .single) :
    dieMcEccWriteBack mc d = { d with
      lpWb := tabSet (fun _ => none) d.lpWb (mcIx mc) none, lpMarks := tabSet goodLp d.lpMarks h .good } := by
  unfold dieMcEccWriteBack
  rw [queued]
  dsimp only
  rw [if_neg (by simp [idle]), if_pos single]

theorem diePatrolScrub_moves {k : Nat} (on : d.flag (mcReg mc + 4) 8 = true)
    (place : tabGet (fun _ => 0) d.scrubPos (mcIx mc) = k) (inner : k + 1 ≠ mcHalves)
    (idle : channelIdle d mc (mcChannel (32 * ((if mc then 2 ^ 29 else 0) + k))) = true) :
    diePatrolScrub mc d =
      let h := (if mc then 2 ^ 29 else 0) + k
      let d' := lpTouch d (h, tabGet goodLp d.lpMarks h)
      { d' with scrubPos := tabSet (fun _ => 0) d'.scrubPos (mcIx mc) (k + 1) } := by
  subst place
  unfold diePatrolScrub
  dsimp only
  rw [if_neg (by rw [idle, on]; decide), decide_eq_false inner]
  rfl

theorem dieTempReadout_cool {c : Nat} (cool : c < 92) : dieTempReadout mc c d =
    memGo mc (((d.put ⟨mcReg mc, 15, 8⟩ c).put ⟨mcReg mc, 2, 2⟩ 0).put ⟨mcReg mc, 3, 3⟩ 0) := by
  unfold dieTempReadout
  simp only [show ¬95 ≤ c by omega, cool, show ¬105 ≤ c by omega, show c ≤ 100 by omega, false_and, if_false, if_true]

theorem dieTempReadout_warm {c : Nat} (least : 95 ≤ c) (most : c ≤ 100) (was : d.flag (mcReg mc) 2 = false) :
    dieTempReadout mc c d = memGo mc (((((d.put ⟨mcReg mc, 15, 8⟩ c).put ⟨mcReg mc, 2, 2⟩ 1).setFlag
      (mcReg mc + 8) 1).event (mcReg mc)).put ⟨mcReg mc, 3, 3⟩ 0) := by
  unfold dieTempReadout
  simp only [least, was, show ¬105 ≤ c by omega, most, true_and, Bool.not_false, if_false, if_true]

/-! ## The traffic generators (R302) -/

/-- A generator's control register as a write that starts it leaves it. -/
def tgReady (mc : Bool) (ch v : Nat) (d : Die) : Die :=
  (d.put ⟨tgReg mc ch, 2, 0⟩ v).put ⟨tgReg mc ch, 3, 3⟩ (bitsOf v 3 3)

theorem tgBusy_tgReady (v : Nat) : tgBusy (tgReady mc ch v d) mc ch = tgBusy d mc ch := by
  rw [tgBusy, tgBusy, Die.flag_eq_get, Die.flag_eq_get, tgReady,
    Die.get_put_apart _ _ (Nat.le_refl 3) (show 5 < 32 by decide) (.inr (.inr (show 3 < 5 by decide))),
    Die.get_put_apart _ _ (Nat.zero_le 2) (show 5 < 32 by decide) (.inr (.inr (show 2 < 5 by decide)))]

theorem reg_tgReady {v o : Nat} (ne : o ≠ tgReg mc ch) : (tgReady mc ch v d).reg o = d.reg o := by
  rw [tgReady, Die.reg_put_ne _ _ _ _ ne, Die.reg_put_ne _ _ _ _ ne]

theorem dieTgStart_whole {formed : Bool} {v : Nat} (mode : bitsOf v 2 0 ≤ 5) (reserved : bitsOf v 31 6 = 0)
    (go : bitOf v 4 = true) : dieTgStart true formed mc ch v d =
      if formed ∨ tgBusy d mc ch ∨ 2 ^ 21 < d.reg (tgReg mc ch + 4) + d.reg (tgReg mc ch + 8) then
        ((tgReady mc ch v d).setFlag (mcReg mc + 8) 3).event (mcReg mc)
      else ((tgReady mc ch v d).put ⟨tgReg mc ch, 5, 5⟩ 1).setReg (tgReg mc ch + 0x24) 0 := by
  have known : decide (5 < bitsOf v 2 0) = false := decide_eq_false (Nat.not_lt.mpr mode)
  have clear : decide (bitsOf v 31 6 ≠ 0) = false := decide_eq_false (not_not.mpr reserved)
  unfold dieTgStart
  simp only [known, clear, go, Bool.not_true, Bool.false_eq_true, if_false, Bool.or_self]
  rw [← tgReady, tgBusy_tgReady, reg_tgReady (by omega), reg_tgReady (by omega)]

theorem dieTgStart_starts {formed : Bool} {v : Nat} (mode : bitsOf v 2 0 ≤ 5) (reserved : bitsOf v 31 6 = 0)
    (go : bitOf v 4 = true) (loose : formed = false) (free : tgBusy d mc ch = false)
    (pages : d.reg (tgReg mc ch + 4) + d.reg (tgReg mc ch + 8) ≤ 2 ^ 21) : dieTgStart true formed mc ch v d =
      ((tgReady mc ch v d).put ⟨tgReg mc ch, 5, 5⟩ 1).setReg (tgReg mc ch + 0x24) 0 := by
  rw [dieTgStart_whole mode reserved go, loose, free]
  exact if_neg fun h => h.elim nofun fun h => h.elim nofun (Nat.not_lt.mpr pages)

theorem dieTgStart_refused {formed : Bool} {v : Nat} (mode : bitsOf v 2 0 ≤ 5) (reserved : bitsOf v 31 6 = 0)
    (go : bitOf v 4 = true) (refused : formed = true ∨ tgBusy d mc ch = true) : dieTgStart true formed mc ch v d =
      ((tgReady mc ch v d).setFlag (mcReg mc + 8) 3).event (mcReg mc) := by
  rw [dieTgStart_whole mode reserved go]
  exact if_pos (or_assoc.mp (.inl refused))

theorem foldl_zipIdx_fst {α β : Type} (f : β → α → β) (l : List α) (x : β) :
    l.zipIdx.foldl (fun y e => f y e.1) x = l.foldl f x := by
  rw [← List.foldl_map (f := Prod.fst) (g := f), List.zipIdx_map_fst]

theorem foldl_tgUnits (first pages : Nat) (d0 x : Die) :
    (tgUnits 1 first pages d0).zipIdx.foldl (fun d u =>
      (tgHalves 1 u.2 d0 u.1.1).foldl (fun d k => tgHalf mc ch u.1.2 k d) d) x =
    (tabulate (30 * pages) fun i => 30 * first + i).foldl
      (fun d u => tgHalf mc ch true (2 * u + 1) (tgHalf mc ch true (2 * u) d)) x := by
  have both (d : Die) (u : (Nat × Bool) × Nat) :
      (tgHalves 1 u.2 d0 u.1.1).foldl (fun d k => tgHalf mc ch u.1.2 k d) d =
        tgHalf mc ch u.1.2 (2 * u.1.1 + 1) (tgHalf mc ch u.1.2 (2 * u.1.1) d) := rfl
  simp only [both]
  rw [foldl_zipIdx_fst fun d (u : Nat × Bool) => tgHalf mc ch u.2 (2 * u.1 + 1) (tgHalf mc ch u.2 (2 * u.1) d)]
  change ((List.range (30 * pages)).map fun i => (30 * first + i, true)).foldl _ x = _
  rw [tabulate, List.foldl_map, List.foldl_map]

/-- The units of a writing pass, one after the other. -/
theorem dieTgPassDone_writes {ticks : Nat} (busy : tgBusy d mc ch = true) (mode : d.get ⟨tgReg mc ch, 2, 0⟩ = 1) :
    dieTgPassDone mc ch ticks d =
      let o := tgReg mc ch
      let n := 30 * d.reg (o + 8)
      let d' := (tabulate n fun i => 30 * d.reg (o + 4) + i).foldl
        (fun d u => tgHalf mc ch true (2 * u + 1) (tgHalf mc ch true (2 * u) d)) (d.setReg (o + 0x20) 0)
      let d' : Die := { d' with free := d'.free + n }
      memGo mc (((((d'.setReg48 (o + 0x10) (64 * n)).setReg48 (o + 0x18) ticks).put ⟨o, 5, 5⟩ 0).setFlag
        (mcReg mc + 8) 2).event (mcReg mc)) := by
  have length : (tgUnits 1 (d.reg (tgReg mc ch + 4)) (d.reg (tgReg mc ch + 8)) d).length =
      30 * d.reg (tgReg mc ch + 8) := by simp [tgUnits, tabulate]
  unfold dieTgPassDone
  dsimp only
  rw [if_neg (by simp [busy]), mode, foldl_tgUnits, length, Nat.mul_comm 64]
  rfl

end

/-- Settles O36: each row by the lemma on its command at the die. -/
theorem memoryCommandsComplete : Obligations.MemoryCommandsComplete := by
  unfold Obligations.MemoryCommandsComplete
  intro p mc ch s d0 b o act
  refine ⟨fun r home open_ room => ⟨fun granted => ?_, fun st refused => ?_⟩,
    fun i q slot _ serves calm next unmarked => ?_, fun serves due => ?_, fun h idle queued single => ?_,
    ?_, ?_, fun c cool => ?_, fun c least most was => ?_,
    ?_, fun ticks busy mode => ?_⟩
  · exact next_onDie act fun n => dieMcRequest_enters (d := (s.die p).patrolAt n) home open_ room granted
  · exact next_onDie act fun n => dieMcRequest_refused (d := (s.die p).patrolAt n) home open_ room refused
  · exact next_onDie act fun n => dieMcReadReturn_serves (d := (s.die p).patrolAt n) slot serves calm next unmarked
  · exact next_onDie act fun n => dieWriteBatchDrain_drains (d := (s.die p).patrolAt n) serves due
  · exact next_onDie act fun n => dieMcEccWriteBack_corrects (d := (s.die p).patrolAt n) idle queued single
  · intro k on place inner h idle
    exact next_onDie act fun n => diePatrolScrub_moves (d := (s.die p).patrolAt n) on place inner idle
  · exact next_onDie act fun n => rfl
  · exact next_onDie act fun n => dieTempReadout_cool cool
  · exact next_onDie act fun n => dieTempReadout_warm (d := (s.die p).patrolAt n) least most was
  · intro v mode reserved go ready
    refine ⟨fun formed free pages => ?_, fun refused => ?_⟩
    · exact next_onDie act fun n => dieTgStart_starts (d := (s.die p).patrolAt n) mode reserved go formed free pages
    · exact next_onDie act fun n => dieTgStart_refused (d := (s.die p).patrolAt n) mode reserved go refused
  · exact next_onDie act fun n => dieTgPassDone_writes (d := (s.die p).patrolAt n) busy mode

end Sys2Proof.Machine
end

section
/-! PROOFS. The port block of a die: packets that it receives (O39) and its own events (O40). -/

namespace Sys2Proof.Machine

/-! ## What a packet's `ACK` and credits leave (R320) -/

/-- Registers that neither the cullet nor a credit counter stands in. -/
def uncredited (o : Nat) : Prop := o ≠ 0xD0020 ∧ ∀ v, v < 4 → o ≠ 0xD0080 + 8 * v

/-- Die `d'` is `d` but for its cullet, what it replays, and its credit. -/
structure CreditOnly (d d' : Die) : Prop where
  reg : ∀ o, uncredited o → d'.reg o = d.reg o
  wlk : ∃ c r n, d' = { d with regs := d'.regs, wlk := { d.wlk with cullet := c, replay := r, replays := n } }

namespace CreditOnly

theorem refl (d : Die) : CreditOnly d d := ⟨fun _ _ => rfl, d.wlk.cullet, d.wlk.replay, d.wlk.replays, rfl⟩

theorem trans {d d' d'' : Die} (h : CreditOnly d d') (h' : CreditOnly d' d'') : CreditOnly d d'' := by
  obtain ⟨c, r, n, same⟩ := h.wlk
  obtain ⟨c', r', n', same'⟩ := h'.wlk
  refine ⟨fun o free => (h'.reg o free).trans (h.reg o free), c', r', n', ?_⟩
  rw [same', same]

/-- A change of the cullet and of what is replayed, and of a register of the cullet or of a credit counter. -/
theorem of_wlk (d : Die) (c : List DataPkt) (r : Option Nat) (n : Nat) :
    CreditOnly d { d with wlk := { d.wlk with cullet := c, replay := r, replays := n } } := ⟨fun _ _ => rfl, c, r, n, rfl⟩

theorem of_put (d : Die) {f : Fld} (v : Nat) (own : ¬uncredited f.off) : CreditOnly d (d.put f v) :=
  ⟨fun _ free => Die.reg_put_ne _ _ _ _ fun same => own (same ▸ free), d.wlk.cullet, d.wlk.replay, d.wlk.replays, rfl⟩

theorem of_cullet (l : List DataPkt) (d : Die) : CreditOnly d (setCullet l d) := by
  have counts : ¬uncredited 0xD0020 := fun free => free.1 rfl
  exact ((of_wlk d l d.wlk.replay d.wlk.replays).trans (of_put _ l.length (f := ⟨0xD0020, 11, 0⟩) counts)).trans
    (of_put _ _ (f := ⟨0xD0020, 23, 12⟩) counts)

theorem of_release (n : Nat) (d : Die) : CreditOnly d (releaseCullet n d) := by
  unfold releaseCullet
  split
  · exact refl d
  · exact (of_cullet _ d).trans (of_wlk _ _ _ _)

theorem of_ack (a : Nat) (d : Die) : CreditOnly d (applyAck a d) := by
  unfold applyAck
  split
  · exact refl d
  · dsimp only
    split
    · exact of_release _ d
    · exact refl d

theorem of_credit {v : Nat} (x : Nat) (d : Die) (small : v < 4) : CreditOnly d (applyCredit v x d) := by
  unfold applyCredit
  dsimp only
  split
  · exact of_put d x fun free => free.2 v small rfl
  · exact refl d

end CreditOnly

theorem wlk_put (d : Die) (f : Fld) (v : Nat) : (d.put f v).wlk = d.wlk := rfl

theorem wlk_modWlk (f : Wlk → Wlk) (d : Die) : (modWlk f d).wlk = f d.wlk := rfl

theorem wlk_wlkEvent (i : Nat) (d : Die) : (wlkEvent i d).wlk = d.wlk := rfl

/-- The `ACK` and the credits of a packet applied. -/
def heard (pkt : Bytes) (d : Die) : Die :=
  applyCredit 3 (ph pkt 103 88) (applyCredit 2 (ph pkt 87 72) (applyCredit 1 (ph pkt 71 56)
    (applyCredit 0 (ph pkt 55 40) (applyAck (ph pkt 23 12) d))))

theorem heard_creditOnly (pkt : Bytes) (d : Die) : CreditOnly d (heard pkt d) :=
  ((((CreditOnly.of_ack _ d).trans (.of_credit _ _ (by decide))).trans (.of_credit _ _ (by decide))).trans
    (.of_credit _ _ (by decide))).trans (.of_credit _ _ (by decide))

namespace CreditOnly
variable {d d' : Die} (h : CreditOnly d d')
include h

theorem state : wlkState d' = wlkState d := by
  have same := h.reg 0xD0000 ⟨by decide, by decide⟩
  exact Die.get_congr ⟨0xD0000, 2, 0⟩ same

theorem nextRx : wlkNextRx d' = wlkNextRx d := by
  have same := h.reg 0xD001C ⟨by decide, by decide⟩
  exact Die.get_congr ⟨0xD001C, 23, 12⟩ same

theorem txLanes : wlkTxLanes d' = wlkTxLanes d := by
  have same := h.reg 0xD000C ⟨by decide, by decide⟩
  exact congrArg (BitVec.ofNat 18) (Die.get_congr ⟨0xD000C, 17, 0⟩ same)

theorem farNarrow : d'.flag 0xD0000 6 = d.flag 0xD0000 6 :=
  congrArg (bitOf · 6) (h.reg _ ⟨by decide, by decide⟩)

theorem rrc : d'.rrc = d.rrc := by
  have low := h.reg 0x100 ⟨by decide, by decide⟩
  have high := h.reg (0x100 + 4) ⟨by decide, by decide⟩
  have same : d'.reg48 0x100 = d.reg48 0x100 := by
    unfold Die.reg48
    rw [low, high]
  exact congrArg (BitVec.ofNat 48) same

theorem held : d'.wlk.held = d.wlk.held := by
  obtain ⟨c, r, n, same⟩ := h.wlk
  rw [same]

theorem txFailed : d'.wlk.txFailed = d.wlk.txFailed := by
  obtain ⟨c, r, n, same⟩ := h.wlk
  rw [same]

theorem unacked : d'.wlk.unacked = d.wlk.unacked := by
  obtain ⟨c, r, n, same⟩ := h.wlk
  rw [same]

end CreditOnly

/-! ## Reception (R313, R318 to R320) -/

/-- The link layer of a port receives packets (R326). -/
structure Receives (d : Die) : Prop where
  carries : wlkCarries d = true
  least : 1 ≤ wlkState d
  most : wlkState d ≤ 4

section
variable {d : Die} {pkt : Bytes} {bad : Die → Bool} {code : Nat} {k : Die → Die} (on : Receives d)
include on

theorem receiveIf_badCrc (crc : crcOk pkt = false) : receiveIf bad code pkt k d = d.count 0xD0030 1 := by
  obtain ⟨carries, least, most⟩ := on
  rw [receiveIf, if_neg (by simp [carries, Nat.one_le_iff_ne_zero.mp least, most]), if_pos (by simp [crc])]

theorem receiveIf_malformed (crc : crcOk pkt = true) (reserved : pktBad pkt = true) :
    receiveIf bad code pkt k d = d.count 0xD0034 1 := by
  obtain ⟨carries, least, most⟩ := on
  rw [receiveIf, if_neg (by simp [carries, Nat.one_le_iff_ne_zero.mp least, most]),
    if_neg (by simp [crc]), if_pos reserved]

variable (crc : crcOk pkt = true) (whole : pktBad pkt = false)
  (row : (if ph pkt 27 26 = 2 then pc pkt 7 0 else 0x100 + ph pkt 27 26) = code)
include crc whole row

theorem receiveIf_whole : receiveIf bad code pkt k d =
    if !decide (ph pkt 111 104 = wlkEpoch d) && !anyEpoch pkt then d.count 0xD0034 1
    else if decide (ph pkt 111 104 = wlkEpoch d) && decide (code ≠ 5) && !bad d then k (heard pkt d) else k d := by
  obtain ⟨carries, least, most⟩ := on
  rw [receiveIf, if_neg (by simp [carries, Nat.one_le_iff_ne_zero.mp least, most]),
    if_neg (by simp [crc]), if_neg (by simp [whole])]
  exact if_neg (not_not.mpr row)

/-- A packet of the epoch in force has its `ACK` and its credits applied. -/
theorem receiveIf_heard (epoch : ph pkt 111 104 = wlkEpoch d) (other : code ≠ 5) (fits : bad d = false) :
    receiveIf bad code pkt k d = k (heard pkt d) := by
  rw [receiveIf_whole on crc whole row, if_neg (by simp [epoch]), if_pos (by simp [epoch, other, fits])]

theorem receiveIf_contradicts (epoch : ph pkt 111 104 = wlkEpoch d) (contradicts : bad d = true) :
    receiveIf bad code pkt k d = k d := by
  rw [receiveIf_whole on crc whole row, if_neg (by simp [epoch]), if_neg (by simp [contradicts])]

/-- A RESET, or a packet that may be of another epoch and is, has none of its fields applied. -/
theorem receiveIf_unheard (any : anyEpoch pkt = true) (apart : code = 5 ∨ ph pkt 111 104 ≠ wlkEpoch d) :
    receiveIf bad code pkt k d = k d := by
  rw [receiveIf_whole on crc whole row, if_neg (by simp [any])]
  obtain reset | epoch := apart
  · rw [if_neg (by simp [reset])]
  · rw [if_neg (by simp [epoch])]

end

/-! ### The rows of the packets -/

section
variable {d : Die} {pkt : Bytes} (on : Receives d) (crc : crcOk pkt = true) (whole : pktBad pkt = false)
include on crc whole

omit on crc whole in
theorem row_linkctl {code : Nat} (type : ph pkt 27 26 = 2) (ctl : pc pkt 7 0 = code) :
    (if ph pkt 27 26 = 2 then pc pkt 7 0 else 0x100 + ph pkt 27 26) = code := by
  rw [if_pos type, ctl]

omit on crc whole in
theorem row_plain {k : Nat} (type : ph pkt 27 26 = k) (plain : k ≠ 2) :
    (if ph pkt 27 26 = 2 then pc pkt 7 0 else 0x100 + ph pkt 27 26) = 0x100 + k := by
  rw [type, if_neg plain]

omit crc whole in
theorem dieIdleReceive_badCrc (crc : crcOk pkt = false) : dieIdleReceive pkt d = d.count 0xD0030 1 := by
  rw [dieIdleReceive, receive, receiveIf_badCrc on crc]

omit crc whole in
theorem dieDataReceive_malformed (crc : crcOk pkt = true) (reserved : pktBad pkt = true) :
    dieDataReceive pkt d = d.count 0xD0034 1 := by
  rw [dieDataReceive, receiveIf_malformed on crc reserved]

theorem dieIdleReceive_heard (epoch : ph pkt 111 104 = wlkEpoch d) (type : ph pkt 27 26 = 1) :
    dieIdleReceive pkt d = heard pkt d := by
  rw [dieIdleReceive, receive, receiveIf_heard on crc whole (row_plain type (by decide)) epoch (by decide) rfl, id]

theorem dieDataReceive_contradicts (epoch : ph pkt 111 104 = wlkEpoch d) (type : ph pkt 27 26 = 0)
    (contradicts : dataContradicts pkt d = true) : dieDataReceive pkt d = gap (d.count 0xD0034 1) := by
  rw [dieDataReceive, receiveIf_contradicts on crc whole (row_plain type (by decide)) epoch contradicts]
  simp only [dataContradicts, Bool.and_eq_true, decide_eq_true_eq, Option.isNone_iff_eq_none] at contradicts
  obtain ⟨⟨up, next⟩, unfit⟩ := contradicts
  have first : ((dataOf pkt).seq + 4096 - wlkNextRx d) % 4096 = 0 := by
    have seq : (dataOf pkt).seq = wlkNextRx d := next
    omega
  rw [if_neg (not_not.mpr up), if_pos first, acceptData, unfit]

theorem dieDataReceive_inOrder (epoch : ph pkt 111 104 = wlkEpoch d) (type : ph pkt 27 26 = 0) (up : wlkState d = 2)
    (next : ph pkt 11 0 = wlkNextRx d) (fits : dataContradicts pkt d = false) : dieDataReceive pkt d =
      let r := acceptData (dataOf pkt) (heard pkt d)
      if r.1 then acceptHeld (r.2.wlk.held.length + 1) r.2 else r.2 := by
  have same := heard_creditOnly pkt d
  have first : ((dataOf pkt).seq + 4096 - wlkNextRx (heard pkt d)) % 4096 = 0 := by
    have seq : (dataOf pkt).seq = wlkNextRx d := next
    rw [same.nextRx]
    omega
  rw [dieDataReceive, receiveIf_heard on crc whole (row_plain type (by decide)) epoch (by decide) fits,
    if_neg (not_not.mpr (same.state.trans up)), if_pos first]
  dsimp only
  cases accepted : acceptData (dataOf pkt) (heard pkt d) with
  | mk ok d' => cases ok <;> rfl

theorem dieDataReceive_ahead (epoch : ph pkt 111 104 = wlkEpoch d) (type : ph pkt 27 26 = 0) (up : wlkState d = 2)
    {k : Nat} (least : 1 ≤ k) (most : k ≤ 64) (ahead : ph pkt 11 0 = (wlkNextRx d + k) % 4096)
    (new : (d.wlk.held.any fun e => decide (e.1.seq = ph pkt 11 0)) = false) : dieDataReceive pkt d =
      modWlk (fun w => { w with held := w.held ++ [(dataOf pkt, d.rrc)] }) (heard pkt d) := by
  have same := heard_creditOnly pkt d
  have small : wlkNextRx d < 4096 := Die.get_lt ..
  have seq : (dataOf pkt).seq = ph pkt 11 0 := rfl
  have fits : dataContradicts pkt d = false := by
    have later : ph pkt 11 0 ≠ wlkNextRx d := by omega
    simp [dataContradicts, later]
  have distance : ((dataOf pkt).seq + 4096 - wlkNextRx (heard pkt d)) % 4096 = k := by
    rw [same.nextRx]
    omega
  rw [dieDataReceive, receiveIf_heard on crc whole (row_plain type (by decide)) epoch (by decide) fits,
    if_neg (not_not.mpr (same.state.trans up))]
  dsimp only
  rw [distance, if_neg (by omega), if_pos most, same.held, seq, if_neg (by simp only [new,
    Bool.false_eq_true, not_false_eq_true]), same.rrc]

theorem dieReplayReq_heard (epoch : ph pkt 111 104 = wlkEpoch d) (type : ph pkt 27 26 = 2) (code : pc pkt 7 0 = 3)
    (up : wlkState d = 2) : dieReplayReq pkt d = startReplay (heard pkt d) := by
  rw [dieReplayReq, receive, receiveIf_heard on crc whole (row_linkctl type code) epoch (by decide) rfl,
    if_pos ((heard_creditOnly pkt d).state.trans up)]

theorem dieLaneFail_heard (epoch : ph pkt 111 104 = wlkEpoch d) (type : ph pkt 27 26 = 2) (code : pc pkt 7 0 = 1)
    (up : wlkState d = 2) (few : laneCount (BitVec.ofNat 18 (pc pkt 25 8) ||| d.wlk.txFailed) ≤ 10) :
    dieLaneFail pkt d =
      let m := BitVec.ofNat 18 (pc pkt 25 8) ||| d.wlk.txFailed
      let d' := setTxLanes m (heard pkt d)
      let d' := if wlkTxLanes d &&& m ≠ 0 then wlkEvent 0 d' else d'
      queueCtl 0x02 (wlkTxLanes d') 0 0 d' := by
  have same := heard_creditOnly pkt d
  rw [dieLaneFail, receive, receiveIf_heard on crc whole (row_linkctl type code) epoch (by decide) rfl,
    if_neg fun h => h.1 (same.state.trans up), same.txFailed, same.txLanes]
  simp only [decide_eq_true_eq]
  exact if_neg (by omega)

theorem dieLaneAck_heard (epoch : ph pkt 111 104 = wlkEpoch d) (type : ph pkt 27 26 = 2) (code : pc pkt 7 0 = 2) :
    dieLaneAck pkt d =
      let m := BitVec.ofNat 18 (pc pkt 25 8)
      let narrow := decide (laneCount m ≤ 8)
      let d' := if narrow && !d.flag 0xD0000 6 then wlkEvent 1 (heard pkt d) else heard pkt d
      let d' := d'.put ⟨0xD0000, 6, 6⟩ (bit narrow)
      if m &&& d.wlk.unacked = 0 then modWlk (fun w => { w with unacked := 0 }) d' else d' := by
  have same := heard_creditOnly pkt d
  rw [dieLaneAck, receive, receiveIf_heard on crc whole (row_linkctl type code) epoch (by decide) rfl, same.farNarrow]
  simp only [Bool.and_eq_true, Bool.not_eq_true', decide_eq_true_eq]
  have settled (c : Prop) [Decidable c] (n : Nat) : ((if c then wlkEvent 1 (heard pkt d) else heard pkt d).put
      ⟨0xD0000, 6, 6⟩ n).wlk.unacked = d.wlk.unacked := by
    rw [wlk_put]
    split
    · rw [wlk_wlkEvent, same.unacked]
    · exact same.unacked
  rw [settled]

theorem dieLinkResume_heard (epoch : ph pkt 111 104 = wlkEpoch d) (type : ph pkt 27 26 = 2) (code : pc pkt 7 0 = 4)
    (retrain : wlkState d = 3) : dieLinkResume pkt d = tryResume (modWlk (fun w =>
      { w with farResume := some (ph pkt 111 104, pc pkt 43 32) }) (heard pkt d)) := by
  rw [dieLinkResume, receive, receiveIf_heard on crc whole (row_linkctl type code) epoch (by decide) rfl,
    if_pos ((heard_creditOnly pkt d).state.trans retrain)]

omit on crc whole in
theorem anyEpoch_of_code {k : Nat} (type : ph pkt 27 26 = 2) (code : pc pkt 7 0 = k) (late : 4 ≤ k) :
    anyEpoch pkt = true := by
  simp [anyEpoch, type, code, late]

theorem dieLinkReset_takes (type : ph pkt 27 26 = 2) (code : pc pkt 7 0 = 5) (open_ : wlkState d = 2 ∨ wlkState d = 3)
    (new : wlkState d = 3 ∨ pc pkt 51 44 ≠ wlkEpoch d ∨ d.wlk.history = false) : dieLinkReset pkt d =
      queueCtl 0x06 0 0 0 (freshLink (pc pkt 51 44) (modWlk (fun w => { w with ctl := [] }) d)) := by
  rw [dieLinkReset, receive, receiveIf_unheard on crc whole (row_linkctl type code)
    (anyEpoch_of_code type code (by decide)) (.inl rfl)]
  exact (if_pos open_).trans (if_pos (by simpa using new))

theorem dieLinkResetAck_takes (type : ph pkt 27 26 = 2) (code : pc pkt 7 0 = 6) (reset : wlkState d = 4)
    (epoch : ph pkt 111 104 = d.wlk.proposed) (new : d.wlk.proposed ≠ wlkEpoch d) : dieLinkResetAck pkt d =
      freshLink d.wlk.proposed (modWlk (fun w => { w with ctl := [] }) d) := by
  rw [dieLinkResetAck, receive, receiveIf_unheard on crc whole (row_linkctl type code)
    (anyEpoch_of_code type code (by decide)) (.inr (epoch ▸ new)), if_pos ⟨reset, epoch⟩]

end

/-- Settles O39: each row by the lemma on its packet at the port. -/
theorem portReceivesComplete : Obligations.PortReceivesComplete := by
  unfold Obligations.PortReceivesComplete
  intro p pkt s d0 type code heard' act carries least most
  have on (n : Nat × Nat) : Receives ((s.die p).patrolAt n) := ⟨carries, least, most⟩
  refine ⟨fun crc => ?_, fun crc reserved => ?_, fun crc whole => ⟨fun epoch => ⟨fun row => ?_,
    fun row contradicts => ?_, fun row up next fits => ?_, fun row up ahead new => ?_, fun row ctl up => ?_, ?_,
    fun row ctl => ?_, fun row ctl retrain => ?_⟩, fun row ctl open_ new => ?_, fun row ctl reset epoch new => ?_⟩⟩
  · exact next_onDie act fun n => dieIdleReceive_badCrc (on n) crc
  · exact next_onDie act fun n => dieDataReceive_malformed (on n) crc reserved
  · exact next_onDie act fun n => dieIdleReceive_heard (on n) crc whole epoch row
  · exact next_onDie act fun n => dieDataReceive_contradicts (on n) crc whole epoch row contradicts
  · exact next_onDie act fun n => dieDataReceive_inOrder (on n) crc whole epoch row up next fits
  · obtain ⟨k, first, last, ahead⟩ := ahead
    exact next_onDie act fun n => dieDataReceive_ahead (on n) crc whole epoch row up first last ahead new
  · exact next_onDie act fun n => dieReplayReq_heard (on n) crc whole epoch row ctl up
  · intro row ctl up m few
    exact next_onDie act fun n => dieLaneFail_heard (on n) crc whole epoch row ctl up few
  · exact next_onDie act fun n => dieLaneAck_heard (on n) crc whole epoch row ctl
  · exact next_onDie act fun n => dieLinkResume_heard (on n) crc whole epoch row ctl retrain
  · exact next_onDie act fun n => dieLinkReset_takes (on n) crc whole row ctl open_ new
  · exact next_onDie act fun n => dieLinkResetAck_takes (on n) crc whole row ctl reset epoch new

/-! ## Transmission (R316, R321 to R323) -/

section
variable {s : State} {p : PDie} {f g : Die → Die}

theorem sendPort_dark (dark : s.darkDie p = true) : s.sendPort p f = s := by rw [State.sendPort, if_pos dark]

theorem next_sendPort (act : (s.die p).run = .active) (lit : s.darkDie p = false)
    (e : ∀ n, f ((s.die p).patrolAt n) = g ((s.die p).patrolAt n)) :
    (Host.Outcome.next (s.sendPort p f) : Host.Outcome State Fault Refusal) = .next (s.ran p g) := by
  rw [State.sendPort, if_neg (by simp [lit])]
  exact next_onDie act e

end

section
variable {d : Die} (carries : wlkCarries d = true)
include carries

theorem dieLinkTransmit_replays {i : Nat} {q : DataPkt} (up : wlkState d = 2) (replay : d.wlk.replay = some i)
    (packet : d.wlk.cullet[i]? = some q) : dieLinkTransmit d = sendData q (modWlk (fun w =>
      { w with replay := if i + 1 < d.wlk.cullet.length then some (i + 1) else none }) d) := by
  rw [dieLinkTransmit, if_neg (by simp [carries]), replay]
  dsimp only
  rw [if_pos (by simp [up]), packet]
  simp only [decide_eq_true_eq]

section
variable (still : d.wlk.replay = none)
include still

theorem dieLinkTransmit_linkctl {b : Bytes} {rest : List Bytes} (least : 2 ≤ wlkState d) (most : wlkState d ≤ 4)
    (waits : d.wlk.ctl = b :: rest) : dieLinkTransmit d =
      let pkt := sealPkt (wlkNextTx d + 2 <<< 26 + hdrNow d) b
      let d' := modWlk (fun w => { w with ctl := rest }) d
      if natAt b 0 1 = 1 then sendEvery pkt d' else sendLine pkt d' := by
  rw [dieLinkTransmit, if_neg (by simp [carries]), still]
  dsimp only
  rw [dieLinkTransmit.ctlOr, waits]
  exact if_pos ⟨least, most⟩

variable (empty : d.wlk.ctl = [])
include empty

theorem dieLinkTransmit_resets (reset : wlkState d = 4) : dieLinkTransmit d =
    sendLine (sealPkt (wlkNextTx d + 2 <<< 26 + hdrNow d) (ctlBody d 0x05 0 0 d.wlk.proposed)) d := by
  rw [dieLinkTransmit, if_neg (by simp [carries]), still]
  dsimp only
  rw [dieLinkTransmit.ctlOr, empty]
  exact if_pos reset

theorem dieLinkTransmit_sends {v : Nat} (up : wlkState d = 2) (room : d.wlk.cullet.length < 2048)
    (turn : ([1, 2, 3, 4].map fun k => (d.wlk.lastVc + k) % 4).find? (vcReady d) = some v) :
    dieLinkTransmit d = sendNew v d := by
  rw [dieLinkTransmit, if_neg (by simp [carries]), still]
  dsimp only
  rw [dieLinkTransmit.ctlOr, empty]
  dsimp only
  rw [if_neg (by simp [up]), if_pos (by simp [up, room]), turn]

end

theorem dieLinkIdleTimer_up (up : wlkState d = 2) : dieLinkIdleTimer d = modWlk (fun w => { w with busy := 0 })
    (((List.range 18).filter fun i => !d.wlk.busy.getLsbD i).foldl
      (fun d' i => sendOn i (sealPkt (wlkNextTx d + 1 <<< 26 + hdrNow d) []) d') d) := by
  rw [dieLinkIdleTimer, if_pos (by simp [wlkUp, carries, up])]

/-- A packet that ends no segment leaves its buffer. -/
theorem dieVcBufferRelease_inside {secure : Bool} {v : Nat} {q : DataPkt} {rest : List DataPkt} {sg : InSeg}
    (room : portRoom v d = true) (oldest : tabGet (fun _ => []) d.wlk.rx v = q :: rest)
    (segment : tabGet (fun _ => none) d.wlk.seg v = some sg) (inside : q.unitsM1 + 1 < sg.left) :
    dieVcBufferRelease secure v d =
      let d' := modWlk (fun w => { w with rx := tabSet (fun _ => []) w.rx v rest }) d
      let d' := (d'.put ⟨0xD0084 + 8 * v, 15, 0⟩ (wlkCounter d v + 1)).put ⟨0xD0084 + 8 * v, 26, 16⟩ (wlkHeld d v - 1)
      modWlk (fun w => { w with seg := tabSet (fun _ => none) w.seg v (some { sg with
        bytes := sg.bytes ++ q.body.take (32 * (q.unitsM1 + 1)), left := sg.left - (q.unitsM1 + 1) }) }) d' := by
  have left : sg.left - (q.unitsM1 + 1) ≠ 0 := by omega
  unfold dieVcBufferRelease
  rw [if_neg (by simp [carries, room]), oldest]
  have counter (f : Wlk → Wlk) : wlkCounter (modWlk f d) v = wlkCounter d v := rfl
  have buffered (f : Wlk → Wlk) : wlkHeld (modWlk f d) v = wlkHeld d v := rfl
  simp only [wlk_put, wlk_modWlk, segment, left, if_false, counter, buffered]

end

/-! ## Timers, lanes and training (R319 to R326) -/

section
variable {d : Die} (carries : wlkCarries d = true)
include carries

theorem wlkUp_of_state (up : wlkState d = 2) : wlkUp d = true := by simp [wlkUp, carries, up]

theorem dieGapTimeout_asks (up : wlkState d = 2) (held : d.wlk.held ≠ []) :
    dieGapTimeout d = askReplay (modWlk (fun w => { w with held := [] }) d) := by
  rw [dieGapTimeout, if_pos (by simp [wlkUp_of_state carries up, held]), gap]

theorem dieReplayTimeout_replays (up : wlkState d = 2) : dieReplayTimeout d = startReplay d := by
  rw [dieReplayTimeout, if_pos (wlkUp_of_state carries up)]

theorem dieLaneLossOfLock_fails (lane : Nat) : dieLaneLossOfLock lane d = failRx (BitVec.ofNat 18 (2 ^ lane)) d := by
  rw [dieLaneLossOfLock, if_pos carries]

theorem dieLaneFailRepeat_repeats (up : wlkState d = 2) (unsettled : d.wlk.unacked ≠ 0) :
    dieLaneFailRepeat d = queueCtl 0x01 (wlkRxFailed d) 0 0 d := by
  rw [dieLaneFailRepeat, if_pos ⟨carries, .inl up, unsettled⟩]

theorem dieLaneWindowEnd_counts (csym ucw : List Nat) : dieLaneWindowEnd csym ucw d =
    let d' := (List.range 18).foldl (fun d i =>
      (d.setReg (0xD0100 + 8 * i) (min (csym.getD i 0) (2 ^ 32 - 1))).count (0xD0104 + 8 * i) (ucw.getD i 0)) d
    failRx (laneMask ((List.range 18).filter fun i =>
      decide (d'.get ⟨0xD0024, 7, 0⟩ ≤ ucw.getD i 0) || decide (d'.get ⟨0xD0024, 31, 8⟩ ≤ csym.getD i 0))) d' := by
  rw [dieLaneWindowEnd, if_neg (by simp [carries])]

theorem dieLinkTrainingDone_trains {tx rx : BitVec 18} {rtt : Nat} (training : wlkState d = 1)
    (goodTx : 8 ≤ laneCount tx) (goodRx : 8 ≤ laneCount rx) : dieLinkTrainingDone tx rx rtt d =
      let d' := (d.put ⟨0xD0000, 5, 5⟩ 0).setReg 0xD0010 (~~~rx).toNat
      startReset (modWlk (fun w => { w with retrains := 0 })
        (setTxLanes (~~~tx) (modWlk (fun w => { w with rtt := rtt, unacked := 0 }) d'))) := by
  unfold dieLinkTrainingDone
  dsimp only
  rw [if_neg (by simp [carries, training]), if_neg (by omega), if_pos training]

theorem dieLinkTrainingFail_counts (training : wlkState d = 1 ∨ wlkState d = 3) : dieLinkTrainingFail d =
    let d' := modWlk (fun w => { w with retrains := d.wlk.retrains + 1, trained := false }) d
    if d.get ⟨0xD0004, 19, 16⟩ ≤ d.wlk.retrains + 1 then enterDown d' else d' := by
  rw [dieLinkTrainingFail, if_pos carries, trainingFailed]
  exact if_neg fun h => training.elim h.1 h.2

theorem dieLinkDownRetry_trains {role : Nat} (down : wlkState d = 5) (configured : role ≠ 0) :
    dieLinkDownRetry role d = setWlkState 1 (modWlk (fun w => { w with retrains := 0 }) d) := by
  rw [dieLinkDownRetry, if_pos ⟨carries, down, configured⟩, beginTraining]

theorem dieRelayFailover_takes (unused : d.flag 0xD0000 7 = false) : dieRelayFailover true d =
    wlkEvent 5 ((d.put ⟨0xD0000, 4, 4⟩ 1).put ⟨0xD0000, 7, 7⟩ 1) := by
  rw [dieRelayFailover, if_neg (by simp [carries]), if_pos (by simp [unused])]

theorem dieRelayFailover_down (on : wlkState d ≠ 0) (up : wlkState d ≠ 5) : dieRelayFailover false d = enterDown d := by
  rw [dieRelayFailover, if_neg (by simp [carries]), if_neg (by simp), if_neg fun h => h.elim on up]

end

/-! ## The two controls (R326, R334) -/

/-- A write of the port's control register leaves every register but its own and that of invalid writes, and the link
layer, before the two controls act. -/
structure CtlWritten (d d' : Die) : Prop where
  reg : ∀ o, o ≠ 0x4 → o ≠ 0xD0004 → d'.reg o = d.reg o
  wlk : d'.wlk = d.wlk
  run : d'.run = d.run

namespace CtlWritten

theorem refl (d : Die) : CtlWritten d d := ⟨fun _ _ _ => rfl, rfl, rfl⟩

theorem put {d d' : Die} (h : CtlWritten d d') {f : Fld} (v : Nat) (own : f.off = 0x4 ∨ f.off = 0xD0004) :
    CtlWritten d (d'.put f v) := by
  refine ⟨fun o invalid ctl => (Die.reg_put_ne _ _ _ _ fun same => ?_).trans (h.reg o invalid ctl), h.wlk, h.run⟩
  exact own.elim (fun at_ => invalid (same.trans at_)) fun at_ => ctl (same.trans at_)

theorem putUnless {d d' : Die} (h : CtlWritten d d') {f : Fld} (v : Nat) (c : Prop) [Decidable c]
    (own : f.off = 0x4 ∨ f.off = 0xD0004) : CtlWritten d (if c then d' else d'.put f v) := by
  split
  · exact h
  · exact h.put v own

theorem invalid (d : Die) : CtlWritten d (d.invalidWrite 0xD0000) := by
  unfold Die.invalidWrite
  split
  · exact refl d
  · exact ((refl d).put 1 (f := ⟨0x4, 0, 0⟩) (.inl rfl)).put _ (.inl rfl)

end CtlWritten

/-- The control register as a write of the management complex leaves it. -/
def ctlStored (v : Nat) (d : Die) : Die :=
  let bad := decide (bitsOf v 7 2 ≠ 0) || decide (bitsOf v 31 20 ≠ 0) ||
    decide (bitsOf v 15 8 = 0) || decide (bitsOf v 19 16 = 0)
  let d := if bad then d.invalidWrite 0xD0000 else d
  let d := if bitsOf v 15 8 = 0 then d else d.put ⟨0xD0004, 15, 8⟩ (bitsOf v 15 8)
  let d := if bitsOf v 19 16 = 0 then d else d.put ⟨0xD0004, 19, 16⟩ (bitsOf v 19 16)
  d.put ⟨0xD0004, 1, 1⟩ (bitsOf v 1 1)

theorem ctlStored_written (v : Nat) (d : Die) : CtlWritten d (ctlStored v d) := by
  have first (c : Prop) [Decidable c] : CtlWritten d (if c then d.invalidWrite 0xD0000 else d) := by
    split
    · exact .invalid d
    · exact .refl d
  exact (((first _).putUnless _ _ (.inr rfl)).putUnless _ _ (.inr rfl)).put _ (.inr rfl)

theorem wlkCtlWrite_stored (v : Nat) (d : Die) : wlkCtlWrite true v d =
    if bitOf v 1 then (setWlkState 0 (dropLink (ctlStored v d))).setReg 0xD000C 0
    else if bitOf v 0 ∧ wlkUp (ctlStored v d) then enterRetrain (ctlStored v d) else ctlStored v d := rfl

theorem wlkUp_ctlStored (v : Nat) (d : Die) : wlkUp (ctlStored v d) = wlkUp d := by
  have h := ctlStored_written v d
  have link := h.reg 0xD0000 (by decide) (by decide)
  rw [wlkUp, wlkUp, wlkCarries, wlkCarries, h.run, Die.flag, Die.flag, wlkState, wlkState, Die.get, Die.get]
  dsimp only
  rw [link]

/-- RETRAIN is entered with the cullet, the buffers and the sequence state kept. -/
theorem enterRetrain_keeps (d : Die) : wlkState (enterRetrain d) = 3 ∧ (enterRetrain d).wlk.cullet = d.wlk.cullet ∧
    (enterRetrain d).wlk.rx = d.wlk.rx ∧ (enterRetrain d).reg 0xD001C = d.reg 0xD001C := by
  have reg (o : Nat) (event : o ≠ 0xD0008) (count : o ≠ 0xD0044) :
      (enterRetrain d).reg o = (setWlkState 3 d).reg o :=
    (Die.reg_setFlag_ne _ 0xD0008 2 o event).trans (Die.reg_count_ne _ 1 count)
  refine ⟨?_, rfl, rfl, ?_⟩
  · rw [wlkState, Die.get_congr ⟨0xD0000, 2, 0⟩ (reg 0xD0000 (by decide) (by decide))]
    exact Die.get_put_same d ⟨0xD0000, 2, 0⟩ 3 (show 2 < 32 by decide)
  · rw [reg 0xD001C (by decide) (by decide)]
    exact Die.reg_put_ne _ _ _ _ (show 0xD001C ≠ 0xD0000 by decide)

theorem dieRetrainReq_retrains {d : Die} (up : wlkUp d = true) (enabled : d.flag 0xD0004 1 = false) :
    wlkState (dieRetrainReq true d) = 3 ∧ (dieRetrainReq true d).wlk.cullet = d.wlk.cullet ∧
      (dieRetrainReq true d).wlk.rx = d.wlk.rx ∧ wlkNextTx (dieRetrainReq true d) = wlkNextTx d ∧
      wlkNextRx (dieRetrainReq true d) = wlkNextRx d := by
  have disable : bitOf (putBits (d.reg 0xD0004) 0 0 1) 1 = false := by
    rw [bitOf, bitsOf_putBit0 _ _ (by decide)]
    exact enabled
  have request : bitOf (putBits (d.reg 0xD0004) 0 0 1) 0 = true := bitOf_putBit0 _ 1
  have entered : dieRetrainReq true d = enterRetrain (ctlStored (putBits (d.reg 0xD0004) 0 0 1) d) := by
    rw [dieRetrainReq, wlkCtlWrite_stored, disable, if_neg Bool.false_ne_true,
      if_pos ⟨request, (wlkUp_ctlStored _ d).trans up⟩]
  have stored := ctlStored_written (putBits (d.reg 0xD0004) 0 0 1) d
  obtain ⟨state, cullet, rx, seq⟩ := enterRetrain_keeps (ctlStored (putBits (d.reg 0xD0004) 0 0 1) d)
  have seq' := seq.trans (stored.reg 0xD001C (by decide) (by decide))
  rw [entered]
  exact ⟨state, by rw [cullet, stored.wlk], by rw [rx, stored.wlk], Die.get_congr ⟨0xD001C, 11, 0⟩ seq',
    Die.get_congr ⟨0xD001C, 23, 12⟩ seq'⟩

theorem diePortDisable_off (d : Die) : wlkState (diePortDisable true d) = 0 ∧ (diePortDisable true d).wlk.cullet = [] ∧
    (diePortDisable true d).wlk.rx = [] ∧ (diePortDisable true d).wlk.tx = [] ∧
    (diePortDisable true d).reg 0xD000C = 0 := by
  have disable : bitOf (putBits (d.reg 0xD0004) 1 1 1) 1 = true := by
    rw [bitOf, bitsOf_putBits]
    rfl
  have off : diePortDisable true d =
      (setWlkState 0 (dropLink (ctlStored (putBits (d.reg 0xD0004) 1 1 1) d))).setReg 0xD000C 0 := by
    rw [diePortDisable, wlkCtlWrite_stored, if_pos disable]
  rw [off]
  refine ⟨?_, rfl, rfl, rfl, ?_⟩
  · have apart (d : Die) : (d.setReg 0xD000C 0).reg 0xD0000 = d.reg 0xD0000 := by
      rw [Die.reg_setReg, if_neg (by decide)]
    rw [wlkState, Die.get_congr ⟨0xD0000, 2, 0⟩ (apart _)]
    exact Die.get_put_same _ ⟨0xD0000, 2, 0⟩ 0 (show 2 < 32 by decide)
  · rw [Die.reg_setReg, if_pos rfl, Nat.zero_mod]

/-- Settles O40: each event by the lemma on it at the port. -/
theorem portEventsComplete : Obligations.PortEventsComplete := by
  unfold Obligations.PortEventsComplete
  intro p s d0 act carries
  refine ⟨fun dark => ?_, fun lit => ⟨fun i q up replay packet => ?_, fun b rest least most still waits => ?_,
    fun reset still empty => ?_, fun v up still empty room turn => ?_, fun up => ?_⟩,
    fun v q rest sg room oldest segment inside => ?_, fun up => ⟨fun held => ?_, ?_, fun lane => ?_,
      fun unsettled => ?_, fun enabled => ?_⟩, fun csym ucw => ?_, fun tx rx rtt training goodTx goodRx => ?_,
    fun training => ?_, fun down configured => ?_, ?_, fun w other => ?_, fun unused => ?_, fun on up => ?_⟩
  · exact ⟨congrArg Host.Outcome.next (sendPort_dark dark), congrArg Host.Outcome.next (sendPort_dark dark)⟩
  · exact next_sendPort act lit fun n =>
      dieLinkTransmit_replays (d := (s.die p).patrolAt n) carries up replay packet
  · exact next_sendPort act lit fun n =>
      dieLinkTransmit_linkctl (d := (s.die p).patrolAt n) carries still least most waits
  · exact next_sendPort act lit fun n => dieLinkTransmit_resets (d := (s.die p).patrolAt n) carries still empty reset
  · exact next_sendPort act lit fun n =>
      dieLinkTransmit_sends (d := (s.die p).patrolAt n) carries still empty up room turn
  · exact next_sendPort act lit fun n => dieLinkIdleTimer_up (d := (s.die p).patrolAt n) carries up
  · exact next_onDie act fun n =>
      dieVcBufferRelease_inside (d := (s.die p).patrolAt n) carries room oldest segment inside
  · exact next_onDie act fun n => dieGapTimeout_asks (d := (s.die p).patrolAt n) carries up held
  · exact next_onDie act fun n => dieReplayTimeout_replays (d := (s.die p).patrolAt n) carries up
  · exact next_onDie act fun n => dieLaneLossOfLock_fails (d := (s.die p).patrolAt n) carries lane
  · exact next_onDie act fun n => dieLaneFailRepeat_repeats (d := (s.die p).patrolAt n) carries up unsettled
  · exact ⟨dieRetrainReq true, next_onDie act fun n => rfl, fun d => dieRetrainReq_retrains⟩
  · exact next_onDie act fun n => dieLaneWindowEnd_counts (d := (s.die p).patrolAt n) carries csym ucw
  · exact next_onDie act fun n =>
      dieLinkTrainingDone_trains (d := (s.die p).patrolAt n) carries training goodTx goodRx
  · exact next_onDie act fun n => dieLinkTrainingFail_counts (d := (s.die p).patrolAt n) carries training
  · exact next_onDie act fun n => dieLinkDownRetry_trains (d := (s.die p).patrolAt n) carries down configured
  · exact ⟨diePortDisable true, next_onDie act fun n => rfl, diePortDisable_off⟩
  · have ignored : decide (w = .mgmt) = false := decide_eq_false other
    refine ⟨next_onDie act fun n => ?_, next_onDie act fun n => ?_⟩
    · rw [ignored, diePortDisable, wlkCtlWrite, Bool.not_false, if_pos rfl]
    · rw [ignored, dieRetrainReq, wlkCtlWrite, Bool.not_false, if_pos rfl]
  · exact next_onDie act fun n => dieRelayFailover_takes (d := (s.die p).patrolAt n) carries unused
  · exact next_onDie act fun n => dieRelayFailover_down (d := (s.die p).patrolAt n) carries on up

end Sys2Proof.Machine
end

section
/-! PROOFS. Laser bays and the light of the engines (O42). -/

namespace Sys2Proof.Machine

/-! ## Fields of the Punty registers -/

/-- A write of a field leaves the other registers and the other fields of its own. -/
theorem State.get_put_apart (s : State) (v : Nat) {f g : Fld} (order : f.lo ≤ f.hi) (word : g.hi < 32)
    (apart : g.off ≠ f.off ∨ g.hi < f.lo ∨ f.hi < g.lo) : (s.put f v).get g = s.get g := by
  rw [State.get, State.get]
  by_cases off : g.off = f.off
  · rw [off, State.put, State.reg_setReg, if_pos rfl, bitsOf_mod_two_pow _ _ word]
    exact bitsOf_putBits_apart _ v order (apart.resolve_left (not_not.mpr off))
  · rw [State.reg_put_ne _ _ _ off]

theorem bit_of_flag (b : Bool) : (bit b % 2 ^ 1 == 1) = b := by cases b <;> rfl

theorem State.flag_put_bit (s : State) (o : Nat) {i : Nat} (b : Bool) (word : i < 32) :
    (s.put ⟨o, i, i⟩ (bit b)).flag o i = b := by
  have got := State.get_put_same s ⟨o, i, i⟩ (bit b) word
  have width : i + 1 - i = 1 := by omega
  dsimp only at got
  rw [width] at got
  change ((s.put ⟨o, i, i⟩ (bit b)).get ⟨o, i, i⟩ == 1) = b
  rw [got]
  exact bit_of_flag b

theorem State.flag_put_apart (s : State) (o v : Nat) {i k : Nat} (word : k < 32) (apart : k ≠ i) :
    (s.put ⟨o, i, i⟩ v).flag o k = s.flag o k :=
  congrArg (· == 1) (State.get_put_apart s v (f := ⟨o, i, i⟩) (g := ⟨o, k, k⟩) (Nat.le_refl i) word
    (.inr (Nat.lt_or_gt_of_ne apart)))

/-! ## The interlock (R339) -/

section
variable (k : Nat) (s : State)

theorem gateBay_lit : (gateBay k s).bayLit k = ((s.bay k).enable && s.flag (bayReg k) 3 && !(s.bay k).fault) := by
  rw [State.bayLit, gateBay]
  exact (State.flag_put_apart _ _ _ (by decide) (by decide)).trans (State.flag_put_bit _ _ _ (by decide))

theorem gateBay_locked : (gateBay k s).flag (bayReg k) 5 =
    (((s.bay k).enable && s.flag (bayReg k) 3 && !(s.bay k).fault) && s.flag (bayReg k) 5) := by
  rw [gateBay]
  exact State.flag_put_bit _ _ _ (by decide)

theorem gateBay_reg {o : Nat} (ne : o ≠ bayReg k) : (gateBay k s).reg o = s.reg o := by
  rw [gateBay]
  exact (State.reg_put_ne _ _ _ ne).trans (State.reg_put_ne _ _ _ ne)

end

/-! ## Insertion (R345) -/

theorem image_setBayState (k v : Nat) (s : State) : (setBayState k v s).image = s.image := by
  unfold setBayState
  split <;> rfl

theorem bays_setBayState (k v : Nat) (s : State) : (setBayState k v s).bays = s.bays := by
  unfold setBayState
  split <;> rfl

theorem bay_setBay (k : Nat) (b : Bay) (s : State) : (s.setBay k b).bay k = b := by
  rw [State.bay, State.setBay, tabGet_tabSet, if_pos rfl]

section
variable {k : Nat} {t : State}

theorem judgeBay_refuses {st : Status}
    (refused : moduleChk t.image (t.bay k).accepted (t.bayUsed k) (t.bay k).view = some st) :
    judgeBay k t = if t.bayWaits k then setBayCause k st t else setBayState k 2 (setBayCause k st t) := by
  unfold judgeBay
  dsimp only
  rw [refused]

variable (passes : moduleChk t.image (t.bay k).accepted (t.bayUsed k) (t.bay k).view = none)
include passes

theorem judgeBay_waits (early : t.bayChecks = false) : judgeBay k t = t := by
  unfold judgeBay
  dsimp only
  rw [passes]
  exact if_pos (by simp [early])

theorem judgeBay_lights (links : t.bayChecks = true) : judgeBay k t =
    let b := t.bay k
    let u := (t.setReg (bayReg k + 4) (t.bayUsed k)).setBay k
      (if b.owner = some (moduleName b.view.eeprom) then b
       else { b with frac := 0, lit := 0, full := 0, writeFails := 0, owner := some (moduleName b.view.eeprom) })
    setpoint k 800 (setBayState k 3 (enableBay k true (lifeFlags k u))) := by
  unfold judgeBay
  dsimp only
  rw [passes]
  dsimp only
  rw [if_neg (by simp [links])]
  simp only [decide_not, Bool.not_eq_true', decide_eq_false_iff_not, ite_not]
  rfl

end

/-- The block once a module is seated in a bay. -/
def seatModule (k : Nat) (v : ModuleView) (s : State) : State :=
  let seated := setBayBit k 3 true (s.setBay k { s.bay k with view := v, fault := v.fault })
  if seated.bayWaits k then seated else setBayState k 1 seated

theorem bay_seatModule (k : Nat) (v : ModuleView) (s : State) :
    (seatModule k v s).bay k = { s.bay k with view := v, fault := v.fault } := by
  have seated : (seatModule k v s).bays = (s.setBay k { s.bay k with view := v, fault := v.fault }).bays := by
    unfold seatModule
    dsimp only
    split
    · rfl
    · exact bays_setBayState ..
  rw [State.bay, seated]
  exact bay_setBay ..

theorem image_seatModule (k : Nat) (v : ModuleView) (s : State) : (seatModule k v s).image = s.image := by
  unfold seatModule
  dsimp only
  split
  · rfl
  · exact image_setBayState ..

theorem moduleInsert_judges {k : Nat} (v : ModuleView) {s : State} (on : s.pins.vddAon = true)
    (empty : s.flag (bayReg k) 3 = false) : moduleInsert k v s = judgeBay k (seatModule k v s) := by
  rw [moduleInsert, if_pos (by simp [on, empty]), checkBay]
  rfl

/-! ## Lock, loss and release (R349, R350) -/

section
variable {k : Nat} {s : State}

theorem moduleLock_locks (warming : s.bayState k = 3) (lit : s.bayLit k = true) : moduleLock k s =
    let t := (bayNeighbours k).foldl lowerBay (setBayState k 4 (setBayBit k 5 true s))
    if (bayNeighbours k).any (fun i => t.bayDark i) then raiseBay t k else t := by
  rw [moduleLock, if_pos ⟨warming, lit⟩]

/-- What the loss of a lit module leaves. -/
def bayLost (k : Nat) (t : State) : State :=
  let r := (wantPower k 0 (enableBay k false t)).draw
  engineFeeds ((k + 1) % 8) (engineFeeds k (raiseNeighbours k
    (setBayState k 6 (r.2.put ⟨bayReg k, 23, 16⟩ (r.1.toNat % 16)))))

theorem moduleLoss_rise (seated : s.flag (bayReg k) 3 = true) (lit : s.bayState k = 3 ∨ s.bayState k = 4) :
    moduleLoss k .prsntRise s = bayLost k (moduleLeaves k s) := by
  unfold moduleLoss
  refine (if_neg (by simp [seated])).trans ?_
  obtain state | state := lit
  · simp only [state, bayLost]
  · simp only [state, bayLost]

theorem moduleLoss_fault (seated : s.flag (bayReg k) 3 = true) (lit : s.bayState k = 3 ∨ s.bayState k = 4) :
    moduleLoss k .faultFall s = bayLost k (gateBay k (s.setBay k { s.bay k with fault := true })) := by
  unfold moduleLoss
  refine (if_neg (by simp [seated])).trans ?_
  obtain state | state := lit
  · simp only [state, bayLost]
  · simp only [state, bayLost]

theorem releaseBay_state (ok : Bool) : (releaseBay k ok s).2 = if releaseRefused k s then s else
    setBayState k 5 (enableBay k false (setpoint k 0 (endUsage k ok (raiseNeighbours k s)))) := by
  unfold releaseBay
  split <;> rfl

/-- `RELEASE` of `ELS_CTL`. -/
theorem elsCtlWrite_release (ok : Bool) (small : k < 8) :
    elsCtlWrite true ok (k + 8) s = (askRelease k ok s).2 := by
  have high : (k + 8) / 16 = 0 := by omega
  have request : bitOf (k + 8) 3 = true := by
    have bits : bitsOf (k + 8) 3 3 = 1 := by
      rw [bitsOf, Nat.shiftRight_eq_div_pow]
      omega
    rw [bitOf, bits]
    rfl
  have bay : (k + 8) % 8 = k := by omega
  rw [elsCtlWrite, if_neg (by simp)]
  dsimp only
  rw [if_neg (not_not.mpr high), if_pos request, bay]

/-! ## Usage (R344, R347) -/

/-- The flags of a bay's use stand in its own status register and in the events. -/
theorem reg_lifeFlags {o : Nat} (status : o ≠ bayReg k) (event : o ≠ 0x20104) : (lifeFlags k s).reg o = s.reg o := by
  unfold lifeFlags
  dsimp only
  split
  · rfl
  · exact (State.reg_put_ne _ _ _ event).trans ((State.reg_put_ne _ _ _ status).trans (State.reg_put_ne _ _ _ status))

/-- A reading of one module's use leaves the light of every other bay. -/
theorem bayLit_usageRead {i : Nat} (r : BitVec 16 × BitVec 8) (small : i < 8) (ne : i ≠ k) :
    (usageRead k r s).bayLit i = s.bayLit i := by
  have same : (usageRead k r s).reg (bayReg i) = s.reg (bayReg i) := by
    unfold bayReg
    rw [usageRead, reg_lifeFlags (by unfold bayReg; omega) (by omega), State.reg_setReg,
      if_neg (by unfold bayReg; omega), State.count, State.reg_setReg, if_neg (by unfold bayReg; omega)]
    rfl
  rw [State.bayLit, State.bayLit, State.flag, State.flag, same]

/-- With one lit bay, a poll reads that one module. -/
theorem elsUsagePoll_one {rs : List (BitVec 16 × BitVec 8)} {r : BitVec 16 × BitVec 8} (small : k < 8)
    (reading : rs[k]? = some r) (all : ∀ i, i < 8 → ∃ r, rs[i]? = some r)
    (dark : ∀ i, i < 8 → i ≠ k → s.bayLit i = false) (lit : s.bayLit k = true) :
    elsUsagePoll rs s = usageRead k r s := by
  have upTo (n : Nat) (most : n ≤ 8) : (List.range n).foldl (fun s k => match rs[k]? with
      | some r => if s.bayLit k then usageRead k r s else s
      | none => s) s = if k < n then usageRead k r s else s := by
    induction n with
    | zero => rfl
    | succ n ih =>
      rw [List.range_succ, List.foldl_append, ih (by omega), List.foldl_cons, List.foldl_nil]
      obtain ⟨r', reading'⟩ := all n (by omega)
      rw [reading']
      dsimp only
      by_cases own : n = k
      · subst own
        obtain rfl := Option.some.inj (reading'.symm.trans reading)
        rw [if_neg (Nat.lt_irrefl n), if_pos lit, if_pos (Nat.lt_succ_self n)]
      · by_cases past : k < n
        · rw [if_pos past, bayLit_usageRead r (by omega) own, dark n (by omega) own, if_neg Bool.false_ne_true,
            if_pos (by omega)]
        · rw [if_neg past, dark n (by omega) own, if_neg Bool.false_ne_true, if_neg (by omega)]
  exact (upTo 8 (Nat.le_refl 8)).trans (if_pos small)

theorem elsUsageWrite_lit (ok : Bool) (lit : s.bayLit k = true) : elsUsageWrite k ok s =
    if ok ∨ 2 ≤ (s.bay k).writeFails then endUsage k ok s
    else s.setBay k { s.bay k with writeFails := (s.bay k).writeFails + 1 } := by
  rw [elsUsageWrite, if_pos lit]

end

/-! ## Commands that need VDD_AON -/

theorem next_powered_on {s : State} (f : State → State) (on : s.pins.vddAon = true) :
    (Host.Outcome.next (s.powered f) : Host.Outcome State Fault Refusal) = .next (f s) := by
  rw [State.powered, if_pos on]

/-- Settles O42: a module's checks by `judgeBay`, and each other row by the lemma on its command. -/
theorem laserCommandsComplete : Obligations.LaserCommandsComplete := by
  unfold Obligations.LaserCommandsComplete
  intro k s on n
  have small : n < 8 := k.isLt
  refine ⟨fun v empty => ?_, fun warming lit => ?_, fun seated lit => ⟨?_, ?_⟩, fun rs length dark lit => ?_,
    fun lit => ⟨?_, fun few => ?_, fun third => ?_⟩, fun ok => ⟨fun refused => ?_, fun allowed => ?_⟩,
    fun w ok other => ?_, fun lit => ?_, fun lit dark fed => ?_, fun fed => ?_, ?_, ?_, ?_, rfl⟩
  · intro seated t
    have inserted : exec (.moduleInsert k v) s = .next (judgeBay n t) :=
      congrArg Host.Outcome.next (moduleInsert_judges v on empty)
    have bay : t.bay n = { s.bay n with view := v, fault := v.fault } := bay_seatModule n v s
    have image : t.image = s.image := image_seatModule n v s
    have checked : moduleChk t.image (t.bay n).accepted (t.bayUsed n) (t.bay n).view =
        moduleChk s.image (s.bay n).accepted (t.bayUsed n) v := by rw [bay, image]
    refine ⟨fun st refused => ?_, fun passes => ⟨fun early => ?_, fun links => ?_⟩⟩
    · rw [inserted, judgeBay_refuses (checked.trans refused)]
    · rw [inserted, judgeBay_waits (checked.trans passes) early]
    · rw [inserted, judgeBay_lights (checked.trans passes) links]
      have view : (t.bay n).view = v := by rw [bay]
      dsimp only
      rw [view]
  · exact (next_powered_on _ on).trans (congrArg Host.Outcome.next (moduleLock_locks warming lit))
  · exact (next_powered_on _ on).trans (congrArg Host.Outcome.next (moduleLoss_rise seated lit))
  · exact (next_powered_on _ on).trans (congrArg Host.Outcome.next (moduleLoss_fault seated lit))
  · have all (i : Nat) (listed : i < 8) : ∃ r, rs[i]? = some r := ⟨rs[i], List.getElem?_eq_getElem (by omega)⟩
    obtain ⟨r, reading⟩ := all n small
    exact ⟨r, reading, (next_powered_on _ on).trans
      (congrArg Host.Outcome.next (elsUsagePoll_one small reading all dark lit))⟩
  · refine (next_powered_on _ on).trans (congrArg Host.Outcome.next ((elsUsageWrite_lit true lit).trans ?_))
    rw [if_pos (.inl rfl), endUsage, if_pos rfl]
  · refine (next_powered_on _ on).trans (congrArg Host.Outcome.next ((elsUsageWrite_lit false lit).trans ?_))
    exact if_neg fun h => h.elim nofun (Nat.not_le.mpr few)
  · refine (next_powered_on _ on).trans (congrArg Host.Outcome.next ((elsUsageWrite_lit false lit).trans ?_))
    rw [if_pos (.inr (Nat.le_of_eq third.symm)), endUsage, if_neg Bool.false_ne_true]
  · refine congrArg Host.Outcome.next ((elsCtlWrite_release ok small).trans ?_)
    rw [askRelease, releaseBay_state, if_pos refused]
  · refine congrArg Host.Outcome.next ((elsCtlWrite_release ok small).trans ?_)
    rw [askRelease, releaseBay_state, if_neg (by simp [allowed])]
  · refine congrArg Host.Outcome.next ?_
    rw [elsCtlWrite, if_pos (by simp [other])]
  · refine (next_powered_on _ on).trans (congrArg Host.Outcome.next ?_)
    rw [engineLightLoss, if_pos lit]
  · refine (next_powered_on _ on).trans (congrArg Host.Outcome.next ?_)
    exact if_pos (by rw [Bool.and_eq_true, Bool.and_eq_true]; exact ⟨⟨lit, dark⟩, fed⟩)
  · refine (next_powered_on _ on).trans (congrArg Host.Outcome.next ?_)
    rw [receivedLightReturn, if_pos fed]
  · rw [gateBay_lit]
    simp [and_assoc]
  · rw [gateBay_locked, gateBay_lit, Bool.and_eq_true]
    exact And.left
  · exact fun i _ other => gateBay_reg n s (by unfold bayReg; omega)

end Sys2Proof.Machine
end

section
/-! PROOFS. The host interface: the end of a command and its completion entry (O43), doorbells, fetches and the host
commands (O44). -/

namespace Sys2Proof.Machine

/-! ## Functions -/

theorem fn_modFn (s : State) (f g : Nat) (k : Fn → Fn) : (s.modFn f k).fn g = if g = f then k (s.fn f) else s.fn g :=
  fn_setFn ..

theorem fn_modFn_self (s : State) (f : Nat) (k : Fn → Fn) : (s.modFn f k).fn f = k (s.fn f) := by
  rw [fn_modFn, if_pos rfl]

theorem hostWrite_some {bs : Bytes} (f : FnId) (addr : Nat) (bulk : Bool) (s : State) (some_ : bs.length ≠ 0) :
    hostWrite f addr bs bulk s = s.output (.hostWrite f addr bs bulk) := by
  rw [hostWrite, if_neg some_]

theorem outputs_hostWrite (f : FnId) (addr : Nat) (bs : Bytes) (bulk : Bool) (s : State) :
    (hostWrite f addr bs bulk s).outputs = s.outputs ++ if bs = [] then [] else [.hostWrite f addr bs bulk] := by
  unfold hostWrite
  by_cases empty : bs = []
  · simp [empty]
  · rw [if_neg (by simpa using empty), if_neg empty]
    rfl

/-- A posted write is an output, and changes nothing else. -/
theorem hostWrite_eq (f : FnId) (addr : Nat) (bs : Bytes) (bulk : Bool) (s : State) :
    hostWrite f addr bs bulk s = { s with outputs := (hostWrite f addr bs bulk s).outputs } := by
  unfold hostWrite
  split <;> rfl

/-! ## The end of a command (R368, R371) -/

/-- The completion of a command without a result slot. -/
def plainFinished (c : Cmd) (st : Status) (bs : Bytes) (extra : BitVec 64) (s : State) : Finished :=
  ⟨c.cookie, c.opcode, st, c.irq, bs.length, extra,
    if bs.length ≠ 0 ∧ s.current c = false then .bytes bs else .none, c.attach, false, none⟩

theorem finish_boot {c : Cmd} (boot : c.boot = true) (st : Status) (bs : Bytes) (extra : BitVec 64) (s : State) :
    finish c st bs extra s = bootAnswer st { s with cmds := s.cmds.filter (fun x => decide (x.id ≠ c.id)) } := by
  rw [finish, if_pos boot]

theorem current_hostWrite (c : Cmd) (f : FnId) (addr : Nat) (bs : Bytes) (bulk : Bool) (s : State) :
    (hostWrite f addr bs bulk s).current c = s.current c := by
  rw [hostWrite_eq]
  rfl

theorem finish_plain {c : Cmd} (slot : c.slot = none) (host : c.boot = false) (st : Status) (bs : Bytes)
    (extra : BitVec 64) (s : State) :
    finish c st bs extra s = complete c.fn c.queue.toNat (plainFinished c st bs extra s)
      (if s.current c = true then
        hostWrite c.fn c.result bs true { s with cmds := s.cmds.filter (fun x => decide (x.id ≠ c.id)) }
      else { s with cmds := s.cmds.filter (fun x => decide (x.id ≠ c.id)) }) := by
  have serves (s : State) (n : Nat) : s.slotServes c n = true := by rw [State.slotServes, slot]
  have filled (s : State) : fillSlot c st bs s = s := by rw [fillSlot, slot]
  have emptied (s : State) : emptySlot c s = s := by rw [emptySlot, slot]
  have current (s : State) (l : List Cmd) : State.current { s with cmds := l } c = s.current c := rfl
  rw [finish]
  dsimp only
  rw [if_neg (by simp [host]), if_pos (serves _ _), conclude, filled, emptied, ite_self, current, plainFinished]
  by_cases here : s.current c = true
  · rw [if_pos here]
    by_cases empty : bs.length = 0
    · simp [slot, empty, here, current, hostWrite]
    · simp [slot, empty, here, current, current_hostWrite]
  · rw [if_neg here]
    by_cases empty : bs.length = 0
    · simp [slot, empty, here, current]
    · simp [slot, empty, here, current]

/-! ## The completion entry (R369) -/

theorem natAt_append_left (xs ys : Bytes) {o n : Nat} (inside : o + n ≤ xs.length) :
    natAt (xs ++ ys) o n = natAt xs o n := by rw [natAt, natAt, sliceB_append_left _ _ _ _ inside]

/-- The field that ends a run of bytes. -/
theorem natAt_append_last {xs : Bytes} {o : Nat} (n v : Nat) (first : xs.length = o) :
    natAt (xs ++ leBytes n v) o n = v % 256 ^ n := by
  subst first
  exact natAt_append_leBytes xs n v

/-- Bytes 4 to 31 of a completion entry. -/
def cplTail (q : Nat) (x : Finished) : Bytes :=
  leBytes 2 x.opcode ++ leBytes 1 x.status.code ++ leBytes 1 q ++ leBytes 8 x.cookie.toNat ++
    leBytes 4 x.bytes ++ leBytes 4 (bit x.redelivered) ++ leBytes 8 x.extra.toNat

section
variable (q : Nat) (x : Finished)

theorem length_cplTail : (cplTail q x).length = 28 := by simp [cplTail]

theorem cplTail_opcode : natAt (cplTail q x) 0 2 = x.opcode % 65536 := by
  rw [cplTail, natAt_append_left, natAt_append_left, natAt_append_left, natAt_append_left, natAt_append_left,
    natAt_append_left, ← List.nil_append (leBytes 2 x.opcode), natAt_append_last]
  all_goals simp

theorem cplTail_status : natAt (cplTail q x) 2 1 = x.status.code := by
  rw [cplTail, natAt_append_left, natAt_append_left, natAt_append_left, natAt_append_left,
    natAt_append_left, natAt_append_last]
  · exact Nat.mod_eq_of_lt (Nat.lt_trans x.status.code_lt (by decide))
  all_goals simp

theorem cplTail_queue (small : q < 4) : natAt (cplTail q x) 3 1 = q := by
  rw [cplTail, natAt_append_left, natAt_append_left, natAt_append_left, natAt_append_left, natAt_append_last]
  · exact Nat.mod_eq_of_lt (Nat.lt_trans small (by decide))
  all_goals simp

theorem cplTail_cookie : natAt (cplTail q x) 4 8 = x.cookie.toNat := by
  rw [cplTail, natAt_append_left, natAt_append_left, natAt_append_left, natAt_append_last]
  · exact Nat.mod_eq_of_lt x.cookie.isLt
  all_goals simp

theorem cplTail_bytes : natAt (cplTail q x) 12 4 = x.bytes % 2 ^ 32 := by
  rw [cplTail, natAt_append_left, natAt_append_left, natAt_append_last]
  · rfl
  all_goals simp

theorem cplTail_extra : natAt (cplTail q x) 20 8 = x.extra.toNat := by
  rw [cplTail, natAt_append_last]
  · exact Nat.mod_eq_of_lt x.extra.isLt
  all_goals simp

end

section
variable (f : FnId) (q : Nat) (x : Finished) (s : State)

/-- The sequence number of a queue's next completion. -/
def cplSeq : Nat := ((s.fn f).devIdx (4 + q) + 1) % 2 ^ 32

/-- Where a queue's next completion entry stands. -/
def cplAddr : Nat := ((s.fn f).ring (4 + q)).base + (s.fn f).devIdx (4 + q) % (s.fn f).ringSize (4 + q) * 32

/-- The entry's two posted writes, and the record that it frees. -/
def cplPosted : State :=
  let t := (hostWrite f (cplAddr f q s) (leBytes 4 (cplSeq f q s)) false
    (hostWrite f (cplAddr f q s + 4) (cplTail q x) false s)).modFn f
      fun y => y.setReg (ringOff (4 + q) + 4) (cplSeq f q s)
  match x.record with
  | some id => freeRecord f id t
  | none => t

theorem writeCpl_eq : writeCpl f q x s = match ((s.fn f).ring (4 + q)).vector with
    | some v => if x.irq then (cplPosted f q x s).output (.msix f v) else cplPosted f q x s
    | none => cplPosted f q x s := by
  rw [writeCpl] <;> rfl

theorem outputs_freeRecord (id : Nat) : (freeRecord f id s).outputs = s.outputs := rfl

theorem outputs_cplPosted : (cplPosted f q x s).outputs = s.outputs ++
    [.hostWrite f (cplAddr f q s + 4) (cplTail q x) false,
      .hostWrite f (cplAddr f q s) (leBytes 4 (cplSeq f q s)) false] := by
  have entry : cplTail q x ≠ [] := fun empty => by
    have length := length_cplTail q x
    rw [empty] at length
    cases length
  have index : leBytes 4 (cplSeq f q s) ≠ [] := nofun
  have posted (t : State) : (t.modFn f fun y => y.setReg (ringOff (4 + q) + 4) (cplSeq f q s)).outputs = t.outputs := rfl
  rw [cplPosted]
  split
  · rw [outputs_freeRecord, posted, outputs_hostWrite, outputs_hostWrite, if_neg entry, if_neg index, List.append_assoc]
    rfl
  · rw [posted, outputs_hostWrite, outputs_hostWrite, if_neg entry, if_neg index, List.append_assoc]
    rfl

theorem devIdx_freeRecord (id : Nat) {r : Nat} (small : r < 8) :
    ((freeRecord f id s).fn f).devIdx r = (s.fn f).devIdx r := by
  rw [freeRecord, fn_modFn_self, Fn.devIdx, Fn.reg_setReg, if_neg (by unfold ringOff; omega)]
  rfl

theorem devIdx_cplPosted (small : q < 4) : ((cplPosted f q x s).fn f).devIdx (4 + q) = cplSeq f q s := by
  have stored (t : State) : ((t.modFn f fun y => y.setReg (ringOff (4 + q) + 4) (cplSeq f q s)).fn f).devIdx (4 + q) =
      cplSeq f q s := by
    rw [fn_modFn_self, Fn.devIdx, Fn.reg_setReg, if_pos rfl, cplSeq, Nat.mod_mod]
  rw [cplPosted]
  split
  · rw [devIdx_freeRecord _ _ _ (by omega), stored]
  · exact stored _

end

/-- Settles O43: the end of a command by `finish_plain`, the entry by `cplTail` and `cplPosted`. -/
theorem commandCompletes : Obligations.CommandCompletes := by
  unfold Obligations.CommandCompletes
  refine ⟨fun c st bs extra s slot => ?_, fun f q x s small => ?_⟩
  · intro t
    by_cases boot : c.boot = true
    · have ended : t = bootAnswer st { s with cmds := s.cmds.filter (fun x => decide (x.id ≠ c.id)) } :=
        finish_boot boot st bs extra s
      have absent (h : c.boot = false) : False := Bool.false_ne_true (h.symm.trans boot)
      rw [ended]
      refine ⟨rfl, rfl, rfl, rfl, fun _ => ⟨?_, rfl, rfl⟩, fun h => (absent h).elim, fun h => (absent h).elim,
        fun h => (absent h).elim⟩
      rw [bootAnswer, State.reg_setReg, if_pos rfl]
      exact Nat.mod_eq_of_lt (Nat.lt_trans st.code_lt (by decide))
    · have host : c.boot = false := by simpa using boot
      have ended : t = _ := finish_plain slot host st bs extra s
      by_cases here : s.current c = true
      · rw [if_pos here] at ended
        rw [hostWrite_eq] at ended
        rw [ended]
        refine ⟨rfl, rfl, rfl, rfl, fun h => absurd h boot, fun _ => rfl, fun _ _ => ⟨?_, ?_⟩, fun _ h => ?_⟩
        · exact outputs_hostWrite ..
        · rw [complete, fn_modFn_self, tabGet_tabSet, if_pos rfl, plainFinished, if_neg (by simp [here])]
          rfl
        · exact absurd (h.symm.trans here) Bool.false_ne_true
      · have gone : s.current c = false := by simpa using here
        rw [if_neg here] at ended
        rw [ended]
        exact ⟨rfl, rfl, rfl, rfl, fun h => absurd h boot, fun _ => rfl, fun _ h => absurd h here, fun _ _ => rfl⟩
  · intro y at_ seq t
    have entry : t = _ := writeCpl_eq f q x s
    have fns : (t.fn f).devIdx (4 + q) = seq := by
      have posted := devIdx_cplPosted f q x s small
      rw [entry]
      split
      · split
        · exact posted
        · exact posted
      · exact posted
    refine ⟨fns, cplTail q x, length_cplTail q x, cplTail_opcode q x, cplTail_status q x, cplTail_queue q x small,
      cplTail_cookie q x, cplTail_bytes q x, cplTail_extra q x, ?_⟩
    have posted := outputs_cplPosted f q x s
    rw [entry]
    cases ((s.fn f).ring (4 + q)).vector with
    | none => exact posted.trans (List.append_nil _).symm
    | some v =>
      dsimp only
      split
      · exact congrArg (· ++ [Output.msix f v]) posted
      · exact posted.trans (List.append_nil _).symm

/-! ## Doorbells, fetches and completions (R364 to R369) -/

section
variable {s : State} (on : s.hostOpen = true)
include on

theorem doorbell_breaks {f r idx : Nat} (bad : (s.fn f).ringState r = 1 ∧ doorbellBad (s.fn f) r idx = true) :
    doorbell f r idx s = s.modFn f fun x => x.ringError r .malformed := by
  rw [doorbell, if_neg (by simp [on]), State.modFn, if_pos (by simp [bad.1, bad.2])]
  rfl

theorem doorbell_moves {f r idx : Nat} (fine : (s.fn f).ringState r ≠ 1 ∨ doorbellBad (s.fn f) r idx = false) :
    doorbell f r idx s = s.modFn f fun x => x.setReg (ringOff r) idx := by
  have keeps : ¬(decide ((s.fn f).ringState r = 1) && doorbellBad (s.fn f) r idx) = true := by
    obtain state | good := fine
    · simp [state]
    · simp [good]
  rw [doorbell, if_neg (by simp [on]), State.modFn, if_neg keeps]
  rfl

/-- The queue's indices move past the entry that was entryTaken. -/
def entryTaken (f : FnId) (q : BitVec 2) (s : State) : State := s.modFn f fun x =>
  (x.setReg (0x40 * q.toNat + 4) ((x.devIdx q.toNat + 1) % 2 ^ 32)).setReg (0x40 * q.toNat + 12)
    ((x.devIdx q.toNat + 1) % 2 ^ 32)

variable {f : FnId} {q : BitVec 2}

section
variable {bs : Bytes} (active : (s.fn f).ringState q.toNat = 1)
  (waits : (s.fn f).hostIdx q.toNat ≠ (s.fn f).devIdx q.toNat) (free : fetchBlocked s f q.toNat = false)
  (length : bs.length = 64)
include active waits free length

theorem commandFetch_malformed {st : Status} (read : Option Bytes) (bad : formChk f (entryOf bs) bs = some st) :
    commandFetch f q bs read s =
      answer (cmdOf f q (entryOf bs) [] s) st (entryTaken f q { s with nextCmd := s.nextCmd + 1 }) := by
  rw [commandFetch]
  dsimp only
  rw [if_neg (by simp [on, active, waits, free, length]), bad]
  rfl

variable (whole : formChk f (entryOf bs) bs = none)
  (free' : (entryOf bs).partition < 8 → s.partState (entryOf bs).partition ≠ 2)
include whole free'

theorem commandFetch_starts {payload : Bytes}
    (size : payload.length = (if (entryOf bs).opcode = 3 then 0 else (entryOf bs).srcLen)) :
    commandFetch f q bs (some payload) s = startCommand f q (entryOf bs) payload (entryTaken f q s) := by
  rw [commandFetch]
  dsimp only
  rw [if_neg (by simp [on, active, waits, free, length]), whole]
  dsimp only
  rw [if_neg (by simpa using free'), if_neg (not_not.mpr size)]
  rfl

theorem commandFetch_unread : commandFetch f q bs none s =
    answer { cmdOf f q (entryOf bs) [] s with begun := true } .timeout
      (entryTaken f q { s with nextCmd := s.nextCmd + 1 }) := by
  rw [commandFetch]
  dsimp only
  rw [if_neg (by simp [on, active, waits, free, length]), whole]
  dsimp only
  rw [if_neg (by simpa using free')]
  rfl

end

end

section
variable {s : State} {f : FnId} {q : Nat} {x : Finished} {rest : List Finished}
  (oldest : tabGet (fun _ => []) (s.fn f).finished q = x :: rest)
include oldest

/-- The oldest completion of a queue is taken from it. -/
def popped (f : FnId) (q : Nat) (rest : List Finished) (s : State) : State :=
  s.modFn f fun y => { y with finished := tabSet (fun _ => []) y.finished q rest }

theorem completionPost_writes (on : s.hostOpen = true) (current : x.attach = (s.fn f).attach)
    (active : (s.fn f).ringState (4 + q) = 1)
    (room : idxDiff ((s.fn f).devIdx (4 + q)) ((s.fn f).hostIdx (4 + q)) < (s.fn f).ringSize (4 + q)) :
    completionPost f q s = writeCpl f q x (popped f q rest s) := by
  unfold completionPost
  dsimp only
  rw [oldest]
  dsimp only
  rw [if_neg (not_not.mpr current), if_pos (by simp [on, active, room])]
  rfl

theorem completionPost_records (gone : x.attach ≠ (s.fn f).attach) (new : x.record = none)
    (room : (s.fn f).records.length < 1024) : completionPost f q s = toRecord f q x (popped f q rest s) := by
  unfold completionPost
  dsimp only
  rw [oldest]
  dsimp only
  rw [if_pos gone, if_neg (by simp [new]), if_pos room]
  rfl

theorem completionPost_drops (gone : x.attach ≠ (s.fn f).attach) (old : x.record ≠ none) :
    completionPost f q s = popped f q rest s := by
  unfold completionPost
  dsimp only
  rw [oldest]
  dsimp only
  rw [if_pos gone, if_pos (Option.isSome_iff_ne_none.mpr old)]
  rfl

end

/-! ## Commands in progress (R354, R370, R372) -/

section
variable {s : State} {c : CmdId} {x : Cmd} (running : s.cmd? c = some x)
include running

theorem onCmd_acts {opcode : Nat} (k : Cmd → State → State) (op : x.opcode = opcode) : s.onCmd c opcode k = k x s := by
  rw [State.onCmd, running]
  exact if_pos op

theorem hostReadTimeout_ends (reads : x.readsHost = true) :
    hostReadTimeout c s = answer { x with begun := true } .timeout s := by
  rw [hostReadTimeout, running]
  exact if_pos reads

theorem fenceCommand_ends (op : x.opcode = 2) (first : earlier x s = false) : fenceCommand c s = answer x .ok s := by
  rw [fenceCommand, onCmd_acts running _ op, if_neg (by simp [first])]

theorem copyIn_copies {data : Bytes} (op : x.opcode = 3) (length : data.length = x.srcLen)
    (current : s.current x = true) (serves : s.winServes x.fn (bitsOf x.imm.toNat 63 0) x.srcLen = true) :
    copyIn c data s =
      let r := copyInUnits x.fn x.world (x.srcLen / 64) (bitsOf x.imm.toNat 63 0) data s
      answer x (r.2.1.getD .ok) r.2.2 := by
  rw [copyIn, onCmd_acts running _ op]
  dsimp only
  rw [if_neg (by simp [length, current, serves])]

theorem copyOut_copies {bs : Bytes} {s' : State} (op : x.opcode = 4)
    (serves : s.winServes x.fn (bitsOf x.imm.toNat 63 0) x.resultLen = true)
    (read : copyOutUnits x.fn x.world (x.resultLen / 64) (bitsOf x.imm.toNat 63 0) s = (bs, false, none, s'))
    (current : s'.current x = true) : copyOut c s = finish x .ok bs 0 s' := by
  rw [copyOut, onCmd_acts running _ op]
  dsimp only
  rw [if_neg (by simp [serves]), read]
  dsimp only
  rw [current, Bool.not_true, Bool.and_false]
  split
  · cases ‹false = true›
  · rfl

end

/-- Settles O44: each command by the lemma on it. -/
theorem hostCommandsComplete : Obligations.HostCommandsComplete := by
  unfold Obligations.HostCommandsComplete
  intro f q s on
  refine ⟨fun r idx => ⟨fun bad => ?_, fun fine => ?_⟩, ?_, ?_, fun c x running => ⟨fun reads => ?_, fun op => ?_,
    fun op first => ?_, fun data op length current serves => ?_, fun op _ serves bs s' read current => ?_⟩⟩
  · exact congrArg Host.Outcome.next (doorbell_breaks on bad)
  · exact congrArg Host.Outcome.next (doorbell_moves on fine)
  · intro bs payload read e moved active waits free length
    refine ⟨fun st bad => ?_, fun whole held => ⟨fun size => ?_, ?_⟩⟩
    · exact congrArg Host.Outcome.next (commandFetch_malformed on active waits free length read bad)
    · exact congrArg Host.Outcome.next (commandFetch_starts on active waits free length whole held size)
    · exact congrArg Host.Outcome.next (commandFetch_unread on active waits free length whole held)
  · intro x rest oldest popped'
    refine ⟨fun current active room => ?_, fun gone new room => ?_, fun gone old => ?_⟩
    · exact congrArg Host.Outcome.next (completionPost_writes oldest on current active room)
    · exact congrArg Host.Outcome.next (completionPost_records oldest gone new room)
    · exact congrArg Host.Outcome.next (completionPost_drops oldest gone old)
  · exact congrArg Host.Outcome.next (hostReadTimeout_ends running reads)
  · exact congrArg Host.Outcome.next (onCmd_acts running _ op)
  · exact congrArg Host.Outcome.next (fenceCommand_ends running op first)
  · exact congrArg Host.Outcome.next (copyIn_copies running op length current serves)
  · exact congrArg Host.Outcome.next (copyOut_copies running op serves read current)

end Sys2Proof.Machine
end

section
/-! PROOFS. Windows, the diagnostic aperture, telemetry, result slots, input rings and resets of functions (O45). -/

namespace Sys2Proof.Machine

/-! ## Windows (R359 to R361) -/

/-- A check that passes leaves the state as it was: it reads, and only a refusal is recorded. -/
theorem winChk_ok {f off len p a : Nat} {secure write slot : Bool} {s s' : State}
    (passes : winChk f off len secure write slot s = (.ok (p, a), s')) : s' = s := by
  rw [winChk] at passes
  split at passes
  · cases passes
  · split at passes
    · cases passes
    · split at passes
      · cases passes
      · split at passes
        · cases passes
        · dsimp only at passes
          split at passes
          · cases passes
          · split at passes
            · exact (Prod.mk.inj passes).2.symm
            · cases passes

/-- A read of unmarked halves changes nothing. -/
theorem hostRead_unmarked {p a len : Nat} {s : State} (fine : lpBad (s.die p) a len = []) :
    hostRead p a len s = (tabSlice zeroByte (s.die p).lpddr a len, false, s.modDie p fun d => d) := by
  rw [hostRead, lpRead_unmarked fine]
  rfl

section
variable {f : FnId} {s s' : State} {off : Nat} (opens : s.hostOpen = true)
include opens

theorem bar2Read_reads {len p a : Nat} (serves : s.winServes f off len = true)
    (passes : winChk f off len (s.fnWorld f) false false s = (.ok (p, a), s')) (fine : lpBad (s.die p) a len = []) :
    bar2Read f off len s =
      (s.modDie p fun d => d).output (.hostRead f (tabSlice zeroByte (s.die p).lpddr a len)) := by
  rw [bar2Read, opens, serves, passes, winChk_ok passes]
  exact congrArg (fun r : Bytes × Bool × State => r.2.2.output (.hostRead f r.1)) (hostRead_unmarked fine)

theorem bar2Read_refused {len : Nat} {st : Status} (serves : s.winServes f off len = true)
    (fails : winChk f off len (s.fnWorld f) false false s = (.error st, s')) :
    bar2Read f off len s = (winRefused f s').output (.hostRead f (List.replicate len 0xFF)) := by
  rw [bar2Read, opens, serves, fails]
  rfl

theorem bar2Write_writes {data : Bytes} {p a : Nat} (serves : s.winServes f off data.length = true)
    (passes : winChk f off data.length (s.fnWorld f) true false s = (.ok (p, a), s')) :
    bar2Write f off data s = s.modDie p (lpWritePart a data) := by
  rw [bar2Write, opens, serves, passes, winChk_ok passes]
  rfl

theorem bar2Write_refused {data : Bytes} {st : Status} (serves : s.winServes f off data.length = true)
    (fails : winChk f off data.length (s.fnWorld f) true false s = (.error st, s')) :
    bar2Write f off data s = winRefused f s' := by
  rw [bar2Write, opens, serves, fails]
  rfl

/-- The word of a die at an offset of the aperture. -/
def apertureWord (p o : Nat) (s : State) : Bytes := leBytes 4 (s.peek 0 p (65536 * (o / 32768) + o % 32768))

theorem diagApertureRead_eq (p o : Nat) (wide : Bool) : diagApertureRead p o wide s =
    s.output (.hostRead 0 (apertureWord p o s ++ (if wide then apertureWord p (o + 4) s else []))) := by
  have place (o : Nat) : o >>> 15 <<< 16 + o % 2 ^ 15 = 65536 * (o / 32768) + o % 32768 := by
    rw [Nat.shiftLeft_eq, Nat.shiftRight_eq_div_pow]
    omega
  have word (o : Nat) : leBytes 4 (if s.hostOpen then s.peek 0 p (o >>> 15 <<< 16 + o % 2 ^ 15) else 0) =
      apertureWord p o s := by rw [if_pos opens, place, apertureWord]
  rw [diagApertureRead]
  dsimp only
  rw [word, word]

end

/-! ## Telemetry (R362) -/

/-- What a snapshot leaves of a function. -/
def snapped (s : State) (f : Nat) (x : Fn) : Fn :=
  let seq := (tabGet (fun _ => (0 : Word32)) x.snap 0).toNat + 2
  { x with snap := (telemetryWords s f (seq % 2 ^ 32)).foldl (fun t e =>
      tabSet (fun _ => (0 : Word32)) t e.1 (BitVec.ofNat 32 e.2)) x.snap }

/-- The words after the first stand at other offsets than 0. -/
theorem telemetryWords_eq (s : State) (f seq : Nat) :
    ∃ rest, telemetryWords s f seq = (0, seq) :: rest ∧ ∀ e ∈ rest, e.1 ≠ 0 := by
  refine ⟨_, rfl, fun e isIn => ?_⟩
  rw [List.append_eq] at isIn
  rcases List.mem_append.mp isIn with head | record
  · simp only [List.mem_cons, List.not_mem_nil, or_false] at head
    rcases head with rfl | rfl | rfl
    · exact show (8 : Nat) ≠ 0 by decide
    · exact show (12 : Nat) ≠ 0 by decide
    · exact show (16 : Nat) ≠ 0 by decide
  · obtain ⟨p, _, inRecord⟩ := List.mem_flatMap.mp record
    obtain ⟨i, _, rfl⟩ := List.mem_mapIdx.mp inRecord
    exact Nat.ne_of_gt (by omega)

theorem tabGet_foldl_apart {k : Nat} (es : List (Nat × Nat)) (apart : ∀ e ∈ es, e.1 ≠ k) (t : Tab Word32) :
    tabGet (fun _ => (0 : Word32)) (es.foldl (fun t e => tabSet (fun _ => (0 : Word32)) t e.1 (BitVec.ofNat 32 e.2)) t) k =
      tabGet (fun _ => (0 : Word32)) t k := by
  induction es generalizing t with
  | nil => rfl
  | cons e es ih =>
    rw [List.foldl_cons, ih fun e isIn => apart e (.tail _ isIn), tabGet_tabSet, if_neg (apart e (.head _)).symm]

theorem snap_snapped (s : State) (f : Nat) (x : Fn) : tabGet (fun _ => (0 : Word32)) (snapped s f x).snap 0 =
    tabGet (fun _ => (0 : Word32)) x.snap 0 + 2 := by
  obtain ⟨rest, words, apart⟩ :=
    telemetryWords_eq s f (((tabGet (fun _ => (0 : Word32)) x.snap 0).toNat + 2) % 2 ^ 32)
  rw [snapped]
  dsimp only
  rw [words, List.foldl_cons, tabGet_foldl_apart rest apart, tabGet_tabSet_self]
  exact BitVec.eq_of_toNat_eq (by simp)

/-- A snapshot of some functions: nothing but those is touched, and of those the snapshot alone. -/
structure Snapped (fs : List Nat) (s t : State) : Prop where
  frame : t = { s with fns := t.fns }
  regs : ∀ g, (t.fn g).regs = (s.fn g).regs
  apart : ∀ g, g ∉ fs → t.fn g = s.fn g
  seq : ∀ g ∈ fs, tabGet (fun _ => (0 : Word32)) (t.fn g).snap 0 = tabGet (fun _ => (0 : Word32)) (s.fn g).snap 0 + 2

theorem snapped_foldl (fs : List Nat) (distinct : fs.Nodup) (s : State) :
    Snapped fs s (fs.foldl (fun s f => s.modFn f (snapped s f)) s) := by
  induction fs generalizing s with
  | nil => exact ⟨rfl, fun _ => rfl, fun _ _ => rfl, nofun⟩
  | cons f fs ih =>
    obtain ⟨new, distinct⟩ := List.nodup_cons.mp distinct
    have rest := ih distinct (s.modFn f (snapped s f))
    rw [List.foldl_cons]
    refine ⟨rest.frame, fun g => (rest.regs g).trans ?_, fun g notIn => ?_, fun g isIn => ?_⟩
    · rw [fn_modFn]
      split
      · subst g
        rfl
      · rfl
    · rw [List.mem_cons, not_or] at notIn
      rw [rest.apart g notIn.2, fn_modFn, if_neg notIn.1]
    · rcases List.mem_cons.mp isIn with rfl | later
      · rw [rest.apart g new, fn_modFn_self, snap_snapped]
      · rw [rest.seq g later, fn_modFn, if_neg fun same : g = f => new (same ▸ later)]

theorem telemetrySnapshot_snaps {s : State} (on : s.reckoner = true) :
    Snapped (List.range 9) s (telemetrySnapshot s) := by
  rw [telemetrySnapshot, if_neg (by simp [on])]
  exact snapped_foldl _ List.nodup_range s

/-! ## Result slots (R374) -/

theorem resultReturn_frees {f hi a : Nat} {s : State} {w : Window} (opens : s.hostOpen = true)
    (window : s.window f ((s.fn f).reg 0x1008 + hi * 2 ^ 32) = some (w, a))
    (held : ∃ k ∈ (s.fn f).slots, k.die = w.die ∧ k.off = a ∧ k.held = true) :
    resultReturn f hi s = s.modFn f fun x => { x with
      slots := x.slots.filter fun k => decide (k.die ≠ w.die) || decide (k.off ≠ a) } := by
  have found : ((s.fn f).slots.any fun t => decide (t.die = w.die) && decide (t.off = a) && t.held) = true := by
    obtain ⟨k, isIn, die, off, held⟩ := held
    exact List.any_eq_true.mpr ⟨k, isIn, by simp [die, off, held]⟩
  rw [← Nat.shiftLeft_eq] at window
  rw [resultReturn, if_neg (by simp [opens])]
  dsimp only
  rw [window]
  exact if_pos found

/-! ## Input rings (R377) -/

section
variable {f i p : Nat} {e data : Bytes} {s : State} {x : Binding}
  (opens : s.hostOpen = true) (serving : (s.fn f).ringState (8 + i) = 1)
  (waits : (s.fn f).hostIdx (8 + i) ≠ (s.fn f).devIdx (8 + i))
  (bound : s.binding.find? (fun x => decide (x.ring = some (f, i))) = some x) (die : s.physOf x.die = some p)
include opens serving waits bound die

theorem inputDescriptor_bound : inputDescriptor f i e data s =
    if x.slots ≤ idxDiff (inputCount (s.die p) x.b) (inputUsed (s.die p) x.b) then s
    else if descBad x e || x.expect.any (fun k => decide (k ≠ (natAt e 16 6, natAt e 24 3))) then
      s.modFn f (·.ringError (8 + i) .malformed)
    else if x.skip ≠ [] then skipInput f (8 + i) x (natAt e 16 6, natAt e 24 3) s
    else if !x.wins.any (fun w => decide (w.1 = natAt e 16 6)) && decide (16 ≤ x.wins.length) then s
    else if data.length ≠ natAt e 8 4 then s
    else if !lpServes false (x.base + inputCount (s.die p) x.b % x.slots * x.slotBytes) x.slotBytes (s.die p)
    then s
    else stageInput f (8 + i) p x e data s := by
  rw [inputDescriptor]
  dsimp only
  rw [if_neg (by simp [opens, serving, waits]), bound]
  dsimp only
  rw [die]

theorem inputDescriptor_full (full : x.slots ≤ idxDiff (inputCount (s.die p) x.b) (inputUsed (s.die p) x.b)) :
    inputDescriptor f i e data s = s := by
  rw [inputDescriptor_bound opens serving waits bound die, if_pos full]

variable (room : idxDiff (inputCount (s.die p) x.b) (inputUsed (s.die p) x.b) < x.slots)
include room

theorem inputDescriptor_malformed
    (bad : descBad x e = true ∨ ∃ k, x.expect = some k ∧ k ≠ (natAt e 16 6, natAt e 24 3)) :
    inputDescriptor f i e data s = s.modFn f fun y => y.ringError (8 + i) .malformed := by
  rw [inputDescriptor_bound opens serving waits bound die, if_neg (Nat.not_le_of_lt room), if_pos]
  rcases bad with bad | ⟨k, expect, other⟩
  · simp [bad]
  · rw [expect, Option.any_some, decide_eq_true other, Bool.or_true]

variable (fine : descBad x e = false) (expected : x.expect = none ∨ x.expect = some (natAt e 16 6, natAt e 24 3))
include fine expected

/-- A descriptor that keeps the rules breaks none: the check before the skip is passed. -/
theorem inputDescriptor_fine : inputDescriptor f i e data s =
    if x.skip ≠ [] then skipInput f (8 + i) x (natAt e 16 6, natAt e 24 3) s
    else if !x.wins.any (fun w => decide (w.1 = natAt e 16 6)) && decide (16 ≤ x.wins.length) then s
    else if data.length ≠ natAt e 8 4 then s
    else if !lpServes false (x.base + inputCount (s.die p) x.b % x.slots * x.slotBytes) x.slotBytes (s.die p)
    then s
    else stageInput f (8 + i) p x e data s := by
  rw [inputDescriptor_bound opens serving waits bound die, if_neg (Nat.not_le_of_lt room), if_neg]
  rcases expected with expect | expect <;> simp [fine, expect]

theorem inputDescriptor_skips (skips : x.skip ≠ []) :
    inputDescriptor f i e data s = skipInput f (8 + i) x (natAt e 16 6, natAt e 24 3) s := by
  rw [inputDescriptor_fine opens serving waits bound die room fine expected, if_pos skips]

theorem inputDescriptor_stages (keeps : x.skip = [])
    (window : (x.wins.any fun w => decide (w.1 = natAt e 16 6)) = true ∨ x.wins.length < 16)
    (length : data.length = natAt e 8 4)
    (serves : lpServes false (x.base + inputCount (s.die p) x.b % x.slots * x.slotBytes) x.slotBytes (s.die p) = true) :
    inputDescriptor f i e data s = stageInput f (8 + i) p x e data s := by
  have kept : ¬ (!(x.wins.any fun w => decide (w.1 = natAt e 16 6)) && decide (16 ≤ x.wins.length)) = true := by
    rcases window with window | window
    · simp only [window, Bool.not_true, Bool.false_and, Bool.false_eq_true, not_false_eq_true]
    · simp only [Nat.not_le_of_lt window, decide_false, Bool.and_false, Bool.false_eq_true, not_false_eq_true]
  rw [inputDescriptor_fine opens serving waits bound die room fine expected, if_neg (not_not_intro keeps), if_neg kept,
    if_neg (not_not_intro length), if_neg (by simp [serves])]

end

/-- Settles O45: each row by the lemma on it. -/
theorem windowInputComplete : Obligations.WindowInputComplete := by
  unfold Obligations.WindowInputComplete
  intro f s opens released
  have on : s.reckoner = true := (Bool.and_eq_true_iff.mp opens).1
  refine ⟨fun off len p a s' serves passes fine => ?_, fun off len st s' serves fails => ?_,
    fun off data p a s' serves passes => ?_, fun off data st s' serves fails => ?_, fun p off wide => ?_, ?_,
    fun hi w a window held => ?_, fun i desc data x p => ?_, fun p w b v act => ?_, ?_, ?_, ?_⟩
  · exact congrArg Host.Outcome.next (bar2Read_reads opens serves passes fine)
  · exact congrArg Host.Outcome.next (bar2Read_refused opens serves fails)
  · exact congrArg Host.Outcome.next (bar2Write_writes opens serves passes)
  · exact congrArg Host.Outcome.next (bar2Write_refused opens serves fails)
  · exact congrArg Host.Outcome.next (diagApertureRead_eq opens p off.toNat wide)
  · have snaps := telemetrySnapshot_snaps on
    exact ⟨_, rfl, snaps.frame, fun g => ⟨snaps.regs g, snaps.seq g (List.mem_range.mpr g.isLt)⟩⟩
  · exact congrArg Host.Outcome.next (resultReturn_frees opens window held)
  · intro key serving waits bound die
    refine ⟨fun full => ?_, fun room => ⟨fun bad => ?_, fun fine expected => ⟨fun skips => ?_,
      fun keeps window length serves => ?_⟩⟩⟩
    · exact congrArg Host.Outcome.next (inputDescriptor_full opens serving waits bound die full)
    · exact congrArg Host.Outcome.next (inputDescriptor_malformed opens serving waits bound die room bad)
    · exact congrArg Host.Outcome.next (inputDescriptor_skips opens serving waits bound die room fine expected skips)
    · exact congrArg Host.Outcome.next
        (inputDescriptor_stages opens serving waits bound die room fine expected keeps window length serves)
  · have register : inputReg b.toNat + 8 = 0x208 + 16 * b.toNat := by rw [inputReg]; omega
    exact next_onDie act fun _ => by rw [dieInputConsumed, register]
  · exact congrArg Host.Outcome.next (if_pos released)
  · refine congrArg Host.Outcome.next ((if_neg (by simp [released])).trans ?_)
    by_cases manager : f = 0
    · subst manager
      rfl
    · rw [if_neg manager, if_neg fun same : f.val = 0 => manager (Fin.ext same)]
  · exact congrArg Host.Outcome.next (if_pos released)

end Sys2Proof.Machine
end

section
/-! PROOFS. The operations of the mailbox (O46). -/

namespace Sys2Proof.Machine

section
variable {f : FnId} {s : State} (on : s.reckoner = true) (busy : (s.fn f).mbxBusy = true)
include on busy

/-- An operation that is submitted is the one carried out. -/
theorem mbx_acts {op : Nat} (k : Fn → State → State) (is : (s.fn f).mbxOp = op) : mbx f op k s = k (s.fn f) s := by
  rw [mbx]
  exact if_pos (by simp [on, busy, is])

/-! ## Rings (R381, R384) -/

/-- REGISTER_RING after the check of its arguments. -/
theorem registerRing_acts (op : (s.fn f).mbxOp = 1) (fine : ringArgsBad f (s.fn f) = false) :
    registerRing f s =
      if 8 ≤ bitsOf ((s.fn f).arg 0) 3 0 then registerIn f (bitsOf ((s.fn f).arg 0) 3 0 - 8) (s.fn f) s
      else if ringBusy (bitsOf ((s.fn f).arg 0) 3 0) (s.fn f) then mbxEnd f .invalidState s
      else mbxEnd f .ok (s.modFn f (startRing (bitsOf ((s.fn f).arg 0) 3 0))) := by
  rw [registerRing, mbx_acts on busy _ op]
  exact if_neg (by simp [fine])

theorem registerRing_starts (op : (s.fn f).mbxOp = 1) (fine : ringArgsBad f (s.fn f) = false) {r : Nat}
    (names : bitsOf ((s.fn f).arg 0) 3 0 = r) (low : r < 8) (free : (s.fn f).ringState r = 0)
    (partner : r < 4 → (s.fn f).ringState (4 + r) = 1) :
    registerRing f s = mbxAnswer f .ok [] (s.modFn f (startRing r)) := by
  rw [registerRing_acts on busy op fine, names, if_neg (by omega), if_neg]
  · rfl
  · by_cases command : r < 4
    · simp [ringBusy, free, partner command]
    · simp [ringBusy, free, command]

theorem registerRing_inState (op : (s.fn f).mbxOp = 1) (fine : ringArgsBad f (s.fn f) = false) {r : Nat}
    (names : bitsOf ((s.fn f).arg 0) 3 0 = r) (low : r < 8)
    (wrong : (s.fn f).ringState r ≠ 0 ∨ r < 4 ∧ (s.fn f).ringState (4 + r) ≠ 1) :
    registerRing f s = mbxAnswer f .invalidState [] s := by
  rw [registerRing_acts on busy op fine, names, if_neg (by omega), if_pos]
  · rfl
  · simpa [ringBusy] using wrong

theorem registerRing_foreign (op : (s.fn f).mbxOp = 1) (fine : ringArgsBad f (s.fn f) = false)
    (high : 8 ≤ bitsOf ((s.fn f).arg 0) 3 0) (foreign : fnDie s f (bitsOf ((s.fn f).arg 3) 9 4) = false) :
    registerRing f s = mbxAnswer f .malformed [] s := by
  rw [registerRing_acts on busy op fine, if_pos high, registerIn]
  exact if_pos (by simp [foreign])

omit on busy in
/-- A registration of an IN ring whose checks pass. -/
theorem registerIn_binds {i l b j p : Nat} {x : Fn} {y : Binding} (die : bitsOf (x.arg 3) 9 4 = l)
    (bind : bitsOf (x.arg 3) 11 10 = b) (job : bitsOf (x.arg 3) 3 0 = j)
    (new : y = newBinding s f i l b j (redWindow (s.die p) j) x) (own : fnDie s f l = true)
    (free : x.ringState (8 + i) = 0) (unbound : ∀ z, s.binding? l b = some z → z.ring = none)
    (phys : s.physOf l = some p)
    (region : regionChk (s.die p) ⟨.host, true, s.fnWorld f, 0⟩ y.base (y.slotBytes * y.slots) = none) :
    registerIn f i x s = mbxAnswer f .ok
      [(y.expect.getD (0, 0)).1 % 2 ^ 32, (y.expect.getD (0, 0)).1 / 2 ^ 32, (y.expect.getD (0, 0)).2]
      ((s.setBinding y).modFn f (startRing (8 + i))) := by
  have idle : (ringBusy (8 + i) x || (s.binding? l b).any fun y => y.ring.isSome) = false := by
    have state : ringBusy (8 + i) x = false := by
      simp only [ringBusy, free, ne_eq, not_true_eq_false, decide_false, Bool.false_or, Bool.and_eq_false_imp,
        decide_eq_true_eq]
      omega
    rw [state, Bool.false_or]
    cases bound : s.binding? l b with
    | none => rfl
    | some z => simp [unbound z bound]
  rw [registerIn]
  dsimp only
  rw [die, bind, job, if_neg (by simp [own]), phys]
  dsimp only
  rw [idle, ← new, region]
  exact if_neg (by simp)

theorem registerRing_binds (op : (s.fn f).mbxOp = 1) (fine : ringArgsBad f (s.fn f) = false) {r l p : Nat}
    {y : Binding} (names : bitsOf ((s.fn f).arg 0) 3 0 = r) (high : 8 ≤ r)
    (die : bitsOf ((s.fn f).arg 3) 9 4 = l)
    (new : y = newBinding s f (r - 8) l (bitsOf ((s.fn f).arg 3) 11 10) (bitsOf ((s.fn f).arg 3) 3 0)
      (redWindow (s.die p) (bitsOf ((s.fn f).arg 3) 3 0)) (s.fn f))
    (own : fnDie s f l = true) (free : (s.fn f).ringState r = 0)
    (unbound : ∀ z, s.binding? l (bitsOf ((s.fn f).arg 3) 11 10) = some z → z.ring = none)
    (phys : s.physOf l = some p)
    (region : regionChk (s.die p) ⟨.host, true, s.fnWorld f, 0⟩ y.base (y.slotBytes * y.slots) = none) :
    registerRing f s = mbxAnswer f .ok
      [(y.expect.getD (0, 0)).1 % 2 ^ 32, (y.expect.getD (0, 0)).1 / 2 ^ 32, (y.expect.getD (0, 0)).2]
      ((s.setBinding y).modFn f (startRing r)) := by
  have ring : 8 + (r - 8) = r := by omega
  rw [registerRing_acts on busy op fine, names, if_pos high,
    registerIn_binds die rfl rfl new own ((congrArg _ ring).trans free) unbound phys region, ring]

/-- A ring that is free, and its bindings open. -/
def unregistered (f : FnId) (r : Nat) (s : State) : State :=
  let s' := s.modFn f fun x => ({ x with rings := tabSet (fun _ => {}) x.rings r {} }).setReg (0x40 * r + 8) 0
  { s' with binding := s'.binding.map fun b =>
      if b.ring = some (f.val, r - 8) ∧ 8 ≤ r then { b with ring := none } else b }

theorem unregisterRing_frees (op : (s.fn f).mbxOp = 2) {r : Nat} (names : (s.fn f).arg 0 = r) (ring : r < 16)
    (idle : r < 4 → queueBusy s f r = false) (partner : 4 ≤ r → r < 8 → (s.fn f).ringState (r - 4) = 0) :
    unregisterRing f s = mbxAnswer f .ok [] (unregistered f r s) := by
  have offset : ringOff r = 0x40 * r := by rw [ringOff]
  rw [unregisterRing, mbx_acts on busy _ op]
  dsimp only
  rw [names, if_neg (by omega), if_neg fun h => h.2.2 (partner h.1 h.2.1),
    if_neg fun h => Bool.false_ne_true ((idle h.1).symm.trans h.2), offset]
  rfl

/-! ## Windows (R358) -/

theorem mapWindow_maps (op : (s.fn f).mbxOp = 3) {a : Nat} (names : (s.fn f).arg 0 = a) (legal : a < 2 ^ 18)
    (entry : bitsOf a 5 0 < winEntries f) (own : fnDie s f (bitsOf a 11 6) = true) :
    mapWindow f s = mbxAnswer f .ok [] (s.modFn f fun x => { x with
      windows := tabSet (fun _ => none) x.windows (bitsOf a 5 0)
        (some ⟨bitsOf a 11 6, bitsOf a 16 12, bitOf a 17⟩) }) := by
  rw [mapWindow, mbx_acts on busy _ op]
  dsimp only
  rw [names, if_neg]
  · rfl
  · rw [decide_eq_false (Nat.not_le_of_lt legal), decide_eq_false (Nat.not_le_of_lt entry), own]
    decide

theorem unmapWindow_unmaps (op : (s.fn f).mbxOp = 4) (entry : (s.fn f).arg 0 < winEntries f) :
    unmapWindow f s = mbxAnswer f .ok [] (s.modFn f fun x => { x with
      windows := tabSet (fun _ => none) x.windows ((s.fn f).arg 0) none }) := by
  rw [unmapWindow, mbx_acts on busy _ op]
  exact if_neg (Nat.not_le_of_lt entry)

/-! ## Undelivered records (R383) -/

theorem queryUndelivered_answers (op : (s.fn f).mbxOp = 5) {u : Undelivered}
    (record : (s.fn f).records[(s.fn f).arg 0]? = some u) :
    queryUndelivered f s = mbxAnswer f .ok (tabulate 8 fun i => natAt (recordBytes u) (4 * i) 4) s := by
  rw [queryUndelivered, mbx_acts on busy _ op, record]

omit on busy in
theorem freeable_idle {x : Fn} {id : Nat} (idle : x.inFlight id = false) :
    x.freeable id = x.records.find? fun u => decide (u.id = id) := by
  rw [Fn.freeable]
  exact if_neg (by simp [idle])

theorem redeliver_delivers (op : (s.fn f).mbxOp = 6) {u : Undelivered} {bs : Bytes}
    (record : (s.fn f).records.find? (fun u => decide (u.id = (s.fn f).arg 0)) = some u)
    (idle : (s.fn f).inFlight ((s.fn f).arg 0) = false) (data : u.fin.data = .bytes bs) (some_ : bs ≠ [])
    (address : (s.fn f).argAddr 1 ≠ 0) (aligned : (s.fn f).argAddr 1 % 64 = 0)
    (active : (s.fn f).ringState (4 + u.queue) = 1) :
    redeliver f s = mbxAnswer f .ok [] (complete f u.queue
      { u.fin with redelivered := true, attach := (s.fn f).attach, data := .none, record := some u.id }
      (s.output (.hostWrite f ((s.fn f).argAddr 1) bs true))) := by
  have length : bs.length ≠ 0 := fun empty => some_ (List.eq_nil_of_length_eq_zero empty)
  have legal : ¬ (decide ((s.fn f).argAddr 1 % 64 ≠ 0) ||
      (decide (u.fin.data.size = 0) != decide ((s.fn f).argAddr 1 = 0))) = true := by
    rw [data]
    simp [ResultData.size, aligned, address, some_]
  rw [redeliver, mbx_acts on busy _ op]
  dsimp only
  rw [freeable_idle idle, record]
  refine (if_neg legal).trans ((if_neg (not_not_intro active)).trans ?_)
  rw [data]
  exact congrArg (fun t => mbxEnd f .ok (complete f u.queue _ t)) (hostWrite_some f _ true s length)

theorem discardUndelivered_discards (op : (s.fn f).mbxOp = 7)
    (record : ∃ u ∈ (s.fn f).records, u.id = (s.fn f).arg 0)
    (idle : (s.fn f).inFlight ((s.fn f).arg 0) = false) :
    discardUndelivered f s = mbxAnswer f .ok [] (freeRecord f ((s.fn f).arg 0) s) := by
  obtain ⟨u, isIn, id⟩ := record
  rw [discardUndelivered, mbx_acts on busy _ op, freeable_idle idle]
  exact if_pos (List.find?_isSome.mpr ⟨u, isIn, decide_eq_true id⟩)

/-! ## Registers, modules, recovery (R361, R349, R456) -/

theorem readReg_reads (op : (s.fn f).mbxOp = 8) (manager : f = 0) (die : (s.fn f).arg 0 < 72) :
    readReg f s = mbxAnswer f .ok [s.peek 0 ((s.fn f).arg 0) ((s.fn f).arg 1)] s := by
  subst manager
  rw [readReg, mbx_acts on busy _ op]
  exact if_neg (not_or.mpr ⟨not_not_intro rfl, Nat.not_le_of_lt die⟩)

theorem elsRelease_asks (op : (s.fn f).mbxOp = 9) (manager : f = 0) (bay : (s.fn f).arg 0 < 8) :
    elsRelease f s =
      let t := askRelease ((s.fn f).arg 0) (s.usageOk ((s.fn f).arg 0)) s
      mbxAnswer f t.1 [] t.2 := by
  rw [elsRelease, mbx_acts on busy _ op]
  exact if_neg (not_or.mpr ⟨not_not_intro manager, Nat.not_le_of_lt bay⟩)

/-- The argument words of RECOVERY_SET hold no reserved or illegal value, and the job is one that the function may
name. -/
structure RecoveryArgs (f : FnId) (a b c u w : Nat) (s : State) : Prop where
  short : a < 2 ^ 6
  job : bitsOf a 3 0 ≠ 0
  partner : bitsOf b 15 12 = 0
  store : bitsOf b 31 28 = 0
  parison : bitsOf c 15 0 ≠ 0
  units : u < 2 ^ 22
  kib : bitsOf u 21 15 ≤ 64
  rod : w < 2 ^ 12
  loaded : s.jobState (bitsOf a 3 0) ≠ 0
  own : f.val = 0 ∨ s.jobPart (bitsOf a 3 0) + 1 = f.val

theorem recoverySet_sets (op : (s.fn f).mbxOp = 0x301) {a b c u w : Nat} (argA : (s.fn f).arg 0 = a)
    (argB : (s.fn f).arg 1 = b) (argC : (s.fn f).arg 2 = c) (argU : (s.fn f).arg 3 = u) (argW : (s.fn f).arg 4 = w)
    (legal : RecoveryArgs f a b c u w s) :
    recoverySet f s = mbxAnswer f .ok [] (writeRods (bitsOf a 3 0) (setRecovery (bitsOf a 3 0) (bitOf a 4) (bitOf a 5)
      (bitsOf b 11 0) (bitsOf b 27 16) (bitsOf c 15 0) (bitsOf c 31 16) (bitsOf u 14 0) (bitsOf u 21 15) w s)) := by
  obtain ⟨short, job, partner, store, parison, units, kib, rod, loaded, own⟩ := legal
  rw [recoverySet, mbx_acts on busy _ op]
  dsimp only
  rw [argA, argB, argC, argU, argW]
  refine (if_neg ?_).trans ((if_neg loaded).trans ((if_neg ?_).trans rfl))
  · rw [decide_eq_false (Nat.not_le_of_lt short), decide_eq_false job, decide_eq_false (not_not_intro partner),
      decide_eq_false (not_not_intro store), decide_eq_false parison, decide_eq_false (Nat.not_le_of_lt units),
      decide_eq_false (Nat.not_lt_of_le kib), decide_eq_false (Nat.not_le_of_lt rod)]
    decide
  · exact fun other => own.elim other.1 other.2

end

/-- Settles O46: each operation by the lemma on it. -/
theorem mailboxComplete : Obligations.MailboxComplete := by
  unfold Obligations.MailboxComplete
  intro f s x r a on busy
  refine ⟨fun op fine => ⟨fun low free partner => ?_, fun low wrong => ?_, ?_, fun high foreign => ?_⟩,
    fun op ring idle partner => ?_, fun op legal entry own => ?_, fun op entry => ?_, fun u op record => ?_,
    fun u bs op record idle data some_ address aligned active => ?_, fun op record idle => ?_,
    fun op manager die => ?_, fun op manager bay => ?_, ?_⟩
  · exact congrArg Host.Outcome.next (registerRing_starts on busy op fine rfl low free partner)
  · exact congrArg Host.Outcome.next (registerRing_inState on busy op fine rfl low wrong)
  · intro p high l j y key own free unbound phys region
    exact congrArg Host.Outcome.next
      (registerRing_binds on busy op fine rfl high rfl rfl own free unbound phys region)
  · exact congrArg Host.Outcome.next (registerRing_foreign on busy op fine high foreign)
  · exact congrArg Host.Outcome.next (unregisterRing_frees on busy op rfl ring idle partner)
  · exact congrArg Host.Outcome.next (mapWindow_maps on busy op rfl legal entry own)
  · exact congrArg Host.Outcome.next (unmapWindow_unmaps on busy op entry)
  · exact congrArg Host.Outcome.next (queryUndelivered_answers on busy op record)
  · exact congrArg Host.Outcome.next
      (redeliver_delivers on busy op record idle data some_ address aligned active)
  · exact congrArg Host.Outcome.next (discardUndelivered_discards on busy op record idle)
  · exact congrArg Host.Outcome.next (readReg_reads on busy op manager die)
  · exact congrArg Host.Outcome.next (elsRelease_asks on busy op manager bay)
  · intro b c u w op short job partner store parison units kib rod loaded own
    exact congrArg Host.Outcome.next (recoverySet_sets on busy op rfl rfl rfl rfl rfl
      ⟨short, job, partner, store, parison, units, kib, rod, loaded, own⟩)

end Sys2Proof.Machine
end

section
/-! PROOFS. Commands that the Crucible has checked (O48). -/

namespace Sys2Proof.Machine

section
variable {c : CmdId} {x : Cmd} {s : State} (running : s.cmd? c = some x)
include running

/-! ## Worlds, keys and debug levels (R390, R396, R408) -/

theorem worldAssign_fine (op : x.opcode = 0x0203) (fine : worldsOk x.payload = true) : worldAssign c s =
    if worldsBusy (worldsOf x.payload) s then answer x .invalidState s
    else answer x .ok (applyWorlds (worldsOf x.payload) s) := by
  rw [worldAssign, onCmd_acts running _ op]
  exact if_neg (by simp [fine])

theorem keyRotate_rotates (op : x.opcode = 0x0206) {k v : Nat}
    (names : (if natAt x.payload 0 1 = 0xFF then 8 else natAt x.payload 0 1) = k) (version : natAt x.payload 4 4 = v)
    (newer : s.keyVer k < v) :
    keyRotate c s = answer x .ok (let t := s.setReg (0x30020 + 4 * k) v
      { t with crucible := { t.crucible with
        streams := t.crucible.streams.filter fun e => decide (e.1 % 16 ≠ k) } }) := by
  rw [keyRotate, onCmd_acts running _ op]
  dsimp only
  rw [names, version]
  exact if_neg (Nat.not_le_of_lt newer)

/-- The levels that the debug policy of the worlds allows (R408). -/
def levelAllowed (level : Nat) (s : State) : Prop :=
  level = 0 ∨ (level = 1 ∧ s.worlds.dbg.getLsbD 0 = true) ∨ (level = 2 ∧ s.worlds.dbg.getLsbD 1 = true)

theorem debugUnlock_unlocks (op : x.opcode = 0x0207) {level : Nat} (names : natAt x.payload 0 1 = level)
    (device : natAt x.payload 8 16 = Config.deviceId.toNat) (rises : s.debugLevel ≤ level)
    (allowed : levelAllowed level s) (idle : level = 2 → ∀ j, j < 16 → s.jobState j ≠ 2) :
    debugUnlock c s = answer x .ok
      ((if level = 2 ∧ s.debugLevel ≠ 2 then debugZero s else s).put ⟨0x30000, 3, 2⟩ level) := by
  have policy : (decide (level = 0) || (decide (level = 1) && s.worlds.dbg.getLsbD 0) ||
      (decide (level = 2) && s.worlds.dbg.getLsbD 1)) = true := by
    simpa [levelAllowed, or_assoc] using allowed
  have quiet : (decide (level = 2) && (List.range 16).any fun j => decide (s.jobState j = 2)) = false := by
    by_cases top : level = 2
    · rw [decide_eq_true top, Bool.true_and, List.any_eq_false]
      exact fun j isIn => by simpa using idle top j (List.mem_range.mp isIn)
    · rw [decide_eq_false top, Bool.false_and]
  rw [debugUnlock, onCmd_acts running _ op]
  dsimp only
  rw [names, if_neg (not_not_intro device), policy, quiet, decide_eq_false (Nat.not_lt_of_le rises)]
  exact if_neg (by decide)

/-! ## Attestation (R405 to R407) -/

theorem attest_signs (op : x.opcode = 0x0220) (left : s.crucible.attNext < s.crucible.attEnd) (ok : Bool) :
    attest c ok s = finish x .ok
      (attReport s x.payload s.crucible.attNext ++ xmssmtSign attSeeds.1 attSeeds.2.1 attSeeds.2.2 s.crucible.attNext
        (attReport s x.payload s.crucible.attNext)) 0
      (attShow { s with crucible := { s.crucible with attNext := s.crucible.attNext + 1 } }) := by
  rw [attest, onCmd_acts running _ op]
  dsimp only
  rw [if_pos left]

omit running in
/-- A record that does not read back reserves nothing. -/
theorem attReserve_unwritten (s : State) : attReserve false s = none := by
  rw [attReserve]
  generalize attCurrent s.nor = current
  obtain ⟨seq, limit⟩ := current
  exact if_pos (by simp only [Bool.not_false, Bool.or_true])

theorem attest_exhausted (op : x.opcode = 0x0220) (spent : s.crucible.attEnd ≤ s.crucible.attNext) :
    attest c false s = answer x .resourceExhausted (s.put ⟨0x30004, 2, 2⟩ 1) := by
  rw [attest, onCmd_acts running _ op]
  dsimp only
  rw [if_neg (Nat.not_lt_of_le spent), attReserve_unwritten]

theorem attestPubkey_answers (op : x.opcode = 0x0221) : attestPubkey c s = finish x .ok (le32 oidXmssmt ++
    xmssmtRoot attSeeds.1 attSeeds.2.2 ++ attSeeds.2.2 ++
    (match s.crucible.otp with
      | some o => sliceB o.1 0 68
      | none => leBytes 68 0)) 0 s := by
  unfold attestPubkey
  refine (onCmd_acts running _ op).trans ?_
  generalize attSeeds = seeds
  obtain ⟨sk, prf, pub⟩ := seeds
  cases s.crucible.otp <;> rfl

theorem attestCert_answers (op : x.opcode = 0x0222) :
    attestCert c s = finish x .ok (sliceB Config.factoryCertificate 0 2820) 0 s := by
  rw [attestCert, onCmd_acts running _ op]

/-! ## Regions and modules (R291, R346) -/

/-- The region tables that the block keeps, with a die's new one. -/
def keptRegions (l : Nat) (t : List (Nat × Nat)) (s : State) : Tab Word32 :=
  t.zipIdx.foldl (fun r e =>
    tabSet (fun _ => (0 : Word32)) (tabSet (fun _ => (0 : Word32)) r (128 * l + 2 * e.2) (BitVec.ofNat 32 e.1.1))
      (128 * l + 2 * e.2 + 1) (BitVec.ofNat 32 e.1.2)) s.regions

/-- A die's table is kept, and set where the die is bound. -/
def withTable (l : Nat) (t : List (Nat × Nat)) (s : State) : State :=
  match s.physOf l with
  | some p => { s with regions := keptRegions l t s }.modDie p (setTable t)
  | none => { s with regions := keptRegions l t s }

omit running in
theorem withTable_bound {l p : Nat} (t : List (Nat × Nat)) (phys : s.physOf l = some p) :
    withTable l t s = { s with regions := keptRegions l t s }.modDie p (setTable t) := by
  rw [withTable, phys]

omit running in
theorem withTable_unbound {l : Nat} (t : List (Nat × Nat)) (phys : s.physOf l = none) :
    withTable l t s = { s with regions := keptRegions l t s } := by
  rw [withTable, phys]

omit running in
theorem dies_keepRegions (kept : Tab Word32) (s : State) : { s with regions := kept }.dies = s.dies := rfl

omit running in
theorem dies_modDie_keepRegions (kept : Tab Word32) (p : Nat) (f : Die → Die) (s : State) :
    ({ s with regions := kept }.modDie p f).dies = (s.modDie p f).dies := rfl

omit running in
theorem dies_withTable_bound {l p : Nat} (t : List (Nat × Nat)) (phys : s.physOf l = some p) :
    (withTable l t s).dies = (s.modDie p (setTable t)).dies :=
  (congrArg State.dies (withTable_bound t phys)).trans (dies_modDie_keepRegions ..)

omit running in
theorem dies_withTable_unbound {l : Nat} (t : List (Nat × Nat)) (phys : s.physOf l = none) :
    (withTable l t s).dies = s.dies :=
  (congrArg State.dies (withTable_unbound t phys)).trans (dies_keepRegions ..)

omit running in
theorem withTable_frame (l : Nat) (t : List (Nat × Nat)) :
    withTable l t s = { s with dies := (withTable l t s).dies, regions := (withTable l t s).regions } := by
  cases phys : s.physOf l with
  | none => rw [withTable_unbound t phys]
  | some p => rw [withTable_bound t phys]; rfl

theorem regionSet_sets (op : x.opcode = 0x0204) {l : Nat} {t : List (Nat × Nat)} (names : natAt x.payload 0 1 = l)
    (table : tableOf (x.payload.drop 8) = t) (fine : tableOk t = true)
    (idle : ∀ q, s.rowPart (l / 8) = some q → ∀ j ∈ s.partJobs q, s.jobState j ≠ 2) :
    regionSet c s = answer x .ok (withTable l t s) := by
  rw [regionSet, onCmd_acts running _ op]
  dsimp only
  rw [names, table, if_neg (by simp [fine]), if_neg]
  · rw [withTable]
    rfl
  · cases part : s.rowPart (l / 8) with
    | none => exact Bool.false_ne_true
    | some q => simpa using idle q part

theorem elsAccept_accepts (op : x.opcode = 0x0205) : elsAccept c s = answer x .ok
    (elsAcceptModule (natAt x.payload 0 1) (natAt x.payload 2 2) (sliceB x.payload 4 16) s) := by
  rw [elsAccept, onCmd_acts running _ op]

end

/-- Settles O48: each command by the lemma on it. -/
theorem crucibleCommandsComplete : Obligations.CrucibleCommandsComplete := by
  unfold Obligations.CrucibleCommandsComplete
  intro c x s running
  refine ⟨fun op fine => ⟨fun idle => ?_, fun busy => ?_⟩, ?_, ?_, ?_, fun op spent => ?_,
    fun op => ?_, fun op => ?_, ?_, fun op => ?_⟩
  · exact congrArg Host.Outcome.next ((worldAssign_fine running op fine).trans (if_neg (by simp [idle])))
  · exact congrArg Host.Outcome.next ((worldAssign_fine running op fine).trans (if_pos busy))
  · intro k v op newer
    exact congrArg Host.Outcome.next (keyRotate_rotates running op rfl rfl newer)
  · intro level op device rises allowed idle
    exact congrArg Host.Outcome.next (debugUnlock_unlocks running op rfl device rises allowed idle)
  · intro op left
    dsimp only
    intro ok
    exact congrArg Host.Outcome.next (attest_signs running op left ok)
  · exact congrArg Host.Outcome.next (attest_exhausted running op spent)
  · exact congrArg Host.Outcome.next (attestPubkey_answers running op)
  · exact congrArg Host.Outcome.next (attestCert_answers running op)
  · intro l t op fine idle
    refine ⟨withTable l t s, congrArg Host.Outcome.next (regionSet_sets running op rfl rfl fine idle),
      fun p phys => ?_, fun phys => ?_, withTable_frame l t⟩
    · exact dies_withTable_bound t phys
    · exact dies_withTable_unbound t phys
  · exact congrArg Host.Outcome.next (elsAccept_accepts running op)

end Sys2Proof.Machine
end

section
/-! PROOFS. The commands of partitions and jobs, the limits of jobs, and the exports (O50). -/

namespace Sys2Proof.Machine

section
variable {c : CmdId} {x : Cmd} {s : State} (running : s.cmd? c = some x) (fresh : x.begun = false)
  (on : s.reckoner = true) (steady : s.partState x.partition ≠ 2)
include running fresh on steady

/-! ## Partitions (R413) -/

omit steady in
theorem partitionForm_forms (op : x.opcode = 0x0106) (free : s.partState x.partition = 0)
    (rows : ∀ n ∈ maskRows (bitsOf x.imm.toNat 7 0), s.rowPart n = none ∧ s.degraded n = false) :
    partitionForm c s = commandReset x.partition (begin' x
      ((s.setReg (0x100 + 4 * x.partition) (1 + bitsOf x.imm.toNat 7 0 <<< 8 + bit (bitOf x.imm.toNat 8) <<< 16)).modDies
        ((maskRows (bitsOf x.imm.toNat 7 0)).flatMap rowPhys)
        fun d => if d.run = .active then { d with classes := bitOf x.imm.toNat 8 } else d)) := by
  have unowned : ¬ ((maskRows (bitsOf x.imm.toNat 7 0)).any fun n => (s.rowPart n).isSome) = true := by
    simpa using fun n isIn => (rows n isIn).1
  have whole : ¬ (maskRows (bitsOf x.imm.toNat 7 0)).any s.degraded = true := by
    simpa using fun n isIn => (rows n isIn).2
  rw [partitionForm, onCmd_acts running _ op]
  dsimp only
  rw [if_neg (by simp [fresh, on, free]), if_neg (not_not_intro free), if_neg unowned, if_neg whole]

omit fresh in
theorem partitionDissolve_dissolves (op : x.opcode = 0x0107) (formed : s.partState x.partition ≠ 0)
    (empty : s.partJobs x.partition = []) :
    partitionDissolve c s = answer x .ok ((s.partRows x.partition).foldl
      (fun s n => askSetpoint n (s.powerMv n) s)
      ((s.setReg (0x100 + 4 * x.partition) 0).modDies ((s.partRows x.partition).flatMap rowPhys)
        fun d => if d.run = .active then { d with classes := false } else d)) := by
  rw [partitionDissolve, onCmd_acts running _ op]
  dsimp only
  rw [if_neg (by simp [on, steady]), if_neg (not_or.mpr ⟨formed, not_not_intro empty⟩)]

/-! ## Commands that name a job (R412, R414, R419) -/

variable {j : Nat} (job : 0 < j) (own : s.jobState j ≠ 0 → s.jobPart j = x.partition)
include job own

/-- A command that names a job of its partition, in a state in which it acts. -/
theorem jobCmd_acts {opcode : Nat} {jobOf : Cmd → Nat} {states : List Nat} (k : Cmd → Nat → State → State)
    (op : x.opcode = opcode) (names : jobOf x = j) (allowed : s.jobState j ∈ states) :
    jobCmd c opcode jobOf states k s = k x j s := by
  have held : ¬ (x.begun || !s.reckoner || decide (s.partState x.partition = 2)) = true := by
    simp [fresh, on, steady]
  have foreign : ¬ (s.jobState j ≠ 0 ∧ s.jobPart j ≠ x.partition) := fun ⟨loaded, other⟩ => other (own loaded)
  have listed : ¬ (!states.contains (s.jobState j)) = true := by simp [allowed]
  rw [jobCmd, onCmd_acts running _ op]
  dsimp only
  rw [if_neg held, names]
  exact (if_neg (Nat.ne_of_gt job)).trans ((if_neg foreign).trans (if_neg listed))

theorem jobLoad_loads {p : Nat} {m : Bytes} {s' : State} (op : x.opcode = 0x0108) (names : x.immJob = j)
    (free : s.jobState j = 0) (formed : s.partState x.partition = 1)
    (die : (s.partBound x.partition).lookup (bitsOf x.imm.toNat 13 8) = some p)
    (serves : loadServes p (64 * bitsOf x.imm.toNat 44 16) s = true)
    (read : readManifest p (64 * bitsOf x.imm.toNat 44 16) s = (some (m, false), s'))
    (fine : manifestChk s' x.partition j m = none) :
    jobLoad c s =
      let r := loadJob x.partition (bitsOf x.imm.toNat 55 48) (bitOf x.imm.toNat 56) j (bitsOf x.imm.toNat 13 8)
        (64 * bitsOf x.imm.toNat 44 16) m s'
      answer x r.1 r.2 := by
  rw [jobLoad, jobCmd_acts running fresh on steady job own _ op names (by simp [free])]
  dsimp only
  rw [if_neg (not_not_intro formed), die]
  dsimp only
  rw [serves, read]
  dsimp only
  rw [fine]
  rfl

theorem jobStart_starts {s' : State} (op : x.opcode = 0x0101) (names : x.payloadJob = j) (loaded : s.jobState j = 1)
    (launched : launchClass j 0 (startJob j s) = (true, s')) :
    jobStart c s = answer x .ok (s'.setJobState j 2) := by
  rw [jobStart, jobCmd_acts running fresh on steady job own _ op names (by simp [loaded]), launched]
  rfl

theorem jobPause_pauses (op : x.opcode = 0x0103) (names : x.payloadJob = j) (runs : s.jobState j = 2) :
    jobPause c s = answer x .ok ((s.setJobState j 3).modJobDies j fun d => d.put ⟨0x300 + 4 * j, 1, 1⟩ 1) := by
  rw [jobPause, jobCmd_acts running fresh on steady job own _ op names (by simp [runs]), setPause]

theorem jobResume_resumes (op : x.opcode = 0x0104) (names : x.payloadJob = j) (paused : s.jobState j = 3)
    (asked : (s.job j).stopPause = false) :
    jobResume c s = answer x .ok ((s.setJobState j 2).modJobDies j fun d => d.put ⟨0x300 + 4 * j, 1, 1⟩ 0) := by
  rw [jobResume, jobCmd_acts running fresh on steady job own _ op names (by simp [paused]), setPause]
  exact if_neg (by simp [asked])

theorem jobStopDrain_drains (op : x.opcode = 0x0102) (names : x.payloadJob = j) (drain : natAt x.payload 1 1 = 0)
    (busy : s.jobState j = 2 ∨ s.jobState j = 3) :
    jobStopDrain c s = begin' x ((((s.modJobDies j fun d =>
      d.put ⟨0x300 + 4 * j, 1, 1⟩ 0).modJobDies j fun d => d.put ⟨0x300 + 4 * j, 0, 0⟩ 1).modJob j
        fun i => { i with limitMs := natAt x.payload 4 4, stopPause := false }).setJobState j 4) := by
  rw [jobStopDrain, running]
  dsimp only
  rw [if_neg (by simp [drain]),
    jobCmd_acts running fresh on steady job own _ op names (by simpa using busy), setPause]

theorem jobStopAbort_resets (op : x.opcode = 0x0102) (names : x.payloadJob = j) (abort : natAt x.payload 1 1 = 1)
    (low : 2 ≤ s.jobState j) (high : s.jobState j ≤ 5)
    (alone : ∀ i ∈ s.partJobs x.partition, i ≠ j → s.jobState i < 2 ∨ 4 < s.jobState i) :
    jobStopAbort c s = commandReset x.partition (begin' x s) := by
  have state : s.jobState j ∈ [2, 3, 4, 5] := by
    simp only [List.mem_cons, List.not_mem_nil, or_false]
    omega
  have lone : ¬ ((s.partJobs x.partition).any fun i => decide (i ≠ j) && decide (2 ≤ s.jobState i) &&
      decide (s.jobState i ≤ 4)) = true := by
    rw [Bool.not_eq_true, List.any_eq_false]
    intro i isIn
    simp only [Bool.and_eq_true, decide_eq_true_eq, not_and]
    exact fun ⟨other, least⟩ => by have := alone i isIn other; omega
  rw [jobStopAbort, running]
  dsimp only
  rw [if_neg (by simp [abort]), jobCmd_acts running fresh on steady job own _ op names state, if_neg lone]

theorem jobShare_shares (op : x.opcode = 0x010A) (names : x.immJob = j) (low : 1 ≤ s.jobState j)
    (high : s.jobState j ≤ 5) :
    jobShare c s = answer x .ok
      ((s.put ⟨jobReg j, 15, 7⟩ (bit (bitOf x.imm.toNat 16) + bitsOf x.imm.toNat 15 8 <<< 1)).modJobDies j
        (setShare j (bitsOf x.imm.toNat 15 8) (bitOf x.imm.toNat 16))) := by
  have state : s.jobState j ∈ [1, 2, 3, 4, 5] := by
    simp only [List.mem_cons, List.not_mem_nil, or_false]
    omega
  rw [jobShare, jobCmd_acts running fresh on steady job own _ op names state]

theorem jobQuery_answers (op : x.opcode = 0x010D) (names : x.immJob = j) (high : s.jobState j ≤ 5) :
    jobQuery c s = finish x .ok [] (queryWord (s.reg (jobReg j))) s := by
  have state : s.jobState j ∈ [0, 1, 2, 3, 4, 5] := by
    simp only [List.mem_cons, List.not_mem_nil, or_false]
    omega
  rw [jobQuery, jobCmd_acts running fresh on steady job own _ op names state]

theorem jobUnload_launches {s' : State} (op : x.opcode = 0x0109) (names : x.immJob = j) (loaded : s.jobState j = 1)
    (launched : launchClass j 3 s = (true, s')) : jobUnload c s = begin' x s' := by
  rw [jobUnload, jobCmd_acts running fresh on steady job own _ op names (by simp [loaded]), launched]

theorem evalRun_starts {s' : State} (op : x.opcode = 0x010B) (names : x.immJob = j) (runs : s.jobState j = 2)
    (idle : (s.job j).eval = none) (version : isParison s j (bitsOf x.imm.toNat 15 8) = true)
    (started : startEval j (bitsOf x.imm.toNat 15 8) s = (true, s')) :
    evalRun c s = begin' x (s'.modJob j fun i => { i with eval := some ⟨bitsOf x.imm.toNat 15 8, some c, 0⟩ }) := by
  rw [evalRun, jobCmd_acts running fresh on steady job own _ op names (by simp [runs])]
  dsimp only
  rw [if_neg (by simp [idle, version]), started]

theorem kernelSubmit_waits (op : x.opcode = 0x010C) (names : x.immJob = j) (runs : s.jobState j = 2)
    (room : (s.cmds.filter fun y => decide (y.opcode = 0x010C) && y.begun && decide (y.immJob = j)).length < 256)
    (known : (kernelEntry (s.manifest j) (bitsOf x.imm.toNat 15 8)).isSome = true) :
    kernelSubmit c s = placeKernel x (s.modCmd c fun y => { y with begun := true, die := 0x7F }) := by
  rw [kernelSubmit, jobCmd_acts running fresh on steady job own _ op names (by simp [runs])]
  refine (if_neg (Nat.not_le_of_lt room)).trans (if_neg ?_)
  obtain ⟨entry, is⟩ := Option.isSome_iff_exists.mp known
  simp [is]

theorem reshard_writes {gen step : Nat} {es : List Bytes} (generation : natAt x.payload 4 2 = gen)
    (first : natAt x.payload 8 6 = step)
    (entries : (tabulate (natAt x.payload 2 2) fun i => sliceB x.payload (32 + 16 * i) 16) = es)
    (op : x.opcode = 0x0105) (names : x.payloadJob = j) (busy : s.jobState j = 2 ∨ s.jobState j = 3)
    (dies : ∀ e ∈ s.jobDies j, (s.die e.2).flag (redBase j + 16) 24 = false ∧ redGen (s.die e.2) j ≠ gen ∧
      redStep (s.die e.2) j < step + redN (s.die e.2) j)
    (fine : ∀ e ∈ es, reshardOk s j e = true) (noLedger : bitOf (natAt x.payload 1 1) 0 = false) :
    reshard c s = answer x .ok ((es.foldl (reshardWrite gen) s).modJobDies j (setPending j gen step)) := by
  have good : ((s.jobDies j).all fun e => !(s.die e.2).flag (redBase j + 16) 24 &&
      decide (redGen (s.die e.2) j ≠ gen) && decide (redStep (s.die e.2) j < step + redN (s.die e.2) j)) = true := by
    rw [List.all_eq_true]
    intro e isIn
    obtain ⟨none_, newer, later⟩ := dies e isIn
    simp only [none_, decide_eq_true newer, decide_eq_true later, Bool.not_false, Bool.and_true]
  have legal : es.all (reshardOk s j) = true := List.all_eq_true.mpr fine
  rw [reshard, jobCmd_acts running fresh on steady job own _ op names (by simpa using busy)]
  dsimp only
  rw [generation, first, entries, good, legal, noLedger]
  rfl

theorem restore_restores {objects : List Bytes} (op : x.opcode = 0x0301) (names : x.payloadJob = j)
    (states : s.jobState j = 1 ∨ s.jobState j = 3 ∨ s.jobState j = 5) (idle : (s.job j).restoring = 0) :
    restore c objects s =
      if natAt x.payload 1 1 = 1 then restoreStore x j objects s else restoreReplica x j s := by
  rw [restore, jobCmd_acts running fresh on steady job own _ op names (by simpa using states)]
  exact if_neg (not_not_intro idle)

end

/-! ## The limits of jobs and the automatic evaluation (R419, R422, R428) -/

section
variable {n : Nat} {s : State}

theorem jobDrainTimeout_resets (on : s.reckoner = true) (drains : s.jobState n = 4) (limit : (s.job n).limitMs ≠ 0)
    (formed : s.partState (s.jobPart n) = 1) :
    jobDrainTimeout n s = commandReset (s.jobPart n) (endCmds (isDrain n) .timeout (s.setJobCause n .timeout)) := by
  rw [jobDrainTimeout]
  exact if_pos (by simp [on, drains, limit, formed])

theorem teardownTimeout_answers {x : Cmd} (only : s.cmds.filter (isUnload n) = [x]) :
    teardownTimeout n s = answer x .timeout s := by
  rw [teardownTimeout, endCmds, only]
  rfl

theorem autoEval_starts {w : Nat} {t s' : State} (on : s.reckoner = true) (pinned : evalPinGo n s = t)
    (everywhere : ∀ k ∈ stageKeys t n, k ∈ (t.job n).evalPins) (waits : (t.job n).evalWait = some w)
    (runs : t.jobState n = 2) (idle : (t.job n).eval = none) (started : startEval n ((w + 1) % 256) t = (true, s')) :
    autoEval n s = s'.modJob n fun i => { i with eval := some ⟨(w + 1) % 256, none, w⟩, evalWait := none } := by
  have pins : ((stageKeys t n).all fun k => (t.job n).evalPins.contains k) = true :=
    List.all_eq_true.mpr fun k isIn => List.contains_iff_mem.mpr (everywhere k isIn)
  rw [autoEval, if_neg (by simp [on]), pinned]
  dsimp only
  rw [waits]
  dsimp only
  rw [if_neg (by rw [pins]; decide), if_neg (by simp [runs, idle]), started]

theorem autoEvalTimeout_unpins {w : Nat} (idle : (s.job n).eval = none) (waits : (s.job n).evalWait = some w)
    (long : 200 ≤ windowsSince s n w) :
    autoEvalTimeout n s = (unpinEval n ((w + 1) % 256) s).setJobCause n .timeout := by
  rw [autoEvalTimeout]
  rw [idle, waits]
  exact if_pos long

end

/-! ## Exports (R454) -/

/-- A read of the Lehr whose halves are permitted and unmarked. -/
theorem lehrRead_unmarked {cls : AccClass} {job a len : Nat} {d : Die}
    (fine : (halvesOk d ⟨cls, false, d.world, job⟩ (halfCount a len) (32 * (a / 32))).2 = none)
    (whole : lpBad d a len = []) :
    lehrRead cls job a len d = (.ok (tabSlice zeroByte d.lpddr a len, false), d) := by
  rw [lehrRead]
  generalize halvesOk d ⟨cls, false, d.world, job⟩ (halfCount a len) (32 * (a / 32)) = checked at fine ⊢
  obtain ⟨k, st⟩ := checked
  cases fine
  dsimp only
  rw [lpRead_unmarked whole]
  rfl

theorem exportTo_shows {x : Cmd} {bs : Bytes} {s : State} (current : s.current x = true)
    (fits : bs.length ≤ x.resultLen) : exportTo x .ok bs s = finish x .ok bs 0 s := by
  rw [exportTo, if_neg (by simp [current]), if_neg (not_not_intro rfl), if_neg (Nat.not_lt_of_le fits)]

section
variable {c : CmdId} {x : Cmd} {s : State} {p k : Nat} (running : s.cmd? c = some x) (op : x.opcode = 0x0302)
  (steady : s.partState x.partition ≠ 2) (current : s.current x = true)
  (phys : s.physOf (bitsOf x.imm.toNat 9 4) = some p)
  (pinned : pinnedSlot (s.die p) (bitsOf x.imm.toNat 11 10) (bitsOf x.imm.toNat 23 16) = some k)
include running op steady current phys pinned

/-- The unit of a slot's extent and the functions that read it stand as variables: a step from one form of `exportSlot`
to the next then compares texts, and evaluates neither. -/
theorem exportSlot_exports {t size a : Nat} (stage : bitsOf x.imm.toNat 11 10 = t)
    (extent : (s.die p).get ⟨verBase t + 4, 26, 15⟩ * 2 ^ 20 = size)
    (place : (s.die p).get ⟨verBase t + 4, 14, 0⟩ * 2 ^ 20 + k * size = a) (slot : bitOf x.imm.toNat 24 = false)
    (fits : size ≤ x.resultLen) (serves : lehrServes [(a, size)] (s.die p) = true)
    (allowed : (halvesOk (s.die p) ⟨.lehr, false, (s.die p).world, verJob (s.die p) t⟩ (halfCount a size)
      (32 * (a / 32))).2 = none) (fine : lpBad (s.die p) a size = []) :
    exportSlot c s = finish x .ok (tabSlice zeroByte (s.die p).lpddr a size) 0 (s.modDie p fun d => d) := by
  have read := lehrRead_unmarked allowed fine
  rw [exportSlot, onCmd_acts running _ op, exportArgs]
  generalize 2 ^ 20 = unit at extent place ⊢
  generalize lehrRead = reads at read ⊢
  generalize pinnedSlot = pins at pinned ⊢
  have address : (bitsOf ((s.die p).reg (verBase t + 4)) 14 0 + k * bitsOf ((s.die p).reg (verBase t + 4)) 26 15) *
      unit = a := by rw [← place, ← extent, Die.get, Die.get, Nat.add_mul, Nat.mul_assoc]
  have bytes : bitsOf ((s.die p).reg (verBase t + 4)) 26 15 * unit = size := by rw [← extent, Die.get]
  refine (if_neg (by simp [slot, steady])).trans ?_
  rw [phys]
  refine Eq.trans (b := match pins (s.die p) _ _ with | none => _ | some k => _) rfl ?_
  rw [pinned, stage]
  refine (if_neg ?_).trans ?_
  · rw [address, bytes, serves]
    decide
  · rw [address, bytes, read]
    exact exportTo_shows current ((tabSlice_length ..).trans_le fits)

theorem exportObject_exports {w : BitVec 48} {bs : Bytes} (object : bitOf x.imm.toNat 24 = true)
    (held : (s.die p).object = some (w, bs)) (version : (w.toNat + 1) % 256 = bitsOf x.imm.toNat 23 16)
    (fits : bs.length ≤ x.resultLen) : exportObject c s = finish x .ok bs 0 s := by
  rw [exportObject, onCmd_acts running _ op]
  dsimp only [exportArgs]
  rw [if_neg (by simp [object, steady]), phys]
  dsimp only
  rw [pinned, held]
  exact (if_pos version).trans (exportTo_shows current fits)

end

/-- Settles O50: each command by the lemma on it. -/
theorem jobsComplete : Obligations.JobsComplete := by
  unfold Obligations.JobsComplete
  refine ⟨fun c x s running fresh on steady => ?_, fun j c s => ?_⟩
  · have go {f t : State} (is : f = t) : (Host.Outcome.next (jobsGo f) : Host.Outcome State Fault Refusal) =
        .next (jobsGo t) := congrArg (fun t => Host.Outcome.next (jobsGo t)) is
    refine ⟨fun op free rows => ?_, fun op formed empty => ?_, fun j job own =>
      ⟨fun p m s' op names free formed die serves read fine => ?_, fun op names loaded s' launched => ?_,
      fun op names runs => ?_, fun op names paused asked => ?_, fun op names drain busy => ?_,
      fun op names abort low high alone => ?_, fun op names low high => ?_, fun op names high => ?_,
      fun op names loaded s' launched => ?_, fun op names runs idle version s' started => ?_,
      fun op names runs room known => ?_, fun op names busy dies fine noLedger => ?_,
      fun objects op names states idle => ?_⟩⟩
    · exact go (partitionForm_forms running fresh on op free rows)
    · exact go (partitionDissolve_dissolves running on steady op formed empty)
    · exact go (jobLoad_loads running fresh on steady job own op names free formed die serves read fine)
    · exact go (jobStart_starts running fresh on steady job own op names loaded launched)
    · exact go (jobPause_pauses running fresh on steady job own op names runs)
    · exact go (jobResume_resumes running fresh on steady job own op names paused asked)
    · exact go (jobStopDrain_drains running fresh on steady job own op names drain busy)
    · exact go (jobStopAbort_resets running fresh on steady job own op names abort low high alone)
    · exact go (jobShare_shares running fresh on steady job own op names low high)
    · exact go (jobQuery_answers running fresh on steady job own op names high)
    · exact go (jobUnload_launches running fresh on steady job own op names loaded launched)
    · exact go (evalRun_starts running fresh on steady job own op names runs idle version started)
    · exact go (kernelSubmit_waits running fresh on steady job own op names runs room known)
    · exact congrArg Host.Outcome.next
        (reshard_writes running fresh on steady job own rfl rfl rfl op names busy dies fine noLedger)
    · exact go (restore_restores running fresh on steady job own op names states idle)
  · refine ⟨fun on drains limit formed => ?_, fun x only => ?_, ?_, fun w idle waits long => ?_,
      fun x p k running op steady current phys pinned => ⟨?_, fun w bs object held version fits => ?_⟩⟩
    · exact congrArg (fun t => Host.Outcome.next (jobsGo t)) (jobDrainTimeout_resets on drains limit formed)
    · exact congrArg Host.Outcome.next (teardownTimeout_answers only)
    · intro w s' on _ t v everywhere waits runs idle started
      exact congrArg Host.Outcome.next (autoEval_starts on rfl everywhere waits runs idle started)
    · exact congrArg Host.Outcome.next (autoEvalTimeout_unpins idle waits long)
    · intro t size a slot fits serves allowed fine
      exact congrArg Host.Outcome.next
        (exportSlot_exports running op steady current phys pinned rfl rfl rfl slot fits serves allowed fine)
    · exact congrArg Host.Outcome.next
        (exportObject_exports running op steady current phys pinned object held version fits)

end Sys2Proof.Machine
end

section
/-! PROOFS. The capture record of a die and what its restore brings back (O52). -/

namespace Sys2Proof.Machine

/-! ## Words laid over a record -/

theorem length_overlayB {bs vs : Bytes} {o : Nat} (fits : o + vs.length ≤ bs.length) :
    (overlayB bs o vs).length = bs.length := by
  simp only [overlayB, List.length_append, List.length_take, List.length_drop]
  omega

theorem natAt_overlayB_same {bs : Bytes} {o n : Nat} (v : Nat) (fits : o + n ≤ bs.length) :
    natAt (overlayB bs o (leBytes n v)) o n = v % 256 ^ n := by
  have first : (bs.take o).length = o := by rw [List.length_take]; omega
  rw [overlayB, natAt_append_left _ _ (by rw [List.length_append, leBytes_length, first]), natAt_append_last _ _ first]

/-- What lies behind a place of a list is all that a field there reads. -/
theorem natAt_of_drop {xs ys : Bytes} {o : Nat} (n : Nat) (same : xs.drop o = ys.drop o) :
    natAt xs o n = natAt ys o n := by
  rw [natAt, natAt, sliceB, sliceB, same]

theorem natAt_overlayB_apart {bs vs : Bytes} {o o' n : Nat} (fits : o + vs.length ≤ bs.length)
    (apart : o' + n ≤ o ∨ o + vs.length ≤ o') : natAt (overlayB bs o vs) o' n = natAt bs o' n := by
  have first : (bs.take o).length = o := by rw [List.length_take]; omega
  rcases apart with before | behind
  · calc natAt (overlayB bs o vs) o' n
        = natAt (bs.take o) o' n := by rw [overlayB, List.append_assoc, natAt_append_left _ _ (by omega)]
      _ = natAt (bs.take o ++ bs.drop o) o' n := (natAt_append_left _ _ (by omega)).symm
      _ = natAt bs o' n := by rw [List.take_append_drop]
  · refine natAt_of_drop n ?_
    have length : (bs.take o ++ vs).length = o + vs.length := by rw [List.length_append, first]
    rw [overlayB, List.drop_append, List.drop_eq_nil_of_le (by omega), List.drop_drop, length, List.nil_append,
      Nat.add_sub_cancel' behind]

/-- Words laid one after the other, each behind the one before it: a field before the first is not reached. -/
theorem natAt_foldl_overlayB_apart (f : Nat → Nat) {o n : Nat} (es : List (Nat × Nat)) (bs : Bytes)
    (before : ∀ e ∈ es, o + n ≤ e.1) (fits : ∀ e ∈ es, e.1 + 4 ≤ bs.length) :
    natAt (es.foldl (fun bs e => overlayB bs e.1 (leBytes 4 (f e.2))) bs) o n = natAt bs o n := by
  induction es generalizing bs with
  | nil => rfl
  | cons e es ih =>
    have fit : e.1 + (leBytes 4 (f e.2)).length ≤ bs.length := by rw [leBytes_length]; exact fits e (.head _)
    rw [List.foldl_cons, ih _ (fun e isIn => before e (.tail _ isIn))
      (fun e isIn => (length_overlayB fit).symm ▸ fits e (.tail _ isIn)), natAt_overlayB_apart fit]
    exact .inl (before e (.head _))

/-- Each word reads as it was laid. -/
theorem natAt_foldl_overlayB (f : Nat → Nat) (es : List (Nat × Nat)) (bs : Bytes)
    (order : es.Pairwise fun a b => a.1 + 4 ≤ b.1) (fits : ∀ e ∈ es, e.1 + 4 ≤ bs.length) {e : Nat × Nat}
    (isIn : e ∈ es) :
    natAt (es.foldl (fun bs e => overlayB bs e.1 (leBytes 4 (f e.2))) bs) e.1 4 = f e.2 % 256 ^ 4 := by
  induction es generalizing bs with
  | nil => cases isIn
  | cons x es ih =>
    obtain ⟨first, order⟩ := List.pairwise_cons.mp order
    have fit : x.1 + (leBytes 4 (f x.2)).length ≤ bs.length := by rw [leBytes_length]; exact fits x (.head _)
    have rest : ∀ e ∈ es, e.1 + 4 ≤ (overlayB bs x.1 (leBytes 4 (f x.2))).length :=
      fun e isIn => (length_overlayB fit).symm ▸ fits e (.tail _ isIn)
    rw [List.foldl_cons]
    rcases List.mem_cons.mp isIn with rfl | later
    · rw [natAt_foldl_overlayB_apart f es _ first rest, natAt_overlayB_same _ (fits e (.head _))]
    · exact ih _ order rest later

/-! ## Registers written one after the other -/

/-- Registers that take, each in its turn, a word made of their old one. -/
def writeEach (w : Nat × Nat → Nat → Nat) (es : List (Nat × Nat)) (d : Die) : Die :=
  es.foldl (fun d e => d.setReg e.2 (w e (d.reg e.2))) d

variable (w : Nat × Nat → Nat → Nat)

theorem writeEach_cons (e : Nat × Nat) (es : List (Nat × Nat)) (d : Die) :
    writeEach w (e :: es) d = writeEach w es (d.setReg e.2 (w e (d.reg e.2))) := rfl

theorem writeEach_regs (es : List (Nat × Nat)) (d : Die) :
    writeEach w es d = { d with regs := (writeEach w es d).regs } := by
  induction es generalizing d with
  | nil => rfl
  | cons e es ih =>
    rw [writeEach_cons, ih]
    rfl

theorem reg_writeEach_other (es : List (Nat × Nat)) (d : Die) {o : Nat} (other : ∀ e ∈ es, e.2 ≠ o) :
    (writeEach w es d).reg o = d.reg o := by
  induction es generalizing d with
  | nil => rfl
  | cons e es ih =>
    rw [writeEach_cons, ih _ fun e isIn => other e (.tail _ isIn), Die.reg_setReg,
      if_neg (other e (.head _)).symm]

theorem reg_writeEach (es : List (Nat × Nat)) (d : Die) (distinct : es.Pairwise fun a b => a.2 ≠ b.2)
    {e : Nat × Nat} (isIn : e ∈ es) : (writeEach w es d).reg e.2 = w e (d.reg e.2) % 2 ^ 32 := by
  induction es generalizing d with
  | nil => cases isIn
  | cons x es ih =>
    obtain ⟨first, distinct⟩ := List.pairwise_cons.mp distinct
    rw [writeEach_cons]
    rcases List.mem_cons.mp isIn with rfl | later
    · rw [reg_writeEach_other w es _ fun x isIn => (first x isIn).symm, Die.reg_setReg, if_pos rfl]
    · rw [ih _ distinct later, Die.reg_setReg, if_neg (first e later).symm]

/-! ## The record (R447) -/

/-- A run of words in the record, from `a`, and of registers, from `b`. -/
def wordRun (n a b : Nat) : List (Nat × Nat) := tabulate n fun i => (a + 4 * i, b + 4 * i)

theorem mem_wordRun {n a b : Nat} {e : Nat × Nat} (isIn : e ∈ wordRun n a b) :
    (a ≤ e.1 ∧ e.1 + 4 ≤ a + 4 * n) ∧ b ≤ e.2 ∧ e.2 + 4 ≤ b + 4 * n := by
  obtain ⟨i, within, rfl⟩ := List.mem_map.mp isIn
  have := List.mem_range.mp within
  dsimp only
  omega

theorem wordRun_ordered (n a b : Nat) : (wordRun n a b).Pairwise fun x y => x.1 + 4 ≤ y.1 ∧ x.2 < y.2 :=
  List.pairwise_map.mpr (List.pairwise_lt_range.imp fun before => by dsimp only; omega)

theorem captureRegs_eq : captureRegs = wordRun 4 16 0x10040 ++ wordRun 32 32 0x40100 ++ wordRun 256 256 0x41100 := rfl

/-- The registers of a record follow each other, in the record and at the die. -/
theorem captureRegs_ordered : captureRegs.Pairwise fun a b => a.1 + 4 ≤ b.1 ∧ a.2 < b.2 := by
  rw [captureRegs_eq]
  refine List.pairwise_append.mpr ⟨List.pairwise_append.mpr ⟨wordRun_ordered .., wordRun_ordered .., ?_⟩,
    wordRun_ordered .., ?_⟩
  · intro x first y second
    have := mem_wordRun first
    have := mem_wordRun second
    omega
  · intro x front y last
    have := mem_wordRun last
    rcases List.mem_append.mp front with first | second
    · have := mem_wordRun first
      omega
    · have := mem_wordRun second
      omega

theorem captureRegs_fit : ∀ e ∈ captureRegs, e.1 + 4 ≤ 1280 := by
  rw [captureRegs_eq]
  intro e isIn
  rcases List.mem_append.mp isIn with front | last
  · rcases List.mem_append.mp front with first | second
    · have := mem_wordRun first
      omega
    · have := mem_wordRun second
      omega
  · have := mem_wordRun last
    omega

theorem natAt_captureBytes (win job : Nat) (d : Die) {e : Nat × Nat} (isIn : e ∈ captureRegs) :
    natAt (captureBytes win job d) e.1 4 = d.reg e.2 := by
  have length : (leBytes 8 win ++ leBytes 1 job ++ leBytes 1271 0).length = 1280 := by
    simp only [List.length_append, leBytes_length]
  rw [captureBytes, natAt_foldl_overlayB d.reg _ _ (captureRegs_ordered.imp And.left)
    (fun e isIn => length ▸ captureRegs_fit e isIn) isIn]
  exact Nat.mod_eq_of_lt (d.reg_lt e.2)

theorem captureWord_lt {off old v : Nat} (before : old < 2 ^ 32) (word : v < 2 ^ 32) :
    captureWord off old v < 2 ^ 32 := by
  rw [captureWord]
  split
  · exact (Nat.mod_lt _ (by decide)).trans (by decide)
  · split
    · split
      · exact before
      · exact word
    · exact word

theorem restoreRegs_eq (bs : Bytes) (d : Die) :
    restoreRegs bs d = writeEach (fun e old => captureWord e.2 old (natAt bs e.1 4)) captureRegs d := rfl

/-! ## The records of a die -/

theorem captures_showRecords (l : Nat) (s : State) : (showRecords l s).captures = s.captures := by
  rw [showRecords]
  split <;> rfl

/-- The records that stay when one of the window is taken are those of the die for other windows. -/
theorem captures_lhrCapture {p l win job : Nat} {s : State} (quiet : lhrQuiet (s.die p) = true)
    (room : (s.captures.filter fun c => decide (c.die = l) && decide (c.window ≠ win)).length < 8) :
    (lhrCapture p l win job s).captures =
      s.captures.filter (fun c => decide (c.die ≠ l) || decide (c.window ≠ win)) ++
        [⟨l, win, job, captureBytes win job (s.die p)⟩] := by
  have others : ((s.captures.filter fun c => decide (c.die ≠ l) || decide (c.window ≠ win)).filter
      fun c => decide (c.die = l)) = s.captures.filter fun c => decide (c.die = l) && decide (c.window ≠ win) := by
    rw [List.filter_filter]
    refine List.filter_congr fun c _ => ?_
    by_cases own : c.die = l <;> simp [own]
  rw [lhrCapture, if_neg (by simp [quiet])]
  dsimp only
  rw [others, if_neg (Nat.not_le_of_lt room), captures_showRecords]
  rfl

theorem find?_captured {cs : List Capture} {l win : Nat} {c : Capture} (die : c.die = l) (window : c.window = win) :
    (cs.filter (fun c => decide (c.die ≠ l) || decide (c.window ≠ win)) ++ [c]).find?
      (fun c => decide (c.die = l) && decide (c.window = win)) = some c := by
  rw [List.find?_append, List.find?_eq_none.mpr]
  · simp [die, window]
  · intro x kept
    have other := (List.mem_filter.mp kept).2
    simp only [Bool.or_eq_true, decide_eq_true_eq] at other
    simp only [Bool.and_eq_true, decide_eq_true_eq, not_and]
    exact fun own same => other.elim (· own) (· same)

/-- Settles O52: a record stands where `capture?` looks, and each register reads what was laid at its place. -/
theorem captureRestores : Obligations.CaptureRestores := by
  unfold Obligations.CaptureRestores
  refine ⟨fun p l win job s quiet room => ?_, fun win job d d' _ _ => ⟨fun e isIn => ?_, fun o other => ?_, ?_⟩⟩
  · rw [State.capture?, captures_lhrCapture quiet room]
    exact find?_captured rfl rfl
  · rw [restoreRegs_eq, reg_writeEach _ _ _ (captureRegs_ordered.imp fun h => Nat.ne_of_lt h.2) isIn]
    rw [natAt_captureBytes win job d isIn]
    exact Nat.mod_eq_of_lt (captureWord_lt (d'.reg_lt _) (d.reg_lt _))
  · rw [restoreRegs_eq, reg_writeEach_other _ _ _ other]
  · rw [restoreRegs_eq]
    exact writeEach_regs ..
end Sys2Proof.Machine
end

section
/-! PROOFS. Triggers, resets, sparing, and the transfers of the Lehr (O51). -/

namespace Sys2Proof.Machine

/-! ## Triggers and resets (R438 to R445) -/

section
variable {s : State}

theorem watchdog_triggers {p : Nat} (act : (s.die p).run = .active) (clocked : (s.die p).clkLost = false)
    {t : Nat × Thread} (isIn : t ∈ (s.die p).threads) (busy : t.2.st ≠ .free)
    (job : ((s.die p).threadJob (BitVec.ofNat 11 t.1)).toNat ≠ 0)
    (runs : s.jobState ((s.die p).threadJob (BitVec.ofNat 11 t.1)).toNat = 2)
    (goes : paused (s.die p) ((s.die p).threadJob (BitVec.ofNat 11 t.1)).toNat = false) :
    watchdog p s = triggerDie 1 p (s.modDie p fun d =>
      { (d.setFlag 0x404 0).event 0x400 with wdogAt := d.wdogAt ++ [s.mgtclk.toNat] }) := by
  have hangs : ((s.die p).threads.any fun e => decide (e.2.st ≠ .free) &&
      decide (((s.die p).threadJob (BitVec.ofNat 11 e.1)).toNat ≠ 0) &&
      decide (s.jobState ((s.die p).threadJob (BitVec.ofNat 11 e.1)).toNat = 2) &&
      !paused (s.die p) ((s.die p).threadJob (BitVec.ofNat 11 e.1)).toNat) = true :=
    List.any_eq_true.mpr ⟨t, isIn, by simp [busy, job, runs, goes]⟩
  rw [watchdog]
  dsimp only
  rw [hangs]
  exact if_pos (by simp [act, clocked])

theorem rowLost_none {part : Nat} (clocked : ∀ n ∈ s.partRows part, s.rowLost n = false) :
    (s.partRows part).any s.rowLost = false :=
  List.any_eq_false.mpr fun n isIn => by simp [clocked n isIn]

variable (on : s.reckoner = true)

theorem partitionReset_ends {part : Nat} (late : List Nat) (resets : s.partState part = 2)
    (clocked : ∀ n ∈ s.partRows part, s.rowLost n = false) (on : s.reckoner = true) :
    partitionReset part late s = endReset part late s := by
  rw [partitionReset, rowLost_none clocked]
  exact if_pos (by simp [resets, on])

include on

theorem escalation_resets {part : Nat} (resets : s.partState part = 2)
    (clocked : ∀ n ∈ s.partRows part, s.rowLost n = false) : escalation part s = deviceReset 7 part none s := by
  rw [escalation, rowLost_none clocked]
  exact if_pos (by simp [resets, on])

theorem bindTimeout_resets {p : Nat} (waits : p ∈ s.sparing) :
    bindTimeout p s = deviceReset 10 ((s.rowPart (p / 9)).getD 0) (some p) s := by
  rw [bindTimeout]
  exact if_pos (by simp [waits, on])

theorem jobRecovery_recovers {part : Nat} (formed : s.partState part = 1)
    (bound : ∀ x ∈ s.sparing, x ∉ s.partPhys part) :
    jobRecovery part s = (s.partJobs part).foldl recoverJob s := by
  have ready : (s.sparing.any fun p => (s.partPhys part).contains p) = false :=
    List.any_eq_false.mpr fun x isIn => by simpa using bound x isIn
  rw [jobRecovery, ready]
  exact if_pos (by simp [formed, on])

/-! ## Sparing (R445) -/

/-- What becomes of a die's place: its row is lost where it has no spare, or where the spare does not retrain. -/
def withSpare (p l : Nat) (retrained : Bool) (s : State) : State :=
  match s.spareOf (p / 9) with
  | none => putAside p (loseRow (p / 9) s)
  | some q =>
    let s := putAside p s
    if !retrained then dealTokens (putAside q (loseRow (p / 9) { s with retired := s.retired ++ [q] }))
    else
      let s := (powerOn .active (s.currentMv (p / 9)) q s).modDie q (mcReady false)
      let s := dealTokens (writeRoutes (bindSpare l q s))
      match s.rowPart (p / 9) with
      | some part => markFresh part l s
      | none => s

/-- SPARING of a die that waits for it. The searches stand as variables, so that nothing is evaluated. -/
theorem sparing_acts {p l : Nat} (waits : p ∈ s.sparing) (logical : s.logicalOf p = some l) (retrained : Bool) :
    sparing p retrained s = withSpare p l retrained { s with sparing := s.sparing.filter fun x => decide (x ≠ p) } := by
  have named : (if (s.sparing.contains p && s.reckoner) = true then s.logicalOf p else none) = some l :=
    (if_pos (by simp [waits, on])).trans logical
  rw [sparing, named, withSpare] <;>
    (generalize State.spareOf = spares
     generalize State.rowPart = parts
     rfl)

omit on in
theorem withSpare_none {p l : Nat} {retrained : Bool} (none_ : s.spareOf (p / 9) = none) :
    withSpare p l retrained s = putAside p (loseRow (p / 9) s) := by
  rw [withSpare, none_]

omit on in
theorem withSpare_binds {p l q : Nat} (spare : s.spareOf (p / 9) = some q) : withSpare p l true s =
    let aside := putAside p s
    let t := dealTokens (writeRoutes (bindSpare l q
      ((powerOn .active (aside.currentMv (p / 9)) q aside).modDie q (mcReady false))))
    match t.rowPart (p / 9) with
    | some q' => markFresh q' l t
    | none => t := by
  rw [withSpare, spare]
  generalize State.rowPart = parts
  rfl

omit on in
theorem withSpare_fails {p l q : Nat} (spare : s.spareOf (p / 9) = some q) : withSpare p l false s =
    let aside := putAside p s
    dealTokens (putAside q (loseRow (p / 9) { aside with retired := aside.retired ++ [q] })) := by
  rw [withSpare, spare]
  exact if_pos rfl

end

/-! ## Reads that the patrol does not change -/

theorem count_patrolAt (d : Die) (n : Nat × Nat) (o k : Nat) :
    (d.patrolAt n).count o k = (d.count o k).patrolAt n := rfl

theorem flag_patrolAt (d : Die) (n : Nat × Nat) (o i : Nat) : (d.patrolAt n).flag o i = d.flag o i := rfl

theorem setReg_patrolAt (d : Die) (n : Nat × Nat) (o v : Nat) :
    (d.patrolAt n).setReg o v = (d.setReg o v).patrolAt n := rfl

theorem setFlag_patrolAt (d : Die) (n : Nat × Nat) (o i : Nat) :
    (d.patrolAt n).setFlag o i = (d.setFlag o i).patrolAt n := rfl

theorem event_patrolAt (d : Die) (n : Nat × Nat) (b : Nat) : (d.patrolAt n).event b = (d.event b).patrolAt n := rfl

theorem lpCorrect_patrolAt (d : Die) (n : Nat × Nat) (h : Nat) :
    lpCorrect (d.patrolAt n) h = (lpCorrect d h).patrolAt n := by
  have waits (e : Die) : (e.patrolAt n).lpWb = e.lpWb := rfl
  rw [lpCorrect, lpCorrect]
  generalize mcBase (32 * h) = b
  rw [count_patrolAt, waits]
  generalize (if b = 0x70000 then 0 else 1) = k
  split <;> rfl

theorem lpUncorrectable_patrolAt (d : Die) (n : Nat × Nat) (h : Nat) :
    lpUncorrectable (d.patrolAt n) h = (lpUncorrectable d h).patrolAt n := by
  rw [lpUncorrectable, lpUncorrectable]
  generalize mcBase (32 * h) = b
  generalize h + 1 <<< 31 = word
  rw [count_patrolAt, flag_patrolAt, setReg_patrolAt]
  split
  · rw [setFlag_patrolAt, event_patrolAt]
  · rw [setFlag_patrolAt, event_patrolAt]

theorem lpTouch_patrolAt (d : Die) (n : Nat × Nat) (e : Nat × LpMark) :
    lpTouch (d.patrolAt n) e = (lpTouch d e).patrolAt n := by
  obtain ⟨h, mark⟩ := e
  cases mark with
  | good => rfl
  | single => exact lpCorrect_patrolAt d n h
  | bad => exact lpUncorrectable_patrolAt d n h
  | poison => rfl

theorem lpRead_patrolAt (a len : Nat) (d : Die) (n : Nat × Nat) : lpRead a len (d.patrolAt n) =
    ((lpRead a len d).1, (lpRead a len d).2.1, (lpRead a len d).2.2.patrolAt n) := by
  have touched : (lpBad d a len).foldl lpTouch (d.patrolAt n) = ((lpBad d a len).foldl lpTouch d).patrolAt n :=
    List.foldl_hom (fun d => d.patrolAt n) fun d e => lpTouch_patrolAt d n e
  exact congrArg (fun x => (tabSlice zeroByte d.lpddr a len,
    ((lpBad d a len).filter fun e => decide (e.2 ≠ .single)).map (·.1), x)) touched

/-- What a word of the scratchpad that is read brings about. -/
def spdTouch (d : Die) (e : Nat × SpdMark) : Die :=
  match e.2 with
  | .single => spdCorrect d e.1
  | .double => spdUncorrectable d e.1
  | .good => d

theorem spdTouch_patrolAt (d : Die) (n : Nat × Nat) (e : Nat × SpdMark) :
    spdTouch (d.patrolAt n) e = (spdTouch d e).patrolAt n := by
  obtain ⟨w, mark⟩ := e
  cases mark with
  | good => rfl
  | single =>
    have waits (e : Die) : (e.patrolAt n).spdWb = e.spdWb := rfl
    change spdCorrect _ _ = (spdCorrect _ _).patrolAt n
    rw [spdCorrect, spdCorrect, count_patrolAt, waits]
    split <;> rfl
  | double =>
    change spdUncorrectable _ _ = (spdUncorrectable _ _).patrolAt n
    rw [spdUncorrectable, spdUncorrectable, count_patrolAt, flag_patrolAt]
    split <;> rfl

theorem spdRead_eq (client addr len : Nat) (d : Die) : spdRead client addr len d =
    (tabSlice zeroByte d.spd addr len, ((spdBad d addr len).filter fun e => decide (e.2 = .double)).map (·.1),
      (spdBad d addr len).foldl spdTouch (spdGrant client (portWords addr len) d)) := rfl

theorem spdRead_patrolAt (client addr len : Nat) (d : Die) (n : Nat × Nat) : spdRead client addr len (d.patrolAt n) =
    ((spdRead client addr len d).1, (spdRead client addr len d).2.1, (spdRead client addr len d).2.2.patrolAt n) := by
  have touched : (spdBad d addr len).foldl spdTouch ((spdGrant client (portWords addr len) d).patrolAt n) =
      ((spdBad d addr len).foldl spdTouch (spdGrant client (portWords addr len) d)).patrolAt n :=
    List.foldl_hom (fun d => d.patrolAt n) fun d e => spdTouch_patrolAt d n e
  rw [spdRead_eq, spdRead_eq]
  exact congrArg (fun x => (tabSlice zeroByte d.spd addr len,
    ((spdBad d addr len).filter fun e => decide (e.2 = .double)).map (·.1), x)) touched

/-- What pieces read, with the die on which they are read under another patrol. -/
def atPatrol (n : Nat × Nat) (r : Bytes × Bool × Die) : Bytes × Bool × Die := (r.1, r.2.1, r.2.2.patrolAt n)

theorem lpPieces_patrolAt (base : Nat) (ps : List (Nat × Nat)) (d : Die) (n : Nat × Nat) :
    lpPieces base ps (d.patrolAt n) = atPatrol n (lpPieces base ps d) := by
  rw [lpPieces, lpPieces]
  refine List.foldl_hom (init := ([], false, d)) (atPatrol n) fun r e => ?_
  dsimp only [atPatrol]
  rw [lpRead_patrolAt]

theorem spdPieces_patrolAt (base : Nat) (ps : List (Nat × Nat)) (d : Die) (n : Nat × Nat) :
    spdPieces base ps (d.patrolAt n) = atPatrol n (spdPieces base ps d) := by
  rw [spdPieces, spdPieces]
  refine List.foldl_hom (init := ([], false, d)) (atPatrol n) fun r e => ?_
  dsimp only [atPatrol]
  rw [spdRead_patrolAt]

theorem piecesChk_patrolAt (r : Req) (base : Nat) (ps : List (Nat × Nat)) (d : Die) (n : Nat × Nat) :
    piecesChk (d.patrolAt n) r base ps = piecesChk d r base ps := by
  have chk (a : Nat) : regionChk (d.patrolAt n) r a 32 = regionChk d r a 32 := rfl
  simp only [piecesChk, chk]

theorem piecesServed_patrolAt (base : Nat) (ps : List (Nat × Nat)) (d : Die) (n : Nat × Nat) :
    piecesServed base ps (d.patrolAt n) = piecesServed base ps d := by
  simp only [piecesServed, lpServes_patrolAt]

theorem lehrServes_patrolAt (es : List (Nat × Nat)) (d : Die) (n : Nat × Nat) :
    lehrServes es (d.patrolAt n) = lehrServes es d := by
  simp only [lehrServes, lpServes_patrolAt]

section
variable (n : Nat) (b : HeldBead) (d : Die) (k : Nat × Nat)

theorem beadPieces_patrolAt : beadPieces (d.patrolAt k) n b = beadPieces d n b := rfl

theorem spillByte_patrolAt : spillByte (d.patrolAt k) n = spillByte d n := rfl

theorem rodServes_patrolAt : rodServes (d.patrolAt k) n b = rodServes d n b := by
  rw [rodServes, rodServes, beadPieces_patrolAt, spillByte_patrolAt, piecesServed_patrolAt]
  rfl

/-- The payload of a bead does not depend on the patrol. -/
theorem rodPayload_patrolAt : (rodPayload n b (d.patrolAt k)).1 = (rodPayload n b d).1 := by
  have req : spillReq (d.patrolAt k) n false = spillReq d n false := rfl
  have ring : ringByte (d.patrolAt k) n = ringByte d n := rfl
  rw [rodPayload, rodPayload, beadPieces_patrolAt, spillByte_patrolAt, req, ring, piecesChk_patrolAt,
    lpPieces_patrolAt, spdPieces_patrolAt]
  dsimp only
  split
  · split <;> rfl
  · rfl

end

/-! ## Requests for parts (R452) -/

theorem logicalOf_setDie (s : State) (p q : Nat) (d : Die) : (s.setDie q d).logicalOf p = s.logicalOf p := rfl

theorem manifest_setDie {s : State} {p : Nat} {d : Die} (same : d.lpddr = (s.die p).lpddr) (j : Nat) :
    (s.setDie p d).manifest j = s.manifest j := by
  have job : (s.setDie p d).job j = s.job j := rfl
  have phys : (s.setDie p d).physOf (s.job j).manDie = s.physOf (s.job j).manDie := rfl
  have bytes (q : Nat) : ((s.setDie p d).die q).lpddr = (s.die q).lpddr := by
    rw [die_setDie]
    split
    · subst q
      exact same
    · rfl
  rw [State.manifest, State.manifest, job, phys]
  dsimp only
  split
  · rfl
  · rw [bytes]

section
variable {d e : Die} (regs : d.regs = e.regs)
include regs

theorem reg_of_regs (o : Nat) : d.reg o = e.reg o := by rw [Die.reg, Die.reg, regs]

theorem liveSlot_of_regs (t n : Nat) : liveSlot d t n = liveSlot e t n := by
  have state (k : Nat) : slotState d t k = slotState e t k := Die.get_congr _ (reg_of_regs regs _)
  have number (k : Nat) : slotNumber d t k = slotNumber e t k := Die.get_congr _ (reg_of_regs regs _)
  simp only [liveSlot, state, number]

theorem jobStages_of_regs (j : Nat) : jobStages d j = jobStages e j := by
  have on (t : Nat) : verEnable d t = verEnable e t := congrArg (bitOf · 0) (reg_of_regs regs _)
  have job (t : Nat) : verJob d t = verJob e t := Die.get_congr _ (reg_of_regs regs _)
  simp only [jobStages, on, job]

end

section
variable {s : State} {p : Nat} {d : Die} (lpddr : d.lpddr = (s.die p).lpddr) (regs : d.regs = (s.die p).regs)
  (logical : d.logical = (s.die p).logical)
include lpddr regs logical

/-- What a die holds of a part lies in its registers and its LPDDR. -/
theorem lehrHolds_setDie (b : Bead) : lehrHolds (s.setDie p d) d b = lehrHolds s (s.die p) b := by
  rw [lehrHolds, lehrHolds, jobStages_of_regs regs, liveSlot_of_regs regs, manifest_setDie lpddr, logical]
  simp only [reg_of_regs regs]

end

section
variable {s : State} {d : Die} {b : Bead}

theorem lehrHolds_program {e : Nat × Nat × Nat} (kind : b.handle % 4 = 2)
    (entry : (progEntries (s.manifest b.job) d.logical.toNat)[b.tag]? = some e) :
    lehrHolds s d b = some (.dma, 0, (progExtent e).1, (progExtent e).2) := by
  rw [lehrHolds]
  dsimp only
  rw [kind, entry]
  rfl

theorem lehrHolds_slot {k : Nat} (kind : b.handle % 4 = 1) (stage : b.handle / 4 ∈ jobStages d b.job)
    (live : liveSlot d (b.handle / 4) b.version = some k) : lehrHolds s d b =
      let w := d.reg (verBase (b.handle / 4) + 4)
      some (.lehr, b.job, (bitsOf w 14 0 + k * bitsOf w 26 15) * 2 ^ 20, bitsOf w 26 15 * 2 ^ 20) := by
  have listed : (jobStages d b.job).contains (b.handle / 4) = true := List.contains_iff_mem.mpr stage
  rw [lehrHolds]
  generalize 2 ^ 20 = unit
  dsimp only
  rw [kind, if_pos listed, live]
  rfl

end

/-- A part that is held, read and queued, or a NAK. -/
theorem lehrAnswer_holds {p : Nat} {b : Bead} {s : State} {cls : AccClass} {job a n : Nat}
    (holds : lehrHolds s (s.die p) b = some (cls, job, a, n)) : lehrAnswer p b s =
      let r := lehrRead cls job a n (s.die p)
      let s' := s.setDie p r.2
      match r.1 with
      | .ok (bs, false) => queuePart p b.srcPkg b.srcDie b.srcRod b.job b.version false bs s'
      | _ => s'.modDie p (nakBead b .unreachable) := by
  rw [lehrAnswer, holds] <;>
    (generalize lehrRead = reads
     dsimp only
     generalize reads cls job a n (s.die p) = r
     obtain ⟨x, d⟩ := r
     rfl)

theorem lehrAnswer_lacks {p : Nat} {b : Bead} {s : State} (lacks : lehrHolds s (s.die p) b = none) :
    lehrAnswer p b s = s.modDie p (nakBead b .unreachable) := by
  rw [lehrAnswer, lacks]

section
variable {s : State} {p : PDie} {h : BitVec 256} {rest : List Frame} (act : (s.die p).run = .active)
  (whole : hdrOk h = true) (control : isControl h 7 = true) (front : (s.die p).inbox = .bead h [] :: rest)
include act whole control front

theorem lehrRequest_front (acts : (!lehrRequestOk h || lehrReady s (s.die p) (beadOf h)) = true) :
    lehrRequest p h s =
      if !lehrRequestOk h then
        (s.modDie p fun d => { d with inbox := rest }).modDie p (nakBead (beadOf h) .malformed)
      else lehrAnswer p (beadOf h) (s.modDie p fun d => { d with inbox := rest }) := by
  rw [lehrRequest, if_neg (not_not_intro act), whole, control, Bool.true_and, Bool.true_and, acts,
    State.fromInbox_front front]
  exact if_neg (by decide)

/-- The state in which a request at the front of the inbox is answered. -/
def asked (s : State) (p : PDie) (rest : List Frame) (k : Nat × Nat) : State :=
  (s.setDie p ((s.die p).patrolAt k)).modDie p fun d => { d with inbox := rest }

omit act whole control front in
theorem asked_eq (k : Nat × Nat) : asked s p rest k = s.setDie p ((s.die p).taken k rest) := by
  rw [asked, State.modDie, die_setDie_self, setDie_setDie]
  rfl

omit act whole control front in
theorem lehrHolds_asked (k : Nat × Nat) (b : Bead) :
    lehrHolds (asked s p rest k) ((asked s p rest k).die p) b = lehrHolds s (s.die p) b := by
  rw [asked_eq, die_setDie_self]
  exact lehrHolds_setDie (s := s) (p := p) (d := (s.die p).taken k rest) rfl rfl rfl b

omit act whole control front in
theorem lehrReady_patrolAt (k : Nat × Nat) (b : Bead) :
    lehrReady (s.setDie p ((s.die p).patrolAt k)) ((s.die p).patrolAt k) b = lehrReady s (s.die p) b := by
  rw [lehrReady, lehrReady, lehrHolds_setDie (s := s) (p := p) (d := (s.die p).patrolAt k) rfl rfl rfl b]
  split
  · rfl
  · exact lehrServes_patrolAt ..

theorem lehrRequest_patrolAt (k : Nat × Nat) (acts : (!lehrRequestOk h || lehrReady s (s.die p) (beadOf h)) = true) :
    lehrRequest p h (s.setDie p ((s.die p).patrolAt k)) =
      if !lehrRequestOk h then (asked s p rest k).modDie p (nakBead (beadOf h) .malformed)
      else lehrAnswer p (beadOf h) (asked s p rest k) := by
  refine lehrRequest_front ?_ whole control ?_ ?_
  · rw [die_setDie_self]
    exact act
  · rw [die_setDie_self]
    exact front
  · rw [die_setDie_self, lehrReady_patrolAt]
    exact acts

/-- Of two changes of a die that is being asked: the taking of the bead, and what follows it. -/
theorem lehrRequest_malformed (bad : lehrRequestOk h = false) :
    (Host.Outcome.next (s.atActive p (lehrRequest p h)) : Host.Outcome State Fault Refusal) =
      .next (s.ran p fun d => nakBead (beadOf h) .malformed { d with inbox := rest }) := by
  rw [ran_eq_ranAt]
  refine next_atActive act fun k => ?_
  rw [lehrRequest_patrolAt act whole control front k (by simp [bad]), if_pos (by simp [bad]), asked, modDie_modDie]

theorem lehrRequest_lacks (good : lehrRequestOk h = true) (ready : lehrReady s (s.die p) (beadOf h) = true)
    (lacks : lehrHolds s (s.die p) (beadOf h) = none) :
    (Host.Outcome.next (s.atActive p (lehrRequest p h)) : Host.Outcome State Fault Refusal) =
      .next (s.ran p fun d => nakBead (beadOf h) .unreachable { d with inbox := rest }) := by
  rw [ran_eq_ranAt]
  refine next_atActive act fun k => ?_
  rw [lehrRequest_patrolAt act whole control front k (by simp [ready]), if_neg (by simp [good]),
    lehrAnswer_lacks ((lehrHolds_asked k _).trans lacks), asked, modDie_modDie]

theorem lehrRequest_answers (good : lehrRequestOk h = true) (ready : lehrReady s (s.die p) (beadOf h) = true)
    {cls : AccClass} {job a n : Nat} (holds : lehrHolds s (s.die p) (beadOf h) = some (cls, job, a, n))
    (k : Nat × Nat) : lehrRequest p h (s.setDie p ((s.die p).patrolAt k)) =
      let r := lehrRead cls job a n ((asked s p rest k).die p)
      let s' := (asked s p rest k).setDie p r.2
      match r.1 with
      | .ok (bs, false) =>
        queuePart p (beadOf h).srcPkg (beadOf h).srcDie (beadOf h).srcRod (beadOf h).job (beadOf h).version false bs s'
      | _ => s'.modDie p (nakBead (beadOf h) .unreachable) := by
  rw [lehrRequest_patrolAt act whole control front k (by simp [ready]), if_neg (by simp [good]),
    lehrAnswer_holds ((lehrHolds_asked k _).trans holds)]

end

/-! ## Parts that are received (R452) -/

theorem partGrown_partial {p l j : Nat} {x : LehrPart} (more : List LehrPart) (s : State) (part : partWhole x = false) :
    partGrown p l j x more s = s := by
  rw [partGrown]
  exact if_pos (by simp [part])

section
variable {s : State} {p : Nat} {b : HeldBead} {rest : List HeldBead} {x : LehrPart} {more : List LehrPart} {l n j : Nat}
  (rod : (s.die p).get ⟨0xE0000, 11, 0⟩ = n) (beads : rodBeads (s.die p) n = b :: rest)
  (wants : (s.die p).lehrWant = x :: more) (logical : s.logicalOf p = some l)
  (job : (s.die p).lehrJob.toNat = j) (serves : rodServes (s.die p) n b = true)
include rod beads wants logical job serves

omit job in
theorem lehrPartReceive_fails {st : Status} (read : (rodPayload n b (s.die p)).1 = .error st) :
    lehrPartReceive p s = endParts p st (s.setDie p (rodPayload n b (s.die p)).2) := by
  rw [lehrPartReceive]
  dsimp only
  rw [rod, beads, wants, logical]
  refine (if_neg (by simp [serves])).trans ?_
  generalize rodPayload n b (s.die p) = r at read ⊢
  obtain ⟨x, d⟩ := r
  cases read
  rfl

theorem lehrPartReceive_grows {bs : Bytes} (read : (rodPayload n b (s.die p)).1 = .ok bs)
    (place : partWhole { x with got := x.got ++ bs } = true →
      lehrServes (partPlaces s l j { x with got := x.got ++ bs }) (s.die p) = true) :
    lehrPartReceive p s = partGrown p l j { x with got := x.got ++ bs } more
      (s.setDie p { releaseBead n b rest (rodPayload n b (s.die p)).2 with
        lehrWant := { x with got := x.got ++ bs } :: more }) := by
  have waits : ¬ (partWhole { x with got := x.got ++ bs } &&
      !lehrServes (partPlaces s l j { x with got := x.got ++ bs }) (s.die p)) = true := by
    cases whole : partWhole { x with got := x.got ++ bs } with
    | false => simp
    | true => simp [place whole]
  rw [lehrPartReceive]
  dsimp only
  rw [rod, beads, wants, logical, job]
  refine (if_neg (by simp [serves])).trans ?_
  generalize rodPayload n b (s.die p) = r at read ⊢
  obtain ⟨y, d⟩ := r
  cases read
  exact if_neg waits

omit job in
/-- A part received at a die under any patrol: the read fails. -/
theorem lehrPartReceive_patrolAt_fails (k : Nat × Nat) {st : Status} (read : (rodPayload n b (s.die p)).1 = .error st) :
    lehrPartReceive p (s.setDie p ((s.die p).patrolAt k)) =
      endParts p st ((s.setDie p ((s.die p).patrolAt k)).modDie p fun d => (rodPayload n b d).2) := by
  have die := die_setDie_self s p ((s.die p).patrolAt k)
  refine lehrPartReceive_fails (s := s.setDie p ((s.die p).patrolAt k)) (b := b) (rest := rest) (x := x)
    (more := more) (l := l) ?_ ?_ ?_ ((logicalOf_setDie ..).trans logical) ?_ ?_
  · rw [die]
    exact rod
  · rw [die]
    exact beads
  · rw [die]
    exact wants
  · rw [die, rodServes_patrolAt]
    exact serves
  · rw [die, rodPayload_patrolAt]
    exact read

/-- A part received at a die under any patrol: it grows. -/
theorem lehrPartReceive_patrolAt_grows (k : Nat × Nat) {bs : Bytes} {y : LehrPart}
    (grown : { x with got := x.got ++ bs } = y)
    (read : (rodPayload n b (s.die p)).1 = .ok bs)
    (place : partWhole y = true → lehrServes (partPlaces s l j y) (s.die p) = true) :
    lehrPartReceive p (s.setDie p ((s.die p).patrolAt k)) =
      partGrown p l j y more ((s.setDie p ((s.die p).patrolAt k)).modDie p fun d =>
        { releaseBead n b rest (rodPayload n b d).2 with lehrWant := y :: more }) := by
  subst grown
  have die := die_setDie_self s p ((s.die p).patrolAt k)
  refine lehrPartReceive_grows (s := s.setDie p ((s.die p).patrolAt k)) (b := b) (rest := rest) (x := x)
    (more := more) (l := l) ?_ ?_ ?_ ((logicalOf_setDie ..).trans logical) ?_ ?_ ?_ ?_
  · rw [die]
    exact rod
  · rw [die]
    exact beads
  · rw [die]
    exact wants
  · rw [die]
    exact job
  · rw [die, rodServes_patrolAt]
    exact serves
  · rw [die, rodPayload_patrolAt]
    exact read
  · intro whole
    rw [die, lehrServes_patrolAt]
    exact place whole

end

/-! ## The registers of the Lehr (R447, R448, R451, R453) -/

/-- An op of the Lehr that is stored, with `GO`. -/
def storeOp (op v : Nat) (d : Die) : Die :=
  { (d.put ⟨0xE000C, 19, 0⟩ (bitsOf v 19 0)).put ⟨0xE000C, 21, 20⟩ op with lhrGo := true }

theorem lhrOpWrite_stores {op v : Nat} (legal : op < 3) (bits : bitsOf v 30 22 = 0) (d : Die) :
    lhrOpWrite (lhrOp op v) d = storeOp op v d := by
  have kind : bitsOf (lhrOp op v) 21 20 = op := by
    rw [lhrOp, bitsOf_putBits_apart _ _ (by decide) (by decide), bitsOf_putBits]
    exact Nat.mod_eq_of_lt (by omega)
  have window : bitsOf (lhrOp op v) 19 0 = bitsOf v 19 0 := by
    rw [lhrOp, bitsOf_putBits_apart _ _ (by decide) (by decide), bitsOf_putBits_apart _ _ (by decide) (by decide)]
  have reserved : bitsOf (lhrOp op v) 30 22 = 0 := by
    rw [lhrOp, bitsOf_putBits_apart _ _ (by decide) (by decide), bitsOf_putBits_apart _ _ (by decide) (by decide), bits]
  have go : bitOf (lhrOp op v) 31 = true := by
    rw [bitOf, lhrOp, bitsOf_putBits]
    decide
  have known : ¬ op = 3 := by omega
  simp only [lhrOpWrite, kind, window, reserved, go, known, storeOp, decide_false, Bool.false_eq_true, ne_eq,
    not_true_eq_false, or_self, if_false, if_true]

theorem ldgResumeWrite_resumes {v : Nat} (bits : bitsOf v 30 24 = 0) (d : Die) :
    ldgResumeWrite true (putBits v 31 31 1) d =
      let d' := d.put ⟨0xE0024, 23, 0⟩ (bitsOf v 23 0)
      let d' := d'.setReg48 0x92008 (d'.reg 0xE0020 + d'.get ⟨0xE0024, 15, 0⟩ <<< 32)
      let d' := (d'.put ⟨0x92004, 1, 0⟩ 1).put ⟨0x92004, 15, 8⟩ (d'.get ⟨0xE0024, 23, 16⟩)
      ldgDecide (1, 0x0A) (d'.put ⟨0x92000, 0, 0⟩ 1) := by
  have value : bitsOf (putBits v 31 31 1) 23 0 = bitsOf v 23 0 := bitsOf_putBits_apart _ _ (by decide) (by decide)
  have reserved : bitsOf (putBits v 31 31 1) 30 24 = 0 := by
    rw [bitsOf_putBits_apart _ _ (by decide) (by decide), bits]
  have go : bitOf (putBits v 31 31 1) 31 = true := by
    rw [bitOf, bitsOf_putBits]
    decide
  rw [ldgResumeWrite]
  refine (if_neg (by decide)).trans ?_
  rw [value, reserved, go]
  refine (if_pos rfl).trans ?_
  rw [if_neg (show ¬ (0 : Nat) ≠ 0 by decide)]
  rfl

/-! ## Parisons and restores (R452, R454) -/

/-- The parisons of a die that are unpinned. -/
def unpinned (l j : Nat) (d : Die) (s : State) (e : Nat × Nat × Bool) : Bool :=
  decide (e.1 / 4 = l) && e.2.2 && objectMade s d j e.2.1

theorem parisonUnpin_unpins {s : State} {p l : Nat} (j : Nat) (logical : s.logicalOf p = some l)
    (sent : (s.die p).lehrSent = []) (out : ((s.die p).lehrOut.any fun o => o.journal) = false) :
    parisonUnpin p j s =
      (((s.job j).parisons.filter (unpinned l j (s.die p) s)).foldl
        (fun s e => s.modDie p (pinStage false (e.1 % 4) ((e.2.1 + 1) % 256))) s).modJob j fun i =>
          { i with parisons := i.parisons.filter fun e => !unpinned l j (s.die p) s e } := by
  rw [parisonUnpin]
  dsimp only
  rw [logical, out, sent]
  rfl

theorem replicaRestore_restores {s : State} (p j : Nat) (on : s.reckoner = true) (faulted : s.jobState j = 5) :
    replicaRestore p j s = restoreFrom (s.partner j) p j s := by
  rw [replicaRestore]
  exact if_pos (by simp [on, faulted])

theorem resetPartition_resets {c : CmdId} {x : Cmd} {s : State} (running : s.cmd? c = some x)
    (op : x.opcode = 0x0303) (fresh : x.begun = false) (whole : bitOf x.imm.toNat 8 = false)
    (formed : s.partState (bitsOf x.imm.toNat 2 0) = 1) :
    resetPartition c s = commandReset (bitsOf x.imm.toNat 2 0) (s.modCmd c fun y =>
      { y with begun := true, partition := bitsOf x.imm.toNat 2 0 }) := by
  rw [resetPartition, onCmd_acts running _ op]
  dsimp only
  rw [if_neg (by simp [fresh, whole, formed]), if_neg (not_not_intro formed)]

theorem resetDevice_resets {c : CmdId} {x : Cmd} {s : State} (running : s.cmd? c = some x)
    (op : x.opcode = 0x0303) (device : bitOf x.imm.toNat 8 = true) :
    resetDevice c s = deviceReset 11 (bitsOf x.imm.toNat 2 0) none s := by
  rw [resetDevice, onCmd_acts running _ op]
  exact if_pos device

/-- Settles O51: each row by the lemma on it; what a row at a die reads is what it would read under another patrol. -/
theorem recoveryComplete : Obligations.RecoveryComplete := by
  unfold Obligations.RecoveryComplete
  intro p q s on part
  refine ⟨fun t act clocked isIn busy => ?_, rfl, ?_, fun late resets clocked => ⟨?_, ?_⟩,
    fun c x running op => ⟨fun fresh whole formed => ?_, fun device => ?_⟩, fun waits => ⟨?_, fun l r logical => ?_⟩,
    fun formed bound => ?_, fun act => ⟨fun j faulted => ?_, ?_, ?_, fun w v bits => ?_, fun j l logical sent out => ?_,
      fun v bits => ?_⟩⟩
  · intro ⟨job, runs, goes⟩
    exact congrArg Host.Outcome.next (watchdog_triggers act clocked isIn busy job runs goes)
  · exact congrArg Host.Outcome.next (if_pos on)
  · exact congrArg (fun t => Host.Outcome.next (jobsGo t)) (partitionReset_ends _ resets clocked on)
  · exact congrArg Host.Outcome.next (escalation_resets on resets clocked)
  · exact congrArg (fun t => Host.Outcome.next (jobsGo t)) (resetPartition_resets running op fresh whole formed)
  · exact congrArg Host.Outcome.next (resetDevice_resets running op device)
  · exact congrArg Host.Outcome.next (bindTimeout_resets on waits)
  · intro n s'
    have acts (r : Bool) : sparing p r s = withSpare p l r s' := sparing_acts on waits logical r
    refine ⟨fun none_ => ?_, fun b spare => ⟨?_, ?_⟩⟩
    · exact congrArg Host.Outcome.next ((acts r).trans (withSpare_none none_))
    · refine congrArg Host.Outcome.next ((acts true).trans ((withSpare_binds spare).trans ?_))
      generalize State.rowPart = parts
      rfl
    · exact congrArg Host.Outcome.next ((acts false).trans (withSpare_fails spare))
  · exact congrArg (fun t => Host.Outcome.next (jobsGo t)) (jobRecovery_recovers on formed bound)
  · exact next_atActive act fun _ => replicaRestore_restores _ _ on faulted
  · intro h rest whole control front b took
    refine ⟨fun bad => ?_, fun good ready => ⟨fun lacks => ?_, fun cls job a n holds => ?_⟩, fun e kind entry => ?_,
      fun k kind stage live => ?_⟩
    · exact lehrRequest_malformed act whole control front bad
    · exact lehrRequest_lacks act whole control front good ready lacks
    · refine next_atActive act fun k => ?_
      rw [lehrRequest_answers act whole control front good ready holds k]
      generalize lehrRead = reads
      rfl
    · exact lehrHolds_program kind entry
    · exact lehrHolds_slot kind stage live
  · intro b rest x more l beads wants logical n j serves
    refine ⟨fun bs read => ?_, fun st read => ?_⟩
    · intro y next
      refine ⟨fun part => ?_, fun whole place => ?_⟩
      · rw [ran_eq_ranAt]
        refine next_atActive act fun k => ?_
        rw [lehrPartReceive_patrolAt_grows rfl beads wants logical rfl serves k rfl read
          fun whole => absurd (part.symm.trans whole) Bool.false_ne_true]
        exact partGrown_partial more _ part
      · exact next_atActive act fun k =>
          lehrPartReceive_patrolAt_grows rfl beads wants logical rfl serves k rfl read fun _ => place
    · exact next_atActive act fun k => lehrPartReceive_patrolAt_fails rfl beads wants logical serves k read
  · exact ⟨next_onDie act fun _ => lhrOpWrite_stores (by decide) bits _,
      next_onDie act fun _ => lhrOpWrite_stores (by decide) bits _,
      next_onDie act fun _ => lhrOpWrite_stores (by decide) bits _⟩
  · refine next_atActive act fun k => ?_
    refine parisonUnpin_unpins (l := l) j.toNat logical ?_ ?_
    · rw [die_setDie_self]
      exact sent
    · rw [die_setDie_self]
      exact out
  · exact next_onDie act fun _ => ldgResumeWrite_resumes bits _

end Sys2Proof.Machine
end

section
/-! PROOFS. The part of the block that neither a start nor a reset of the device takes away: the NOR, the image, the
pins, and whether an autostart is under way (R58, R80). -/

namespace Sys2Proof.Machine

/-! ## The part of the state that stays -/

/-- What a reset of the device finds and leaves: the NOR (R60), the image taken from it (R64), the pins (R56), and the
autostart that is under way (R82). -/
structure Stored where
  nor : List Host.Cell
  image : Bytes
  pins : Pins
  autostart : Bool

def State.stored (s : State) : Stored := ⟨s.nor, s.image, s.pins, s.autostart⟩

/-- The stored part of a state built field by field. -/
@[simp] theorem stored_mk
    (x0 pins x2 x3 x4 x5 x6 x7 x8 x9 x10 x11 x12 x13 nor img x16 x17 x18 x19 x20 x21 x22 x23 x24 x25 x26 x27 x28 auto
    x30 x31 x32 x33 x34 x35 x36 x37 x38 x39 x40 x41) :
    State.stored (State.mk x0 pins x2 x3 x4 x5 x6 x7 x8 x9 x10 x11 x12 x13 nor img x16 x17 x18 x19 x20 x21 x22 x23 x24
      x25 x26 x27 x28 auto x30 x31 x32 x33 x34 x35 x36 x37 x38 x39 x40 x41) = ⟨nor, img, pins, auto⟩ := rfl

@[simp] theorem stored_fold (s : State) : Stored.mk s.nor s.image s.pins s.autostart = s.stored := rfl

@[simp] theorem stored_ite (c : Prop) [Decidable c] (a b : State) :
    (if c then a else b).stored = if c then a.stored else b.stored := apply_ite ..

@[simp] theorem stored_foldl {α : Type}
    {f : State → α → State} (h : ∀ s a, (f s a).stored = s.stored) (l : List α) (s : State) :
    (l.foldl f s).stored = s.stored := by
  induction l generalizing s with
  | nil => rfl
  | cons a l ih => exact (ih (f s a)).trans (h s a)

/-! ## The named operations over the block -/

@[simp] theorem stored_setDie (s : State) (p : Nat) (d : Die) : (s.setDie p d).stored = s.stored := by
  simp [State.setDie]

@[simp] theorem stored_modDie (s : State) (p : Nat) (f : Die → Die) : (s.modDie p f).stored = s.stored := by
  simp [State.modDie]

@[simp] theorem stored_modDies (s : State) (ps : List Nat) (f : Die → Die) : (s.modDies ps f).stored = s.stored := by
  simp [State.modDies]

@[simp] theorem stored_draw (s : State) : (s.draw).2.stored = s.stored := by simp [State.draw]

@[simp] theorem stored_output (s : State) (o : Output) : (s.output o).stored = s.stored := by simp [State.output]

@[simp] theorem stored_setReg (s : State) (off v : Nat) : (s.setReg off v).stored = s.stored := by simp [State.setReg]

@[simp] theorem stored_put (s : State) (f : Fld) (v : Nat) : (s.put f v).stored = s.stored := by simp [State.put]

@[simp] theorem stored_resetRegs (s : State) (lo hi : Nat) : (s.resetRegs lo hi).stored = s.stored := by
  simp [State.resetRegs]

@[simp] theorem stored_setBoot (s : State) (v : Nat) : (s.setBoot v).stored = s.stored := by simp [State.setBoot]

@[simp] theorem stored_setDieState (s : State) (p v : Nat) : (s.setDieState p v).stored = s.stored := by
  simp [State.setDieState]

@[simp] theorem stored_setJobState (s : State) (j v : Nat) : (s.setJobState j v).stored = s.stored := by
  simp [State.setJobState]

@[simp] theorem stored_setJobCause (s : State) (j : Nat) (st : Status) : (s.setJobCause j st).stored = s.stored := by
  simp [State.setJobCause]

@[simp] theorem stored_setJob (s : State) (j : Nat) (i : JobInfo) : (s.setJob j i).stored = s.stored := by
  simp [State.setJob]

@[simp] theorem stored_modJob (s : State) (j : Nat) (f : JobInfo → JobInfo) : (s.modJob j f).stored = s.stored := by
  simp [State.modJob]

@[simp] theorem stored_setFn (s : State) (f : Nat) (x : Fn) : (s.setFn f x).stored = s.stored := by simp [State.setFn]

@[simp] theorem stored_modFn (s : State) (f : Nat) (g : Fn → Fn) : (s.modFn f g).stored = s.stored := by
  simp [State.modFn]

@[simp] theorem stored_imagePower (s : State) : (imagePower s).stored = s.stored := by simp [imagePower]

@[simp] theorem stored_writeRoutes (s : State) : (writeRoutes s).stored = s.stored := by simp [writeRoutes]

@[simp] theorem stored_setEngine (s : State) (n : Nat) (e : Engine) : (s.setEngine n e).stored = s.stored := by
  simp [State.setEngine]

@[simp] theorem stored_hostWrite (f : FnId) (addr : Nat) (bs : Bytes) (bulk : Bool) (s : State) :
    (hostWrite f addr bs bulk s).stored = s.stored := by
  simp [hostWrite]

@[simp] theorem stored_bootAnswer (st : Status) (s : State) : (bootAnswer st s).stored = s.stored := by
  simp [bootAnswer]

@[simp] theorem stored_complete (f q : Nat) (x : Finished) (s : State) : (complete f q x s).stored = s.stored := by
  simp [complete]

@[simp] theorem stored_fillSlot (c : Cmd) (st : Status) (bs : Bytes) (s : State) :
    (fillSlot c st bs s).stored = s.stored := by
  simp only [fillSlot]
  (repeat' split) <;> simp

@[simp] theorem stored_emptySlot (c : Cmd) (s : State) : (emptySlot c s).stored = s.stored := by
  unfold emptySlot
  split <;> simp

@[simp] theorem stored_conclude (c : Cmd) (st : Status) (bs : Bytes) (extra : BitVec 64) (s : State) :
    (conclude c st bs extra s).stored = s.stored := by
  simp [conclude]

@[simp] theorem stored_finish (c : Cmd) (st : Status) (bs : Bytes) (extra : BitVec 64) (s : State) :
    (finish c st bs extra s).stored = s.stored := by
  simp [finish]

@[simp] theorem stored_answer (c : Cmd) (st : Status) (s : State) : (answer c st s).stored = s.stored := by
  simp [answer]

@[simp] theorem stored_invalidate (f : Nat) (s : State) : (invalidate f s).stored = s.stored := by simp [invalidate]

@[simp] theorem stored_invalidateAll (s : State) : (invalidateAll s).stored = s.stored := by simp [invalidateAll]

/-! ## Laser bays -/

@[simp] theorem stored_setBay (s : State) (k : Nat) (b : Bay) : (s.setBay k b).stored = s.stored := by
  simp [State.setBay]

@[simp] theorem stored_setBayBit (k i : Nat) (v : Bool) (s : State) : (setBayBit k i v s).stored = s.stored := by
  simp [setBayBit]

@[simp] theorem stored_bayEvent (k : Nat) (s : State) : (bayEvent k s).stored = s.stored := by simp [bayEvent]

@[simp] theorem stored_setBayState (k v : Nat) (s : State) : (setBayState k v s).stored = s.stored := by
  simp [setBayState]

@[simp] theorem stored_gateBay (k : Nat) (s : State) : (gateBay k s).stored = s.stored := by simp [gateBay]

@[simp] theorem stored_enableBay (k : Nat) (on : Bool) (s : State) : (enableBay k on s).stored = s.stored := by
  simp [enableBay]

@[simp] theorem stored_wantPower (k mw : Nat) (s : State) : (wantPower k mw s).stored = s.stored := by simp [wantPower]

@[simp] theorem stored_baysCold (s : State) : (baysCold s).stored = s.stored := by simp [baysCold]

/-! ## Dies, records and resets -/

@[simp] theorem stored_advanceLife (l : Nat) (s : State) : (advanceLife l s).stored = s.stored := by
  simp only [advanceLife]
  split <;> simp

@[simp] theorem stored_powerOn (r : DieRun) (mv p : Nat) (s : State) : (powerOn r mv p s).stored = s.stored := by
  simp [powerOn]

@[simp] theorem stored_bindDie (l p : Nat) (s : State) : (bindDie l p s).stored = s.stored := by simp [bindDie]

@[simp] theorem stored_unbind (l : Nat) (s : State) : (unbind l s).stored = s.stored := by
  unfold unbind
  split <;> simp

@[simp] theorem stored_degradeRow (n : Nat) (s : State) : (degradeRow n s).stored = s.stored := by simp [degradeRow]

@[simp] theorem stored_cruStart (s : State) : (cruStart s).stored = s.stored := by simp [cruStart]

theorem stored_takeKeys {img : Bytes} {cold : Bool} {s t : State} (h : takeKeys img cold s = some t) :
    t.stored = s.stored := by
  unfold takeKeys at h
  dsimp only at h
  split at h
  · cases h
  · split at h
    · cases h
      simp
    · cases h

@[simp] theorem stored_endCmds (who : Cmd → Bool) (st : Status) (s : State) : (endCmds who st s).stored = s.stored := by
  simp [endCmds]

@[simp] theorem stored_endEval (j : Nat) (st : Status) (s : State) : (endEval j st s).stored = s.stored := by
  simp only [endEval]
  (repeat' split) <;> simp

@[simp] theorem stored_endKernels (j : Nat) (s : State) : (endKernels j s).stored = s.stored := by simp [endKernels]

@[simp] theorem stored_endRestores (j : Nat) (s : State) : (endRestores j s).stored = s.stored := by simp [endRestores]

@[simp] theorem stored_resetJob (s : State) (j : Nat) : (resetJob s j).stored = s.stored := by simp [resetJob]

@[simp] theorem stored_record (code part : Nat) (device : Bool) (p : Option Nat) (s : State) :
    (record code part device p s).stored = s.stored := by
  simp [record]

@[simp] theorem stored_halt (st : Status) (step : Nat) (s : State) : (halt st step s).stored = s.stored := by
  simp [halt]

@[simp] theorem stored_deviceReset (code part : Nat) (p : Option Nat) (s : State) :
    (deviceReset code part p s).stored = s.stored := by
  have back (t : State) : (if retainedOk t then
      match takeKeys t.image false t with
      | some u => u
      | none => halt .unverified 0xA t
    else halt .unverified 0xA t).stored = t.stored := by
    split
    · split
      · next keys => exact stored_takeKeys keys
      · simp
    · simp
  unfold deviceReset
  extract_lets recorded recovering counted ended waiting halting off engines cleared started
  have same : waiting.stored = s.stored := by
    have counts : counted.stored = s.stored := by simp [counted, recorded]
    have ends : ended.stored = counted.stored := (stored_foldl stored_resetJob _ _).trans rfl
    simp only [waiting, stored_mk, stored_fold, ends, counts]
  clear_value waiting
  refine (back started).trans ?_
  simp [started, cleared, engines, off, halting, same]

@[simp] theorem stored_putDown (p : Nat) (s : State) : (putDown p s).stored = s.stored := by simp [putDown]

@[simp] theorem stored_coldFailover (p n : Nat) (narrow : Bool) (s : State) :
    (coldFailover p n narrow s).stored = s.stored := by
  simp [coldFailover]

@[simp] theorem stored_putAside (p : Nat) (s : State) : (putAside p s).stored = s.stored := by
  simp only [putAside]
  split <;> simp

@[simp] theorem stored_loseRow (n : Nat) (s : State) : (loseRow n s).stored = s.stored := by
  have degraded := stored_degradeRow n s
  unfold loseRow
  generalize degradeRow n s = t at degraded ⊢
  dsimp only
  split <;> simp [degraded]

@[simp] theorem stored_retire (p : Nat) (s : State) : (retire p s).stored = s.stored := by
  simp only [retire]
  (repeat' split) <;> simp

@[simp] theorem stored_showRecords (l : Nat) (s : State) : (showRecords l s).stored = s.stored := by
  unfold showRecords
  split <;> simp

@[simp] theorem stored_markFresh (part l : Nat) (s : State) : (markFresh part l s).stored = s.stored := by
  simp [markFresh]

@[simp] theorem stored_takeNumber (l p : Nat) (s : State) : (takeNumber l p s).stored = s.stored := by simp [takeNumber]

@[simp] theorem stored_carry (n p : Nat) (alt : Bool) (rate : Nat) (s : State) :
    (carry n p alt rate s).stored = s.stored := by
  simp [carry]

@[simp] theorem stored_engineUp (n rate : Nat) (primary alternate : Bool) (s : State) :
    (engineUp n rate primary alternate s).stored = s.stored := by
  simp [engineUp]

/-! ## The warm start -/

@[simp] theorem stored_warmDie (trained : Nat → Bool) (s : State) (p : Nat) :
    (warmDie trained s p).stored = s.stored := by
  simp only [warmDie]
  (repeat' split) <;> simp

@[simp] theorem stored_warmSpare (trained : Nat → Bool) (s : State) (p : Nat) :
    (warmSpare trained s p).stored = s.stored := by
  simp only [warmSpare]
  (repeat' split) <;> simp

@[simp] theorem stored_warmFail (s : State) (p : Nat) : (warmFail s p).stored = s.stored := by simp [warmFail]

@[simp] theorem stored_warmEngine (primary alternate primaryRepair alternateRepair : BitVec 8) (s : State) (n : Nat) :
    (warmEngine primary alternate primaryRepair alternateRepair s n).stored = s.stored := by
  simp [warmEngine]

@[simp] theorem stored_cutHost (s : State) : (cutHost s).stored = s.stored := by simp [cutHost]

/-- The warm start ends the autostart and leaves the rest of what is stored (R80). -/
theorem stored_warmStart {s : State} (reset : s.boot = 0xA) (retrained : BitVec 72)
    (primary alternate primaryRepair alternateRepair : BitVec 8) :
    (warmStart retrained primary alternate primaryRepair alternateRepair s).stored =
      ⟨s.nor, s.image, s.pins, false⟩ := by
  rw [warmStart, if_neg (not_not_intro reset)]
  simp

/-! ## The commands that a warm start ends (R383) -/

theorem cmds_bootAnswer (st : Status) (s : State) : (bootAnswer st s).cmds = s.cmds := rfl

theorem cmds_modFn (s : State) (f : Nat) (g : Fn → Fn) : (s.modFn f g).cmds = s.cmds := rfl

theorem cmds_fillSlot (c : Cmd) (st : Status) (bs : Bytes) (s : State) : (fillSlot c st bs s).cmds = s.cmds := by
  unfold fillSlot
  split
  · rfl
  · dsimp only
    split <;> rfl

theorem cmds_emptySlot (c : Cmd) (s : State) : (emptySlot c s).cmds = s.cmds := by
  unfold emptySlot
  split <;> rfl

theorem cmds_conclude (c : Cmd) (st : Status) (bs : Bytes) (extra : BitVec 64) (s : State) :
    (conclude c st bs extra s).cmds = s.cmds := by
  have written (f : FnId) (t : State) : (hostWrite f c.result bs true t).cmds = t.cmds := by rw [hostWrite_eq]
  have filled : (if st = .ok ∨ c.passed then fillSlot c st bs s else emptySlot c s).cmds = s.cmds := by
    split
    · exact cmds_fillSlot ..
    · exact cmds_emptySlot ..
  generalize tied : (if st = .ok ∨ c.passed then fillSlot c st bs s else emptySlot c s) = t at filled
  rw [← filled]
  unfold conclude
  rw [tied]
  refine (cmds_modFn ..).trans ?_
  split
  · exact written _ _
  · rfl

theorem cmds_answer (c : Cmd) (st : Status) (s : State) :
    (answer c st s).cmds = s.cmds.filter fun x => decide (x.id ≠ c.id) := by
  unfold answer finish
  dsimp only
  split
  · rfl
  · split
    · exact cmds_conclude ..
    · rfl

theorem cmds_invalidateAll (s : State) : (invalidateAll s).cmds = s.cmds :=
  List.foldlRecOn (motive := fun t : State => t.cmds = s.cmds) _ _ rfl fun _ same _ _ => same

/-- Every command that a fold answers is gone, and none is added. -/
theorem mem_cmds_answerEach {x : Cmd} (l : List Cmd) (s : State)
    (h : x ∈ (l.foldl (fun s c => answer { c with begun := true } .timeout s) s).cmds) :
    x ∈ s.cmds ∧ ∀ c ∈ l, x.id ≠ c.id := by
  induction l generalizing s with
  | nil => exact ⟨h, by simp⟩
  | cons c l ih =>
    obtain ⟨there, others⟩ := ih _ h
    rw [cmds_answer, List.mem_filter] at there
    exact ⟨there.1, List.forall_mem_cons.2 ⟨of_decide_eq_true there.2, others⟩⟩

theorem cmds_cutHost (s : State) : (cutHost s).cmds = [] := by
  refine List.eq_nil_iff_forall_not_mem.2 fun x h => ?_
  obtain ⟨there, others⟩ := mem_cmds_answerEach _ _ h
  exact others x there rfl

end Sys2Proof.Machine
end

section
/-! PROOFS. Power-up, the stages of the boot, the boot commands, the warm start and the autostart (O53). -/

namespace Sys2Proof.Machine

/-! ## Power-up and the pins (R56, R58) -/

/-- A bit stored for each bay changes Punty registers alone. -/
theorem setBayBits_eq (i : Nat) (f : Nat → Bool) (l : List Nat) (s : State) :
    l.foldl (fun t k => setBayBit k i (f k) t) s =
      { s with punty := (l.foldl (fun t k => setBayBit k i (f k) t) s).punty } :=
  List.foldlRecOn (motive := fun t : State => t = { s with punty := t.punty }) l _ rfl fun t same k _ => by
    rw [setBayBit, State.put, State.setReg, same]

theorem boot_setBayBits (i : Nat) (f : Nat → Bool) (l : List Nat) (s : State) :
    (l.foldl (fun t k => setBayBit k i (f k) t) s).boot = s.boot :=
  List.foldlRecOn (motive := fun t : State => t.boot = s.boot) l _ rfl fun t same k _ =>
    (State.get_put_apart t _ (f := ⟨bayReg k, i, i⟩) (g := ⟨0x0, 3, 0⟩) (Nat.le_refl i) (by decide)
      (.inl (by dsimp only [bayReg]; omega))).trans same

theorem boot_setBoot (s : State) {v : Nat} (h : v < 16) : (s.setBoot v).boot = v :=
  (State.get_put_same s ⟨0, 3, 0⟩ v (by decide)).trans (Nat.mod_eq_of_lt h)

theorem cmds_setBoot (s : State) (v : Nat) : (s.setBoot v).cmds = s.cmds := rfl

theorem breakWrite_idle {s : State} (idle : ∀ c ∈ s.cmds, c.opcode ≠ 0x0202) : breakWrite s = s := by
  rw [breakWrite]
  exact if_neg (by simpa using fun _ => idle)

theorem vddAonApply_shows (s : State) : ∃ t, exec .vddAonApply s = .next t ∧ t.pins = { vddAon := true } ∧
    t.nor = (breakWrite s).nor ∧ ((∀ c ∈ s.cmds, c.opcode ≠ 0x0202) → t.nor = s.nor) ∧ t.crucible.otp = s.crucible.otp ∧
    t.dies = [] ∧ t.fns = [] ∧ t.cmds = [] ∧ t.boot = 0 ∧ t.pending = s.pending := by
  refine ⟨_, rfl, ?_⟩
  unfold vddAonApply
  extract_lets x views start
  have same := setBayBits_eq 3 (fun k => s.flag (bayReg k) 3) (List.range 8) start
  have boot := boot_setBayBits 3 (fun k => s.flag (bayReg k) 3) (List.range 8) start
  generalize List.foldl (fun t k => setBayBit k 3 (s.flag (bayReg k) 3) t) start (List.range 8) = t at same boot ⊢
  have pins : t.pins = start.pins := by rw [same]
  have nor : t.nor = start.nor := by rw [same]
  have crucible : t.crucible = start.crucible := by rw [same]
  have pending : t.pending = start.pending := by rw [same]
  have cmds : t.cmds = start.cmds := by rw [same]
  have dies : t.dies = start.dies := by rw [same]
  have fns : t.fns = start.fns := by rw [same]
  exact ⟨pins, nor, fun idle => nor.trans (by rw [← breakWrite_idle idle]), by rw [crucible], dies, fns, cmds, boot,
    pending⟩

theorem pins_coldClear (s : State) : (coldClear s).pins = s.pins := by
  have broken : (breakWrite s).pins = s.pins := by
    unfold breakWrite
    split <;> rfl
  unfold coldClear
  extract_lets bays cold off punty
  have same : punty.stored = (breakWrite s).stored := by simp [punty, off, bays]
  clear_value punty
  have pins : punty.pins = (breakWrite s).pins := congrArg Stored.pins same
  exact pins.trans broken

/-! ## The image (R64) -/

section
variable {s : State}

theorem imageVerify_passes {t : State} (boot : s.boot = 1) (passes : imageChk s.crucible.otp (norImage s.nor) = none)
    (keys : takeKeys (norImage s.nor) true s = some t) : imageVerify s = (keepImage (norImage s.nor) t).setBoot 3 := by
  rw [imageVerify, if_neg (not_not_intro boot)]
  dsimp only
  rw [passes, keys]

theorem imageVerify_fails {st : Status} (boot : s.boot = 1)
    (fails : imageChk s.crucible.otp (norImage s.nor) = some st) : imageVerify s = enterRecovery st s := by
  rw [imageVerify, if_neg (not_not_intro boot)]
  dsimp only
  rw [fails]

/-! ## DIES, MEMORY and the light engines (R68, R71, R73) -/

theorem diesBoot_row {answered passed router : BitVec 72} (boot : s.boot = 3)
    {live fwd : Nat → Bool} (lives : live = fun p => answered.getLsbD p && !s.retired.contains p && !(s.die p).clkLost)
    (fwds : fwd = fun p => live p && router.getLsbD p && decide (s.dieMap p ≠ 2)) :
    diesBoot answered passed router s =
      if (fwd 3 || fwd 4 || fwd 5) = true then
        (writeRoutes ((List.range 8).foldl
          (bootRow (fun p => live p && passed.getLsbD p && router.getLsbD p) fwd) s)).setBoot 4
      else halt .unreachable 3 s := by
  subst lives fwds
  rw [diesBoot, if_neg (not_not_intro boot)]
  extract_lets live ok fwd
  have ways : [3, 4, 5].any fwd = (fwd 3 || fwd 4 || fwd 5) := by simp [Bool.or_assoc]
  rw [ways]
  cases fwd 3 || fwd 4 || fwd 5 <;> rfl

theorem bootAnswerTimeout_retires (boot : s.boot = 3) (p : Nat) :
    bootAnswerTimeout p s = { s with retired := (s.retired.filter fun x => decide (x ≠ p)) ++ [p] } :=
  if_pos boot

theorem memoryBoot_trained {trained : BitVec 72} {readouts : Bytes} (boot : s.boot = 4)
    (all : ∀ p, p < 72 → (s.die p).run ≠ .off → trained.getLsbD p = true) :
    memoryBoot trained readouts s =
      let t := writeRoutes (s.modDies ((List.range 72).filter fun p => decide ((s.die p).run ≠ .off)) (memoryUp readouts))
      if t.fwWaiting then ({ t with fwWaiting := false } : State).setBoot 6 else t.setBoot 5 := by
  have up : ∀ p ∈ (List.range 72).filter fun p => decide ((s.die p).run ≠ .off), trained.getLsbD p = true := by
    intro p on
    obtain ⟨bound, on⟩ := List.mem_filter.1 on
    exact all p (List.mem_range.1 bound) (of_decide_eq_true on)
  have none : ((List.range 72).filter fun p => decide ((s.die p).run ≠ .off)).filter (fun p => !trained.getLsbD p) = [] :=
    List.filter_eq_nil_iff.2 fun p on => by simp [up p on]
  rw [memoryBoot, if_neg (not_not_intro boot)]
  dsimp only
  rw [none, List.filter_eq_self.2 up]
  rfl

theorem getElem_sliceB (bs : Bytes) (o n : Nat) {j : Nat} (h : j < (sliceB bs o n).length) :
    (sliceB bs o n)[j] = bs.getD (o + j) 0 := by
  have bound : j < n := sliceB_length bs o n ▸ h
  unfold sliceB at h ⊢
  by_cases inside : o + j < bs.length
  · rw [List.getElem_append_left (by simp; omega), List.getElem_take, List.getElem_drop,
      List.getD_eq_getElem _ _ inside]
  · rw [List.getElem_append_right (by simp; omega), List.getElem_replicate, List.getD_eq_default _ _ (by omega)]

theorem sliceB_sliceB (bs : Bytes) {o n i k : Nat} (h : i + k ≤ n) :
    sliceB (sliceB bs o n) i k = sliceB bs (o + i) k := by
  refine List.ext_getElem (by simp only [sliceB_length]) fun j h₁ h₂ => ?_
  have bound : i + j < n := by
    rw [sliceB_length] at h₂
    omega
  rw [getElem_sliceB, getElem_sliceB, List.getD_eq_getElem _ _ (by rwa [sliceB_length]), getElem_sliceB, Nat.add_assoc]

theorem natAt_sliceB (bs : Bytes) {o n i k : Nat} (h : i + k ≤ n) : natAt (sliceB bs o n) i k = natAt bs (o + i) k :=
  congrArg leNat (sliceB_sliceB bs h)

/-- An engine that no die of the package carries yet. -/
theorem engineBringup_fresh {n vendor device caps : Nat} {a b ra rb : Bool} (boot : s.boot = 4 ∨ s.boot = 5)
    (primary : wlkCarries (s.die (portDies n).1) = false) (alternate : wlkCarries (s.die (portDies n).2) = false) :
    engineBringup n vendor device caps a b ra rb s =
      let e := sliceB (sectionBytes s.image 5) (8 * n) 8
      if natAt e 0 2 ≠ vendor ∨ natAt e 2 2 ≠ device then (s.put ⟨0x48, 4 * n + 3, 4 * n⟩ 0).setEngine n {}
      else engineUp n (bestRate (natAt e 4 1 &&& caps)) (a && (!ra || bitOf (natAt e 5 1) 0))
        (b && (!rb || bitOf (natAt e 5 1) 0)) s := by
  have repair : bitOf (natAt (sliceB (sectionBytes s.image 5) (8 * n) 8) 5 1) 0 = s.laneRepair n := by
    rw [natAt_sliceB _ (by decide), State.laneRepair]
  rw [engineBringup, if_neg (by omega)]
  simp only [List.foldl_cons, List.foldl_nil, primary, alternate, Bool.false_eq_true, if_false, repair, State.moduleUp]

/-! ## The boot commands (R75, R77, R79, R393) -/

section
variable (link : s.hostLink = true) (free : s.flag 0x2C 8 = false)
include link free

theorem bootDoorbell_takes (pkt : Option Bytes) : bootDoorbell pkt s =
    match pkt with
    | none => bootAnswer .timeout s
    | some pkt => bootPacket pkt s := by
  unfold bootDoorbell
  refine (if_neg (by simp [link, free])).trans ?_
  cases pkt <;> rfl

end

theorem bootPacket_checked {pkt : Bytes} (op : natAt pkt 0 2 ≠ 0x0210) : bootPacket pkt s =
    match critChk .bootPage pkt s with
    | (some st, t) => bootAnswer st t
    | (none, t) => if natAt pkt 0 2 = 0x0201 ∨ natAt pkt 0 2 = 0x0202 then
        let u := t.put ⟨0x2C, 8, 8⟩ 1
        { u with nextCmd := u.nextCmd + 1, cmds := u.cmds ++ [bootCmd pkt u] }
      else bootAnswer .invalidState t := by
  rw [bootPacket]
  dsimp only
  rw [if_neg op]
  generalize critChk .bootPage pkt s = r
  obtain ⟨_ | st, t⟩ := r
  · dsimp only
    simp only [op, or_false]
  · rfl

theorem bootPacket_provision {pkt : Bytes} (op : natAt pkt 0 2 = 0x0210) : bootPacket pkt s =
    if packetOk .bootPage pkt then
      let u := s.put ⟨0x2C, 8, 8⟩ 1
      { u with nextCmd := u.nextCmd + 1, cmds := u.cmds ++ [bootCmd pkt u] }
    else bootAnswer .malformed s := by
  rw [bootPacket]
  dsimp only
  rw [if_pos op]
  cases packetOk .bootPage pkt
  · rfl
  · exact if_pos (.inr (.inr op))

theorem firmwareLoad_checked {c : Cmd} {img : Bytes} (loads : s.bootCmd? 0x0201 = some c) (low : 3 ≤ s.boot)
    (high : s.boot ≤ 5) (fresh : s.flag 0 5 = false) (length : img.length = c.srcLen) (current : s.current c = true) :
    firmwareLoad img s =
      match firmwareChk (sectionBytes s.image 8) img with
      | some st => answer c st s
      | none => answer c .ok (keepFirmware img s) := by
  rw [firmwareLoad, loads]
  exact (if_neg (by simp [fresh]; omega)).trans (if_neg (by simp [length, current]))

theorem provision_answers {c : Cmd} (provisions : s.bootCmd? 0x0210 = some c) : provision s =
    if s.provisioned then answer c .invalidState s
    else coldStart (answer c .ok { s with crucible :=
      { s.crucible with otp := some (sliceB c.payload 0 68, sliceB c.payload 68 32) } }) := by
  rw [provision, provisions]

section
variable {c : CmdId} {x : Cmd} {img : Bytes} {nor : List Host.Cell} (running : s.cmd? c = some x)
  (op : x.opcode = 0x0202) (boot : s.boot = 2 ∨ s.boot = 8) (length : img.length = natAt x.payload 8 4)
  (current : s.current x = true) (written : tabPut norFree (tabDrop s.nor 0 imageArea) 0 img = nor)
include running op boot length current written

theorem imageWrite_refused {st : Status} (fails : imageChk s.crucible.otp (norImage nor) = some st) :
    imageWrite x.boot c img s = answer x st { s with nor := nor } := by
  rw [imageWrite, onCmd_acts running _ op]
  refine (if_neg (not_not_intro rfl)).trans ((if_neg (by omega)).trans ((if_neg (by simp [length, current])).trans ?_))
  rw [written]
  dsimp only
  rw [fails]

theorem imageWrite_writes (passes : imageChk s.crucible.otp (norImage nor) = none) : imageWrite x.boot c img s =
    if s.boot = 2 then coldStart (answer x .ok { s with nor := nor }) else answer x .ok { s with nor := nor } := by
  rw [imageWrite, onCmd_acts running _ op]
  refine (if_neg (not_not_intro rfl)).trans ((if_neg (by omega)).trans ((if_neg (by simp [length, current])).trans ?_))
  rw [written]
  dsimp only
  rw [passes] <;> rfl

end

/-! ## From FW_START to READY (R56, R326) -/

theorem fwStart_sets (boot : s.boot = 6) : fwStart s = ((List.range 8).foldl (fun t n =>
    avsFrame (.avsRate n 5) (applySetpoint n (s.bootPower n) (s.bootPower 8) t))
    (imagePower { s with free := s.free + 9 })).setBoot 7 := by
  rw [fwStart, if_neg (not_not_intro boot)]

theorem linksBoot_trains (boot : s.boot = 7) (views : List ModuleView) :
    linksBoot views s = (List.range 8).foldl trainPort (if s.flag 0 4 then s else baysLinks views s) := by
  rw [linksBoot, if_neg (not_not_intro boot)]

theorem ready_goes (boot : s.boot = 7) : ready s =
    let t := dealTokens (s.setBoot 8)
    if s.flag 0 4 then afterWarm t else if t.hasAutostart then autostartBegin t else t := by
  rw [ready, if_neg (not_not_intro boot)]

/-! ## Autostart and the warm start (R80, R82) -/

theorem autostart_fetches {m bs : Option Bytes} {objects : List Bytes} (started : s.autostart = true)
    (boot : s.boot = 8)
    (ports : autostartPorts s = true) (reset : s.partState (natAt s.autoSec 3 1) ≠ 2)
    (serves : autostartServes m s = true) :
    autostart m bs objects s =
      match autostartFetch m bs s with
      | (some m, s) => jobsGo (autostartLoad m objects s)
      | (none, s) => autostartFails .unverified s := by
  rw [autostart]
  exact if_neg (by simp [started, boot, ports, reset, serves])

theorem warmStart_shows (reset : s.boot = 0xA) (retrained : BitVec 72) (a b : LinkTrials) :
    ∃ t, exec (.deviceReset retrained a b) s = .next t ∧ t.boot = 6 ∧ t.autostart = false ∧ t.cmds = [] ∧ t.nor = s.nor ∧
      t.image = s.image ∧ t.crucible.otp = s.crucible.otp := by
  have stored := stored_warmStart reset retrained a.trained b.trained a.repair b.repair
  have kept := kept_warmStart retrained a.trained b.trained a.repair b.repair s
  have boot : (warmStart retrained a.trained b.trained a.repair b.repair s).boot = 6 := by
    rw [warmStart, if_neg (not_not_intro reset)]
    exact boot_setBoot _ (by decide)
  have cmds : (warmStart retrained a.trained b.trained a.repair b.repair s).cmds = [] := by
    rw [warmStart, if_neg (not_not_intro reset)]
    exact (cmds_setBoot _ _).trans (cmds_cutHost _)
  refine ⟨warmStart retrained a.trained b.trained a.repair b.repair s, rfl, ?_⟩
  generalize warmStart retrained a.trained b.trained a.repair b.repair s = t at stored kept boot cmds ⊢
  exact ⟨boot, congrArg Stored.autostart stored, cmds, congrArg Stored.nor stored, congrArg Stored.image stored,
    congrArg Kept.otp kept⟩

end

/-! ## A function's event mask (R385) -/

theorem fnWrite_masks {s : State} (f : FnId) (v : Nat) (opens : s.hostOpen = true) :
    fnWrite f 0x1008 v s = s.modFn f fun x => x.setReg 0x1008 v := by
  have link : s.hostLink = true := (Bool.and_eq_true_iff.1 opens).2
  rw [fnWrite, if_neg (by simp [link]), if_neg (by decide), if_neg (by simp [opens]), if_neg (by decide),
    if_neg (by decide), if_pos rfl]

/-! ## The obligation -/

/-- Settles O53, stage by stage: each command of the boot in the state that it waits for. -/
theorem bootComplete : Obligations.BootComplete := by
  unfold Obligations.BootComplete
  intro s
  refine ⟨vddAonApply_shows s, fun aon released => ?_, fun released => ⟨?_, ⟨_, rfl, rfl, ?_⟩, ?_⟩, rfl,
    fun t boot passes keys => congrArg Host.Outcome.next (imageVerify_passes boot passes keys),
    fun st boot fails => congrArg Host.Outcome.next (imageVerify_fails boot fails), fun boot answered passed router => ?_,
    fun trained readouts boot all => congrArg Host.Outcome.next (memoryBoot_trained boot all),
    fun n vendor device caps a b ra rb boot primary alternate => ?_, fun pkt link free => ?_,
    fun c img loads low high fresh length current => ?_, fun c provisions => ?_,
    fun c x img running op boot length current => ?_, fun boot => congrArg Host.Outcome.next (fwStart_sets boot),
    fun views boot => congrArg Host.Outcome.next (linksBoot_trains boot views),
    fun boot => congrArg Host.Outcome.next (ready_goes boot), fun started boot => ⟨?_, fun ports => ?_⟩,
    fun retrained a b reset => warmStart_shows reset retrained a b, fun p w off v on writer => ?_,
    fun off v released => ?_, fun f v opens => ?_⟩
  · refine congrArg Host.Outcome.next (if_pos ?_)
    simp [aon, released]
  · exact congrArg Host.Outcome.next (if_pos released)
  · change (sysRstAssert s).pins.rstReleased = false
    rw [sysRstAssert, if_pos released, pins_coldClear]
  · refine congrArg Host.Outcome.next (if_pos released)
  · intro live fwd
    have row := diesBoot_row (passed := passed) (router := router) boot (live := live) (fwd := fwd) rfl rfl
    exact ⟨fun ways => congrArg Host.Outcome.next (row.trans (if_pos ways)),
      fun none => congrArg Host.Outcome.next (row.trans (if_neg (Bool.eq_false_iff.1 none))),
      fun p => congrArg Host.Outcome.next (bootAnswerTimeout_retires boot p)⟩
  · intro e
    have fresh := engineBringup_fresh (vendor := vendor.toNat) (device := device.toNat) (caps := caps.toNat) (a := a)
      (b := b) (ra := ra) (rb := rb) boot primary alternate
    exact ⟨fun ids => congrArg Host.Outcome.next (fresh.trans
        (if_neg (not_or.2 ⟨not_not_intro ids.1, not_not_intro ids.2⟩))),
      fun ids => congrArg Host.Outcome.next (fresh.trans (if_pos ids))⟩
  · have takes := bootDoorbell_takes link free
    refine ⟨congrArg Host.Outcome.next (takes none), fun op => ⟨fun st t check => ?_, fun t check ops => ?_⟩,
      fun op => ⟨fun whole => ?_, fun whole => ?_⟩⟩
    · refine congrArg Host.Outcome.next ((takes (some pkt)).trans ((bootPacket_checked op).trans ?_))
      rw [check]
      rfl
    · refine congrArg Host.Outcome.next ((takes (some pkt)).trans ((bootPacket_checked op).trans ?_))
      rw [check]
      exact if_pos ops
    · exact congrArg Host.Outcome.next ((takes (some pkt)).trans ((bootPacket_provision op).trans
        (if_neg (Bool.eq_false_iff.1 whole))))
    · exact congrArg Host.Outcome.next ((takes (some pkt)).trans ((bootPacket_provision op).trans (if_pos whole)))
  · have checked := firmwareLoad_checked loads low high fresh length current
    refine ⟨fun passes => congrArg Host.Outcome.next (checked.trans ?_),
      fun st fails => congrArg Host.Outcome.next (checked.trans ?_)⟩
    · rw [passes]
    · rw [fails]
  · exact ⟨fun first => congrArg Host.Outcome.next ((provision_answers provisions).trans
        (if_neg (Bool.eq_false_iff.1 first))),
      fun again => congrArg Host.Outcome.next ((provision_answers provisions).trans (if_pos again))⟩
  · intro t
    exact ⟨fun st fails => congrArg Host.Outcome.next (imageWrite_refused running op boot length current rfl fails),
      fun passes => congrArg Host.Outcome.next (imageWrite_writes running op boot length current rfl passes)⟩
  · intro m bs objects ports reset serves
    have fetches := autostart_fetches (bs := bs) (objects := objects) started boot ports reset serves
    refine ⟨fun mb t got => congrArg Host.Outcome.next (fetches.trans ?_),
      fun t got => congrArg Host.Outcome.next (fetches.trans ?_)⟩
    · rw [got]
    · rw [got]
  · refine congrArg Host.Outcome.next (if_pos ?_)
    simp [started, boot, ports]
  · refine congrArg Host.Outcome.next (if_neg ?_)
    simp [on, writer]
  · exact congrArg Host.Outcome.next (if_pos ⟨rfl, released⟩)
  · exact congrArg Host.Outcome.next (fnWrite_masks f v.toNat opens)

end Sys2Proof.Machine
end

section
/-! PROOFS. Power tokens, setpoints, comparators, temperature and clocks (O55). -/

namespace Sys2Proof.Machine

/-! ## Commands of a powered block -/

/-- A command that the always-on rail serves (R56). -/
theorem next_onRail {s t : State} {f : State → State} (aon : s.pins.vddAon = true) (e : f s = t) :
    (Host.Outcome.next (s.powered f) : Host.Outcome State Fault Refusal) = .next t :=
  (next_powered_on f aon).trans (congrArg Host.Outcome.next e)

theorem boot_modDies (s : State) (ps : List Nat) (f : Die → Die) : (s.modDies ps f).boot = s.boot :=
  List.foldlRecOn (motive := fun t : State => t.boot = s.boot) _ _ rfl fun _ same _ _ => same

theorem reckoner_modDies (s : State) (ps : List Nat) (f : Die → Die) : (s.modDies ps f).reckoner = s.reckoner := by
  rw [State.reckoner, State.reckoner, boot_modDies]

/-! ## Setpoints (R41, R433, R434) -/

section
variable {s : State} {n : Nat}

theorem trySetpoint_sends {pRow total : Nat} (sends : s.requestedMv n < (s.row n).rail ∨
    (s.requestedMv n ≠ (s.row n).rail ∧ raiseFits (s.row n).rail (s.requestedMv n) pRow total s.budgetW = true)) :
    trySetpoint n pRow total s = sendSetpoint n (s.requestedMv n) s := by
  rw [trySetpoint]
  refine (if_neg ?_).trans (if_pos ?_)
  · exact sends.elim Nat.ne_of_lt And.left
  · exact Bool.or_eq_true_iff.2 (sends.imp decide_eq_true And.right)

theorem trySetpoint_holds {pRow total : Nat} (holds : s.requestedMv n = (s.row n).rail ∨
    ((s.row n).rail ≤ s.requestedMv n ∧ raiseFits (s.row n).rail (s.requestedMv n) pRow total s.budgetW = false)) :
    trySetpoint n pRow total s = s := by
  by_cases still : s.requestedMv n = (s.row n).rail
  · exact if_pos still
  · obtain ⟨above, full⟩ := holds.resolve_left still
    exact (if_neg still).trans (if_neg (by simp [full, above]))

theorem requestedMv_put (n : Nat) {mv : Nat} (h : mv < 2 ^ 10) :
    (s.put ⟨0x10010 + 4 * n, 9, 0⟩ mv).requestedMv n = mv :=
  (State.get_put_same s ⟨0x10010 + 4 * n, 9, 0⟩ mv (by dsimp only; decide)).trans (Nat.mod_eq_of_lt h)

theorem budgetW_put (n mv : Nat) : (s.put ⟨0x10010 + 4 * n, 9, 0⟩ mv).budgetW = s.budgetW :=
  State.get_put_apart s mv (f := ⟨0x10010 + 4 * n, 9, 0⟩) (g := ⟨0x10000, 15, 4⟩) (by dsimp only; decide) (by decide)
    (.inl (by dsimp only; omega))

theorem setpointChange_asks {mv : Nat} (on : s.reckoner = true) (ok : mvOk mv = true) (pRow total : Nat) :
    setpointChange n mv pRow total s = trySetpoint n pRow total (s.put ⟨0x10010 + 4 * n, 9, 0⟩ mv) :=
  if_pos (by simp [on, ok])

theorem setpointChange_sends {mv : Nat} {pRow total : Nat} (on : s.reckoner = true) (ok : mvOk mv = true)
    (word : mv < 2 ^ 10) (sends : mv < (s.row n).rail ∨
      (mv ≠ (s.row n).rail ∧ raiseFits (s.row n).rail mv pRow total s.budgetW = true)) :
    setpointChange n mv pRow total s = sendSetpoint n mv (s.put ⟨0x10010 + 4 * n, 9, 0⟩ mv) := by
  have asked := requestedMv_put (s := s) n word
  rw [setpointChange_asks on ok, trySetpoint_sends, asked]
  rw [asked, budgetW_put]
  exact sends

theorem setpointChange_holds {mv : Nat} {pRow total : Nat} (on : s.reckoner = true) (ok : mvOk mv = true)
    (word : mv < 2 ^ 10) (holds : mv = (s.row n).rail ∨
      ((s.row n).rail ≤ mv ∧ raiseFits (s.row n).rail mv pRow total s.budgetW = false)) :
    setpointChange n mv pRow total s = s.put ⟨0x10010 + 4 * n, 9, 0⟩ mv := by
  rw [setpointChange_asks on ok, trySetpoint_holds]
  rw [requestedMv_put n word, budgetW_put]
  exact holds

theorem throttleSetpointLower_sends (on : s.reckoner = true) (hot : rowThrottled s n = true)
    (above : 550 < s.currentMv n) : throttleSetpointLower n s = sendSetpoint n (max 550 (s.currentMv n - 25)) s :=
  if_pos (by simp [on, hot, above])

/-! ## Tokens (R431, R432, R434) -/

theorem throttleRemoval_cool {p : Nat} (hot : throttled (s.die p) = true) (cool : (s.die p).junction.toInt < 92) :
    throttleRemoval p s = s.modDie p fun d => d.put ⟨0xB0008, 4, 4⟩ 0 :=
  (if_pos hot).trans (if_pos cool)

theorem throttleRemoval_hot {p : Nat} (hot : throttled (s.die p) = true) (still : 92 ≤ (s.die p).junction.toInt) :
    throttleRemoval p s = (s.modDie p (setHolding (holding (s.die p) - holding (s.die p) / 8))).put ⟨0x10004, 21, 0⟩
      (s.get ⟨0x10004, 21, 0⟩ + holding (s.die p) / 8) :=
  (if_pos hot).trans (if_neg (Int.not_lt.2 still))

theorem tokenAudit_freezes (on : s.reckoner = true) (tokens : s.central = false) :
    tokenAudit s = s.modDies s.tokenDies fun d => d.put ⟨0xB0008, 5, 5⟩ 1 :=
  if_pos (by simp [on, tokens])

theorem tokenAuditRead_deals (on : s.reckoner = true) (tokens : s.central = false) : tokenAuditRead s =
    let lack := 32 * s.budgetW - (s.tokenDies.map fun p => holding (s.die p)).sum
    let low := (s.running .active).foldl (fun m p => min m (budgetPace (s.die p))) 16
    let poor := (s.running .active).filter fun p => decide (budgetPace (s.die p) = low)
    let share := if poor.length = 0 then 0 else lack / poor.length
    ((s.modDies poor fun d => setHolding (holding d + share) d).modDies s.tokenDies
      fun d => d.put ⟨0xB0008, 5, 5⟩ 0).put ⟨0x10004, 21, 0⟩ (lack - share * poor.length) :=
  if_pos (by simp [on, tokens])

theorem centralDivision_divides (on : s.reckoner = true) (central : s.central = true) : centralDivision s =
    (fairShares ((s.running .active).length + 1) (32 * s.budgetW - 128 * (s.running .routeOnly).length)
      ((s.running .active).map fun p => (p, demand (s.die p)))).foldl
        (fun s e => s.modDie e.1 fun d => setHolding (if throttled d then min (holding d) e.2 else e.2) d)
        (s.modDies (s.running .routeOnly) (setHolding 128)) :=
  if_pos (by simp [on, central])

/-! ## POWER beads (R431) -/

theorem holding_lt (d : Die) : holding d < 2 ^ 20 := Nat.mod_lt _ (by decide)

theorem holding_setHolding (d : Die) {v : Nat} (h : v < 2 ^ 20) : holding (setHolding v d) = v := by
  rw [holding, setHolding, Die.get_put_same _ _ _ (by decide), Nat.min_eq_left (by omega)]
  exact Nat.mod_eq_of_lt h

section
variable {p : Nat} {h : BitVec 256} {rest : List Frame} (act : (s.die p).run = .active) (whole : hdrOk h = true)
  (front : (s.die p).inbox = .bead h [] :: rest)
include act whole front

theorem powerRequest_whole {src : Nat} (asks : isPowerRequest h = true) : powerRequest p src h s =
    let s := s.modDie p fun d => { d with inbox := rest }
    let d := s.die p
    if !powerOk h then s.modDie p (nakBead (beadOf h) .malformed)
    else if frozen d || s.central || !(neighbours p).contains src then s
    else
      let give := min (beadOf h).epoch (holding d - ceilDiv (estimate d * 17) 16)
      if give = 0 then s else sendPower p src true give (s.modDie p (setHolding (holding d - give))) := by
  rw [powerRequest, if_neg (not_not_intro act), asks, State.fromInbox_front front]
  exact if_neg (by simp [whole])

theorem powerRequest_malformed {src : Nat} (asks : isPowerRequest h = true) (bad : powerOk h = false) :
    powerRequest p src h s = s.modDie p fun d => nakBead (beadOf h) .malformed { d with inbox := rest } := by
  rw [powerRequest_whole act whole front asks]
  refine (if_pos (by simp [bad])).trans (modDie_modDie ..)

theorem powerRequest_serves {src : Nat} (asks : isPowerRequest h = true) (ok : powerOk h = true)
    (thawed : frozen (s.die p) = false) (tokens : s.central = false) (near : src ∈ neighbours p) :
    powerRequest p src h s =
      let give := min (beadOf h).epoch (holding (s.die p) - ceilDiv (estimate (s.die p) * 17) 16)
      let s' := s.modDie p fun d => { d with inbox := rest }
      if give = 0 then s' else sendPower p src true give (s'.modDie p (setHolding (holding (s.die p) - give))) := by
  rw [powerRequest_whole act whole front asks]
  have thaw : frozen ((s.modDie p fun d => { d with inbox := rest }).die p) = false := by
    rw [die_modDie_self]
    exact thawed
  have held : holding ((s.modDie p fun d => { d with inbox := rest }).die p) = holding (s.die p) := by
    rw [die_modDie_self]
    rfl
  have estimated : estimate ((s.modDie p fun d => { d with inbox := rest }).die p) = estimate (s.die p) := by
    rw [die_modDie_self]
    rfl
  have audited : (s.modDie p fun d => { d with inbox := rest }).central = false := tokens
  refine (if_neg (by simp [ok])).trans ((if_neg ?_).trans ?_)
  · rw [thaw, audited]
    simp [near]
  · rw [held, estimated]

theorem powerGrant_whole (grants : isPowerGrant h = true) : powerGrant p h s =
    let s := s.modDie p fun d => { d with inbox := rest }
    if !powerOk h then s.modDie p (nakBead (beadOf h) .malformed)
    else s.modDie p (setHolding (holding (s.die p) + (beadOf h).epoch)) := by
  rw [powerGrant, if_neg (not_not_intro act), grants, State.fromInbox_front front]
  exact if_neg (by simp [whole])

theorem powerGrant_malformed (grants : isPowerGrant h = true) (bad : powerOk h = false) :
    powerGrant p h s = s.modDie p fun d => nakBead (beadOf h) .malformed { d with inbox := rest } := by
  rw [powerGrant_whole act whole front grants]
  exact (if_pos (by simp [bad])).trans (modDie_modDie ..)

theorem powerGrant_adds (grants : isPowerGrant h = true) (ok : powerOk h = true) :
    powerGrant p h s =
      s.modDie p fun d => setHolding (holding (s.die p) + (beadOf h).epoch) { d with inbox := rest } := by
  rw [powerGrant_whole act whole front grants]
  refine (if_neg (by simp [ok])).trans ?_
  rw [modDie_modDie, die_modDie_self]
  rfl

end

/-- A POWER bead over a seam lies at the neighbour, and every other die stays. -/
theorem sendPower_shows {p q : Nat} (runs : (s.die q).run = .active) (grant : Bool) (tokens : Nat) :
    (∃ f, ((sendPower p q grant tokens s).die q).inbox = (s.die q).inbox ++ [f]) ∧
    ∀ r, r ≠ q → (sendPower p q grant tokens s).die r = s.die r := by
  rw [sendPower, if_pos runs]
  refine ⟨⟨powerBead (s.die p) (s.die q) grant tokens, ?_⟩, fun r other => ?_⟩
  · rw [die_modDie_self]
  · rw [die_modDie, if_neg other]

/-- What a grant leaves: the giver's holding, the neighbour's inbox, and every other die. -/
theorem grant_shows {p src give : Nat} {rest : List Frame} (runs : (s.die src).run = .active) (other : src ≠ p) :
    let t := sendPower p src true give ((s.modDie p fun d => { d with inbox := rest }).modDie p
      (setHolding (holding (s.die p) - give)))
    holding (t.die p) = holding (s.die p) - give ∧ (t.die p).inbox = rest ∧
    (∃ f, (t.die src).inbox = (s.die src).inbox ++ [f]) ∧ ∀ q, q ≠ p → q ≠ src → t.die q = s.die q := by
  rw [modDie_modDie]
  generalize taken : (fun d : Die => setHolding (holding (s.die p) - give) { d with inbox := rest }) = f
  have held : holding (f (s.die p)) = holding (s.die p) - give := by
    have low := holding_lt (s.die p)
    rw [← taken, holding_setHolding _ (by omega)]
  have inbox : (f (s.die p)).inbox = rest := by
    rw [← taken]
    rfl
  have away (q : Nat) (apart : q ≠ p) : (s.modDie p f).die q = s.die q := by rw [die_modDie, if_neg apart]
  obtain ⟨sent, others⟩ := sendPower_shows (s := s.modDie p f) (p := p) (by rwa [away src other]) true give
  rw [away src other] at sent
  refine ⟨?_, ?_, sent, fun q apart apart' => (others q apart').trans (away q apart)⟩
  · rw [others p other.symm, die_modDie_self, held]
  · rw [others p other.symm, die_modDie_self, inbox]

end

/-! ## Comparators (R44) -/

/-- The trip of the package's comparator: every raise under way is to be taken back, and above 3,300 W the pace is
halved. -/
theorem packageExcursion_trips {s : State} {imon : List Nat} {sram : Nat} {long : Bool}
    (trips : 3300000000 < s.packagePower imon sram ∨ (long = true ∧ 3000000000 < s.packagePower imon sram)) :
    packageExcursion imon sram long s =
      let s' := (List.range 8).foldl (fun s n => tripRaise n s) s
      repace (hwLimit 16 { s' with
        excOn := true, excPace := if 3300000000 < s.packagePower imon sram then min s'.excPace 8 else s'.excPace }) := by
  rw [packageExcursion]
  dsimp only
  rw [if_pos (by simpa using trips)]
  simp only [decide_eq_true_eq]

theorem paceRaiseTick_excursion {s : State} {imon : List Nat} {sram : Nat}
    (low : s.packagePower imon sram < 2900000000) : paceRaiseTick (.excursion imon sram) s =
      repace { s with excPace := min 16 (s.excPace + 1), excOn := false } := by
  rw [paceRaiseTick]
  exact if_pos low

theorem avsFrameFail_repeats {s : State} {x : Output} (sent : s.avsSent = some x) (few : s.avsFails < 2) :
    avsFrameFail s = { s.output x with avsFails := s.avsFails + 1 } := by
  rw [avsFrameFail, sent]
  exact if_neg (Nat.not_le.2 few)

theorem avsFrameFail_faults {s : State} {x : Output} (sent : s.avsSent = some x) (third : 2 ≤ s.avsFails) :
    avsFrameFail s = repace (hwLimit 17 { s with avsFails := 0, avsSent := none, avsPaced := true }) := by
  rw [avsFrameFail, sent]
  exact if_pos third

/-! ## Temperature and clocks (R49, R52) -/

theorem thermalHalt_halts {s : State} {p : Nat} {t : BitVec 8} (hot : 110 ≤ t.toInt) (act : (s.die p).run = .active)
    (runs : (s.die p).thermHalt = false) : thermalHalt p t s = haltDie p (s.modDie p fun d => { d with junction := t }) := by
  refine if_pos ?_
  rw [sense, die_modDie_self]
  simp [hot, act, runs]

theorem leclkLoss_downs {s : State} {n p : Nat} (carries : s.carrier n = some p) (up : wlkCarries (s.die p) = true) :
    leclkLoss n s = s.modDie p enterDown := by
  rw [leclkLoss, carries]
  exact if_pos up

/-- A row clock that is lost outside the boot and without the Reckoner. -/
theorem rowclkLoss_records {s : State} {n : Nat} (runs : s.rowLost n = false) (dies : s.boot ≠ 3) (memory : s.boot ≠ 4)
    (off : s.reckoner = false) : rowclkLoss n s =
      (({ s.setRow n { s.row n with clkLost := true } with clockEvents := s.clockEvents ++ [n] } : State).modDies
        (rowPhys n) fun d => if d.run = .off then { d with mcWrites := [], clkLost := true } else
          (({ d with mcWrites := [], clkLost := true } : Die).put ⟨0x70000, 1, 1⟩ 1).put ⟨0x80000, 1, 1⟩ 1) := by
  rw [rowclkLoss]
  refine (if_neg (by simp [runs])).trans ((if_neg ?_).trans ((if_neg ?_).trans ?_))
  · rw [boot_modDies]
    exact not_or.2 ⟨dies, memory⟩
  · rw [reckoner_modDies]
    exact Bool.eq_false_iff.1 off
  · rfl

/-! ## The obligation -/

/-- Settles O55, row by row: each command in the state and at the reading that its rule names. -/
theorem powerComplete : Obligations.PowerComplete := by
  unfold Obligations.PowerComplete
  refine ⟨fun p row s on aon => ?_, fun p row t s aon => ?_⟩
  · intro n d0 v
    have raises {pRow total : Nat} (above : v < s.requestedMv n)
        (fits : raiseFits v (s.requestedMv n) pRow total s.budgetW = true) :
        trySetpoint n pRow total s = sendSetpoint n (s.requestedMv n) s :=
      trySetpoint_sends (.inr ⟨Nat.ne_of_gt above, fits⟩)
    refine ⟨fun mv pRow total ok => ⟨fun sends => next_onRail aon (setpointChange_sends on ok mv.isLt sends),
        fun holds => next_onRail aon (setpointChange_holds on ok mv.isLt holds)⟩,
      fun pRow total above fits => ⟨congrArg Host.Outcome.next ((if_pos on).trans (raises above fits)), fun cool =>
        next_onRail aon
        ((if_pos (Bool.and_eq_true_iff.2 ⟨on, congrArg not cool⟩)).trans (raises above fits))⟩,
      fun hot above => next_onRail aon (throttleSetpointLower_sends on hot above),
      fun hot => ⟨fun cool => next_onRail aon (throttleRemoval_cool hot cool),
        fun still => next_onRail aon (throttleRemoval_hot hot still)⟩,
      fun tokens => ⟨congrArg Host.Outcome.next (tokenAudit_freezes on tokens),
        congrArg Host.Outcome.next (tokenAuditRead_deals on tokens)⟩,
      fun central => congrArg Host.Outcome.next (centralDivision_divides on central), fun act => ?_⟩
    refine ⟨congrArg Host.Outcome.next (if_pos act), fun _ => next_onDie act fun _ => rfl,
      fun src h rest whole front => ?_⟩
    intro took
    refine ⟨fun asks => ⟨fun bad => congrArg Host.Outcome.next (powerRequest_malformed act whole front asks bad),
        fun ok thawed tokens near => ?_⟩,
      fun grants => ⟨fun bad => congrArg Host.Outcome.next (powerGrant_malformed act whole front grants bad),
        fun ok => congrArg Host.Outcome.next (powerGrant_adds act whole front grants ok)⟩⟩
    intro give
    have serves := powerRequest_serves act whole front asks ok thawed tokens near
    refine ⟨fun none => congrArg Host.Outcome.next (serves.trans (if_pos none)), fun some runs other => ?_⟩
    obtain ⟨held, inbox, sent, others⟩ := grant_shows (give := give) (rest := rest) runs (Fin.val_ne_of_ne other)
    exact ⟨_, congrArg Host.Outcome.next (serves.trans (if_neg (Nat.ne_of_gt some))), held, inbox, sent, others⟩
  · intro n sensed trip
    refine ⟨fun x sent => ⟨fun few => next_onRail aon (avsFrameFail_repeats sent few),
        fun third => next_onRail aon (avsFrameFail_faults sent third)⟩,
      fun paced rail what => ⟨next_onRail aon ((if_neg (by simp [paced])).trans (if_pos rfl)),
        next_onRail aon ((if_neg (by simp [paced])).trans (if_neg Bool.false_ne_true))⟩,
      fun uv => ⟨fun above => next_onRail aon (if_pos above), fun within => next_onRail aon (if_neg (Nat.not_lt.2 within)),
        fun low => next_onRail aon (if_pos low)⟩,
      fun ma => ⟨fun above => next_onRail aon (if_pos above), fun within => next_onRail aon (if_neg (Nat.not_lt.2 within)),
        fun tripped => ⟨fun low => next_onRail aon ((if_neg (by simpa using tripped)).trans (if_pos low)),
          fun high => next_onRail aon ((if_neg (by simpa using tripped)).trans (if_neg (Nat.not_lt.2 high)))⟩,
        fun low => next_onRail aon (if_pos low)⟩,
      fun imon sram => ?_, fun act => next_onDie act fun _ => rfl,
      fun hot => next_onRail aon (congrArg _ (funext fun d => if_pos hot)),
      fun hot => next_onRail aon (congrArg _ (funext fun d => if_pos hot)),
      fun cool => next_onRail aon (congrArg _ (funext fun d => if_pos cool)), fun hot act runs => ?_,
      fun released => next_onRail aon ?_, next_onRail aon rfl,
      fun runs dies memory off => next_onRail aon (rowclkLoss_records runs dies memory off),
      fun q carries up => next_onRail aon (leclkLoss_downs carries up),
      fun runs => next_onRail aon (if_neg (by simp [runs])), next_onRail aon rfl,
      fun lost => next_onRail aon (if_pos lost)⟩
    · intro w
      exact ⟨fun long trips => next_onRail aon (packageExcursion_trips trips),
        fun tripped => ⟨fun low => next_onRail aon ((if_neg (by simpa using tripped)).trans (if_pos low)),
          fun high => next_onRail aon ((if_neg (by simpa using tripped)).trans (if_neg (Nat.not_lt.2 high)))⟩,
        fun low => next_onRail aon (paceRaiseTick_excursion low)⟩
    · intro halted
      have halts : thermalHalt p t s = triggerDie 3 p halted := thermalHalt_halts hot act runs
      refine ⟨next_onRail aon halts, fun higher => next_onRail aon ?_⟩
      rw [thermtrip, halts]
      exact if_pos higher
    · rw [refclkLoss, hostLinkDown, if_pos released]

end Sys2Proof.Machine
end

section
/-! PROOFS. The cube array: what ZERO_ACC, SWAP and a multiply leave of the accumulator file, and the sums of an INT8
multiply (O8, O9). -/

namespace Sys2Proof.Machine

/-! ## Tiles of the accumulator file (R103) -/

/-- The code at place `i` of a physical tile. -/
def tileWord (d : Die) (t i : Nat) : Nat := leNat (tabSlice zeroByte d.acc (4096 * t + 4 * i) 4)

theorem tileCodes_eq (d : Die) (t : Nat) : tileCodes d t = (List.range 1024).map (tileWord d t) := rfl

theorem tileCodes_congr {d d' : Die} {t : Nat}
    (same : ∀ a, 4096 * t ≤ a → a < 4096 * t + 4096 → tabGet zeroByte d'.acc a = tabGet zeroByte d.acc a) :
    tileCodes d' t = tileCodes d t := by
  rw [tileCodes_eq, tileCodes_eq]
  refine List.map_congr_left fun i inside => ?_
  rw [List.mem_range] at inside
  rw [tileWord, tileWord, SignedImage.tabSlice_getElem, SignedImage.tabSlice_getElem]
  refine congrArg leNat (List.map_congr_left fun j inside' => same _ (by omega) ?_)
  rw [List.mem_range] at inside'
  omega

theorem tileCodes_of_acc {d d' : Die} (same : d'.acc = d.acc) (t : Nat) : tileCodes d' t = tileCodes d t :=
  tileCodes_congr fun _ _ _ => by rw [same]

theorem tileCodes_setTile {d : Die} {t u : Nat} {cs : List Nat} (whole : cs.length = 1024) (other : u ≠ t) :
    tileCodes (setTile d t cs) u = tileCodes d u := by
  have bytes : (cs.flatMap (leBytes 4)).length = 4096 := by
    rw [List.length_flatMap, List.map_congr_left fun c _ => leBytes_length 4 c, List.map_const',
      List.sum_replicate, whole,
      smul_eq_mul]
  refine tileCodes_congr fun a low high => ?_
  rw [setTile, tabGet_tabPut, bytes, if_neg (by omega)]

theorem tileCodes_zeroTile (d : Die) (t u : Nat) :
    tileCodes (zeroTile d t) u = if u = t then List.replicate 1024 0 else tileCodes d u := by
  split
  · next own =>
    have zero (k : Nat) (low : 4096 * u ≤ k) (high : k < 4096 * u + 4096) : tabGet zeroByte (zeroTile d t).acc k = 0 := by
      rw [zeroTile, tabGet_tabDrop, if_pos (by omega)]
      rfl
    rw [tileCodes_eq]
    refine List.eq_replicate_iff.2 ⟨by rw [List.length_map, List.length_range], fun c mem => ?_⟩
    obtain ⟨i, inside, rfl⟩ := List.mem_map.1 mem
    rw [List.mem_range] at inside
    rw [tileWord, tabSlice, tabSlice, tabSlice, tabSlice, tabSlice, zero _ (by omega) (by omega),
      zero _ (by omega) (by omega), zero _ (by omega) (by omega), zero _ (by omega) (by omega)]
    rfl
  · next other =>
    refine tileCodes_congr fun a low high => ?_
    rw [zeroTile, tabGet_tabDrop, if_neg (by omega)]

/-- A bit of a register is cleared: no other flag changes. -/
theorem flag_put_zero (d : Die) (o t f : Nat) {u : Nat} (word : u < 32) :
    (d.put ⟨o, t, t⟩ 0).flag f u = if f = o ∧ u = t then false else d.flag f u := by
  rw [Die.flag_eq_get, Die.flag_eq_get]
  split
  · next own =>
    obtain ⟨rfl, rfl⟩ := own
    rw [Die.get_put_same _ _ _ word]
    simp
  · next other =>
    rw [Die.get_put_apart (f := ⟨o, t, t⟩) (g := ⟨f, u, u⟩) d 0 (Nat.le_refl t) word]
    dsimp only
    omega

/-! ## ZERO_ACC (R117) -/

/-- A tile of zeros, with its flags and its integer mark clear. -/
def resetTile (d : Die) (t : Nat) : Die := markTile false (clearTile (zeroTile d t) t) t

/-- Only the accumulator file and the registers may differ. -/
def OnlyArray (d d' : Die) : Prop := d' = { d with acc := d'.acc, regs := d'.regs }

theorem OnlyArray.trans {a b c : Die} (h : OnlyArray a b) (h' : OnlyArray b c) : OnlyArray a c := by
  rw [OnlyArray] at h h' ⊢
  rw [h', h]

theorem OnlyArray.foldl {α : Type} {f : Die → α → Die} (h : ∀ d a, OnlyArray d (f d a)) (l : List α) (d : Die) :
    OnlyArray d (l.foldl f d) :=
  List.foldlRecOn (motive := fun d' => OnlyArray d d') l _ rfl fun d' same a _ => same.trans (h d' a)

theorem onlyArray_put (d : Die) (f : Fld) (v : Nat) : OnlyArray d (d.put f v) := rfl

theorem onlyArray_resetTile (d : Die) (t : Nat) : OnlyArray d (resetTile d t) :=
  OnlyArray.trans (b := zeroTile d t) rfl
    (OnlyArray.trans (b := clearTile (zeroTile d t) t) (.foldl (fun _ _ => onlyArray_put ..) _ _) (onlyArray_put ..))

theorem tileCodes_resetTile (d : Die) (t u : Nat) :
    tileCodes (resetTile d t) u = if u = t then List.replicate 1024 0 else tileCodes d u :=
  (tileCodes_of_acc rfl u).trans (tileCodes_zeroTile d t u)

/-- The registers of the flags and of the integer marks of the tiles (R97, R98, R99). -/
abbrev tileFlags : List Nat := [0x10008, 0x1000C, 0x10010, 0x10014, 0x10018]

theorem flag_resetTile (d : Die) (t : Nat) {f u : Nat} (listed : f ∈ tileFlags) (word : u < 32) :
    (resetTile d t).flag f u = if u = t then false else d.flag f u := by
  have base : (zeroTile d t).flag f u = d.flag f u := rfl
  change ((clearTile (zeroTile d t) t).put ⟨0x10018, t, t⟩ 0).flag f u = _
  simp only [clearTile, List.foldl_cons, List.foldl_nil, flag_put_zero _ _ _ _ word, base]
  by_cases own : u = t
  · simp only [own, and_true, if_true]
    simp only [List.mem_cons, List.not_mem_nil, or_false] at listed
    obtain rfl | rfl | rfl | rfl | rfl := listed <;> rfl
  · simp only [own, and_false, if_false]

/-- What one step gives at its own place, a fold gives at every place of its list. -/
theorem foldl_at {β : Type} {view : Die → β} {f : Die → Nat → Die} {u : Nat} {z : β}
    (h : ∀ d t, view (f d t) = if u = t then z else view d) (l : List Nat) (d : Die) :
    view (l.foldl f d) = if u ∈ l then z else view d := by
  induction l generalizing d with
  | nil => rfl
  | cons t l ih =>
    rw [List.foldl_cons, ih, h]
    by_cases first : u = t <;> by_cases later : u ∈ l <;> simp [first, later]

/-- The tiles that a ZERO_ACC selects (R117). -/
def zeroTiles (o : LongOp) (half : Bool) : List Nat :=
  ((List.range 16).filter fun i => bitOf o.x.toNat (5 + i)).map (physTile half)

theorem runZeroAcc_eq (o : LongOp) (d : Die) : runZeroAcc o d =
    (zeroTiles o (if bitOf o.x.toNat 21 then !activeHalf d else activeHalf d)).foldl resetTile d := by
  rw [zeroTiles, List.foldl_map]
  rfl

theorem mem_zeroTiles (o : LongOp) (half : Bool) (u : Nat) :
    u ∈ zeroTiles o half ↔ u / 16 = bit half ∧ bitOf o.x.toNat (5 + u % 16) = true := by
  rw [zeroTiles, List.mem_map]
  constructor
  · rintro ⟨i, mem, rfl⟩
    obtain ⟨inside, picked⟩ := List.mem_filter.1 mem
    have bound := List.mem_range.1 inside
    have row : physTile half i / 16 = bit half := by
      rw [physTile]
      omega
    have place : physTile half i % 16 = i := by
      rw [physTile]
      omega
    exact ⟨row, place.symm ▸ picked⟩
  · rintro ⟨row, picked⟩
    refine ⟨u % 16, List.mem_filter.2 ⟨List.mem_range.2 (by omega), picked⟩, ?_⟩
    rw [physTile]
    omega

/-! ## A multiply (R95, R103) -/

/-- What a multiply leaves of a die: a tile's elements, and the parts beside the array. -/
structure Leaves (u : Nat) (d d' : Die) : Prop where
  tile : tileCodes d' u = tileCodes d u
  beside : (d'.lpddr, d'.vregs, d'.prog, d'.spd, d'.threads, d'.ops) =
    (d.lpddr, d.vregs, d.prog, d.spd, d.threads, d.ops)

theorem Leaves.refl (u : Nat) (d : Die) : Leaves u d d := ⟨rfl, rfl⟩

theorem Leaves.trans {u : Nat} {a b c : Die} (h : Leaves u a b) (h' : Leaves u b c) : Leaves u a c :=
  ⟨h'.tile.trans h.tile, h'.beside.trans h.beside⟩

theorem Leaves.foldl {α : Type} {u : Nat} {f : Die → α → Die} (l : List α) (d : Die)
    (h : ∀ d, ∀ a ∈ l, Leaves u d (f d a)) : Leaves u d (l.foldl f d) :=
  List.foldlRecOn (motive := fun d' => Leaves u d d') l _ (.refl u d) fun d' same a mem => same.trans (h d' a mem)

theorem leaves_setReg (u : Nat) (d : Die) (o v : Nat) : Leaves u d (d.setReg o v) := ⟨tileCodes_of_acc rfl u, rfl⟩

theorem leaves_setReg48 (u : Nat) (d : Die) (o v : Nat) : Leaves u d (d.setReg48 o v) :=
  (leaves_setReg ..).trans (leaves_setReg ..)

theorem leaves_raiseTile (u t : Nat) (fl : Fl) (d : Die) : Leaves u d (raiseTile t fl d) := by
  have flag (c : Bool) (o : Nat) (d : Die) : Leaves u d (if c then d.setFlag o t else d) := by
    cases c
    · exact .refl u d
    · exact leaves_setReg ..
  exact ((flag fl.inv _ d).trans (flag fl.ov _ _)).trans (flag fl.ix _ _)

theorem leaves_markTile (u : Nat) (int : Bool) (d : Die) (t : Nat) : Leaves u d (markTile int d t) := leaves_setReg ..

theorem leaves_clearTile (u : Nat) (d : Die) (t : Nat) : Leaves u d (clearTile d t) :=
  .foldl _ d fun _ _ _ => leaves_setReg ..

theorem leaves_zeroTile {u t : Nat} (d : Die) (other : u ≠ t) : Leaves u d (zeroTile d t) :=
  ⟨(tileCodes_zeroTile d t u).trans (if_neg other), rfl⟩

theorem leaves_setTile {u t : Nat} (d : Die) {cs : List Nat} (whole : cs.length = 1024) (other : u ≠ t) :
    Leaves u d (setTile d t cs) :=
  ⟨tileCodes_setTile whole other, rfl⟩

theorem leaves_spdRead (u client addr len : Nat) (d : Die) : Leaves u d (spdRead client addr len d).2.2 := by
  rw [spdRead_eq]
  refine Leaves.trans (b := spdGrant client (portWords addr len) d) (leaves_setReg ..) (.foldl _ _ fun d e _ => ?_)
  obtain ⟨k, mark⟩ := e
  cases mark with
  | good => exact .refl u d
  | single =>
    change Leaves u d (spdCorrect d k)
    unfold spdCorrect
    dsimp only
    split <;> exact ⟨tileCodes_of_acc rfl u, rfl⟩
  | double =>
    change Leaves u d (spdUncorrectable d k)
    unfold spdUncorrectable
    dsimp only
    split <;> exact ⟨tileCodes_of_acc rfl u, rfl⟩

theorem leaves_fetchAll (u : Nat) (o : LongOp) (f : MmaF) (d : Die) : Leaves u d (fetchAll o f d) :=
  .foldl _ d fun _ _ _ => leaves_spdRead ..

theorem tileStep_length (int strict dead : Bool) (acc : Option (List Nat)) (rows cols : List (List Elt)) :
    (tileStep int strict dead acc rows cols).1.length = 1024 := by
  unfold tileStep
  dsimp only
  rw [List.length_map, List.length_map, List.length_range]

/-- Tile `i` of a group, row by row, is one of its tiles. -/
theorem groupTile_mem {f : MmaF} {half : Bool} {i : Nat} (inside : i < f.m * f.n) :
    physTile half (f.acc + 4 * (i / f.n) + i % f.n) ∈ (groupTiles f.acc f.m f.n).map (physTile half) := by
  have some : 0 < f.n := Nat.pos_of_ne_zero fun none => by simp [none] at inside
  refine List.mem_map_of_mem ?_
  exact List.mem_flatMap.2 ⟨i / f.n, List.mem_range.2 ((Nat.div_lt_iff_lt_mul some).2 inside),
    List.mem_map.2 ⟨i % f.n, List.mem_range.2 (Nat.mod_lt _ some), rfl⟩⟩

section
variable {u : Nat} {o : LongOp} {f : MmaF} {half : Bool}
  (apart : u ∉ (groupTiles f.acc f.m f.n).map (physTile half))
include apart

theorem leaves_mmaSlice (k : Nat) (d : Die) : Leaves u d (mmaSlice o f half k d) := by
  unfold mmaSlice
  extract_lets fa fb wa wb
  generalize fetchBlock (o.descA.base.toNat + k * o.descA.stride.toNat) wa d = blockA
  generalize fetchBlock (o.descB.base.toNat + k * o.descB.stride.toNat) wb d = blockB
  obtain ⟨ba, la⟩ := blockA
  obtain ⟨bb, lb⟩ := blockB
  dsimp only
  refine .foldl _ d fun d i inside => ?_
  have other : u ≠ physTile half (f.acc + 4 * (i / f.n) + i % f.n) :=
    fun own => apart (own ▸ groupTile_mem (List.mem_range.1 inside))
  split
  · exact (leaves_setTile d (tileStep_length ..) other).trans (leaves_raiseTile ..)
  · exact ((leaves_setTile d (tileStep_length ..) other).trans (leaves_raiseTile ..)).trans (leaves_setReg ..)

theorem leaves_runMma {d : Die} (fields : mmaF o.x = f) (active : activeHalf d = half) : Leaves u d (runMma o d) := by
  have mem {t : Nat} (h : t ∈ (groupTiles f.acc f.m f.n).map (physTile half)) : u ≠ t := fun own => apart (own ▸ h)
  have counted : Leaves u d ((d.add48 0x10020 (mmaSteps o.descA.fmt.toNat f)).add48 (talJob o.job.toNat)
      (mmaSteps o.descA.fmt.toNat f)) := (leaves_setReg48 ..).trans (leaves_setReg48 ..)
  unfold runMma
  rw [fields, active]
  dsimp only
  split
  · split
    · exact counted.trans (.foldl _ _ fun d t h =>
        ((leaves_zeroTile d (mem h)).trans (leaves_clearTile ..)).trans (leaves_markTile ..))
    · exact counted
  · refine counted.trans (Leaves.trans (.foldl _ _ fun d t h => ?_)
      ((leaves_fetchAll ..).trans (.foldl _ _ fun d k _ => leaves_mmaSlice apart k d)))
    split
    · exact (leaves_clearTile ..).trans (leaves_markTile ..)
    · exact leaves_markTile ..

end

/-! ## SWAP (R106, R115) -/

theorem runArray_swap {o : LongOp} (kind : o.kind = .op) (op : o.opcode = 0x13) (d : Die) :
    runArray o d = (d.put ⟨0x10000, 0, 0⟩ (bit (!activeHalf d))).opDone o.id .ok := by
  rw [runArray, kind, op]
  rfl

/-- Settles O8: ZERO_ACC by the fold over its tiles, a multiply by what each of its steps leaves. -/
theorem arrayStepEffects : Obligations.ArrayStepEffects := by
  unfold Obligations.ArrayStepEffects
  refine ⟨⟨fun o d tile word => ?_, fun o d kind op => ?_⟩, fun o d tile word => ?_⟩
  · intro half hit
    have iff : tile ∈ zeroTiles o half ↔ hit := mem_zeroTiles o half tile
    rw [runZeroAcc_eq]
    refine ⟨?_, fun f listed => ?_, OnlyArray.foldl onlyArray_resetTile _ d⟩
    · exact (foldl_at (view := fun d => tileCodes d tile) (fun d t => tileCodes_resetTile d t tile) _ d).trans
        (if_congr iff rfl rfl)
    · exact (foldl_at (view := fun d => d.flag f tile) (fun d t => flag_resetTile d t listed word) _ d).trans
        (if_congr iff rfl rfl)
  · rw [runArray_swap kind op]
    refine ⟨?_, rfl, fun f other => ?_⟩
    · change ((d.put ⟨0x10000, 0, 0⟩ (bit (!activeHalf d))).get ⟨0x10000, 0, 0⟩ == 1) = _
      rw [Die.get_put_same _ _ _ (by decide)]
      exact bit_of_flag _
    · exact Die.reg_put_ne d ⟨0x10000, 0, 0⟩ _ f other
  · intro f group apart
    obtain ⟨tile, beside⟩ := leaves_runMma (o := o) apart rfl rfl
    simp only [Prod.mk.injEq] at beside
    obtain ⟨lpddr, vregs, prog, spd, threads, ops⟩ := beside
    exact ⟨tile, lpddr, vregs, prog, spd, threads, ops⟩

/-! ## Int8 sums (R98) -/

theorem sigInt_natAbs (i : Int) : sigInt (decide (i < 0)) i.natAbs = i := by
  by_cases neg : i < 0
  · rw [decide_eq_true neg, sigInt, if_pos rfl]
    omega
  · rw [decide_eq_false neg, sigInt, if_neg Bool.false_ne_true]
    omega

/-- A number in the range of 32 bits is the value of its code. -/
theorem signedOf_wrapInt {i : Int} (low : -2147483648 ≤ i) (high : i ≤ 2147483647) :
    signedOf 32 (wrapInt 32 i) = i := by
  unfold signedOf wrapInt
  norm_num
  split <;> omega

theorem foldl_add_sum (l : List Int) (i : Int) : l.foldl (· + ·) i = i + l.sum := by
  induction l generalizing i with
  | nil => simp
  | cons x l ih => rw [List.foldl_cons, ih, List.sum_cons, Int.add_assoc]

/-- An INT8 code as the array takes it. -/
def int8Elt (c : Fin 256) : Elt := ⟨elemNum 7 c, false⟩

/-- The sum of an INT8 multiply over its operands as integers. -/
theorem accInt_sum (acc : Nat) (as bs : List (Fin 256)) {sum : Int} (total : signedOf 32 acc +
      (List.zipWith (fun a b : Fin 256 => signedOf 8 a.val * signedOf 8 b.val) as bs).sum = sum) :
    accInt (some acc) (as.map int8Elt) (bs.map int8Elt) =
      if 2147483647 < sum then (some 0x7FFFFFFF, { ov := true })
      else if sum < -2147483648 then (some 0x80000000, { ov := true })
      else (some (wrapInt 32 sum), fl0) := by
  unfold accInt
  extract_lets val s
  have value (c : Fin 256) : val (int8Elt c) = signedOf 8 c.val := sigInt_natAbs _
  have same : s = sum := by
    rw [← total, ← foldl_add_sum]
    dsimp only [s]
    rw [List.zipWith_map]
    simp only [value]
  rw [same]

/-- Settles O9, by the three cases of the sum. -/
theorem int8SumsSaturate : Obligations.Int8SumsSaturate := by
  unfold Obligations.Int8SumsSaturate
  intro acc as bs length elt sum r
  have cases : r = if 2147483647 < sum then (some 0x7FFFFFFF, { ov := true })
      else if sum < -2147483648 then (some 0x80000000, { ov := true })
      else (some (wrapInt 32 sum), fl0) := accInt_sum acc as bs rfl
  clear_value sum
  by_cases above : 2147483647 < sum
  · rw [if_pos above] at cases
    rw [cases]
    refine ⟨_, rfl, by decide, ?_, ?_⟩
    · rw [show signedOf 32 0x7FFFFFFF = 2147483647 by decide]
      omega
    · rw [decide_eq_true (.inr above)]
  · by_cases below : sum < -2147483648
    · rw [if_neg above, if_pos below] at cases
      rw [cases]
      refine ⟨_, rfl, by decide, ?_, ?_⟩
      · rw [show signedOf 32 0x80000000 = -2147483648 by decide]
        omega
      · rw [decide_eq_true (.inl below)]
    · rw [if_neg above, if_neg below] at cases
      rw [cases]
      refine ⟨_, rfl, wrapInt_lt 32 sum, ?_, ?_⟩
      · rw [signedOf_wrapInt (by omega) (by omega)]
        omega
      · rw [decide_eq_false (by omega)]
        rfl

end Sys2Proof.Machine
end

section
/-! PROOFS. The rounding directions, and the codes that round back to themselves (O14). -/

namespace Sys2Proof.Machine

/-! ## Rounding to a coarser grid (R131) -/

section
variable (neg : Bool) (m : Nat) {e l : Int} (below : e < l)
include below

/-- The places below a grid of `2^l` make the result inexact. -/
theorem roundAt_ix (r : Rnd) : (roundAt r neg m e l false).ix = decide (m % 2 ^ (l - e).toNat ≠ 0) := by
  unfold roundAt
  rw [if_neg (by omega)]
  exact Bool.or_false _

theorem roundAt_rtz : (roundAt .rtz neg m e l false).q = m / 2 ^ (l - e).toNat := by
  unfold roundAt
  rw [if_neg (by omega)]
  exact Nat.shiftRight_eq_div_pow _ _

theorem roundAt_rup : (roundAt .rup neg m e l false).q =
    if m % 2 ^ (l - e).toNat ≠ 0 ∧ neg = false then m / 2 ^ (l - e).toNat + 1 else m / 2 ^ (l - e).toNat := by
  unfold roundAt
  rw [if_neg (by omega)]
  simp only [Nat.shiftRight_eq_div_pow, Bool.or_false, Bool.and_eq_true, decide_eq_true_eq, Bool.not_eq_true']

theorem roundAt_rdn : (roundAt .rdn neg m e l false).q =
    if m % 2 ^ (l - e).toNat ≠ 0 ∧ neg = true then m / 2 ^ (l - e).toNat + 1 else m / 2 ^ (l - e).toNat := by
  unfold roundAt
  rw [if_neg (by omega)]
  simp only [Nat.shiftRight_eq_div_pow, Bool.or_false, Bool.and_eq_true, decide_eq_true_eq]

theorem roundAt_rne : (roundAt .rne neg m e l false).q =
    if 2 ^ (l - e).toNat < 2 * (m % 2 ^ (l - e).toNat) ∨
        (2 ^ (l - e).toNat = 2 * (m % 2 ^ (l - e).toNat) ∧ m / 2 ^ (l - e).toNat % 2 = 1) then
      m / 2 ^ (l - e).toNat + 1
    else m / 2 ^ (l - e).toNat := by
  obtain ⟨k, size⟩ : ∃ k, (l - e).toNat = k + 1 := ⟨(l - e).toNat - 1, by omega⟩
  unfold roundAt
  rw [if_neg (by omega), size]
  simp only [Nat.shiftRight_eq_div_pow, Bool.or_eq_true, Bool.and_eq_true, decide_eq_true_eq, Bool.false_or,
    Nat.add_sub_cancel]
  have twice : 2 ^ (k + 1) = 2 * 2 ^ k := Nat.pow_succ'
  refine if_congr ?_ rfl rfl
  omega

end

theorem roundAt_directions (m : Nat) {e l : Int} (below : e < l) :
    let u := 2 ^ (l - e).toNat
    let q (r : Rnd) (neg : Bool) : Nat := (roundAt r neg m e l false).q
    (∀ neg, q .rtz neg * u ≤ m ∧ m < (q .rtz neg + 1) * u) ∧
    (m ≤ q .rup false * u ∧ q .rup false * u < m + u) ∧ (m ≤ q .rdn true * u ∧ q .rdn true * u < m + u) ∧
    q .rup true = q .rtz true ∧ q .rdn false = q .rtz false ∧
    (∀ neg, 2 * (q .rne neg * u) ≤ 2 * m + u ∧ 2 * m ≤ 2 * (q .rne neg * u) + u ∧
      ((2 * (q .rne neg * u) = 2 * m + u ∨ 2 * m = 2 * (q .rne neg * u) + u) → q .rne neg % 2 = 0)) ∧
    (∀ r neg, (roundAt r neg m e l false).ix = decide (m % u ≠ 0)) := by
  intro u q
  have parts : m / u * u + m % u = m := by rw [Nat.mul_comm]; exact Nat.div_add_mod m u
  have low : m % u < u := Nat.mod_lt _ (Nat.two_pow_pos _)
  have next : (m / u + 1) * u = m / u * u + u := Nat.succ_mul _ _
  have rtz (neg : Bool) : q .rtz neg = m / u := roundAt_rtz neg m below
  have rup (neg : Bool) : q .rup neg = if m % u ≠ 0 ∧ neg = false then m / u + 1 else m / u := roundAt_rup neg m below
  have rdn (neg : Bool) : q .rdn neg = if m % u ≠ 0 ∧ neg = true then m / u + 1 else m / u := roundAt_rdn neg m below
  have rne (neg : Bool) : q .rne neg = if u < 2 * (m % u) ∨ (u = 2 * (m % u) ∧ m / u % 2 = 1) then m / u + 1 else m / u :=
    roundAt_rne neg m below
  have up (c : Prop) [Decidable c] (h : c ↔ m % u ≠ 0) :
      m ≤ (if c then m / u + 1 else m / u) * u ∧ (if c then m / u + 1 else m / u) * u < m + u := by
    split
    · next rises =>
      have some := h.1 rises
      rw [next]
      omega
    · next stays =>
      have none : m % u = 0 := not_not.1 (mt h.2 stays)
      omega
  refine ⟨fun neg => ?_, ?_, ?_, ?_, ?_, fun neg => ?_, fun r neg => roundAt_ix neg m below r⟩
  · rw [rtz, next]
    omega
  · rw [rup]
    exact up _ (and_iff_left rfl)
  · rw [rdn]
    exact up _ (and_iff_left rfl)
  · rw [rup, rtz]
    exact if_neg fun h => Bool.noConfusion h.2
  · rw [rdn, rtz]
    exact if_neg fun h => Bool.noConfusion h.2
  · rw [rne]
    split
    · rw [next]
      omega
    · omega

/-! ## Codes of a format (R121) -/

/-- The exponent field of a code. -/
def FFmt.exponent (f : FFmt) (c : Nat) : Nat := bitsOf c (f.eb + f.mb - 1) f.mb

section
variable {f : FFmt} {c : Nat} (exponent : 2 ≤ f.eb) (word : c < 2 ^ (1 + f.eb + f.mb))
include exponent

theorem exponent_eq : f.exponent c = c / 2 ^ f.mb % 2 ^ f.eb := by
  rw [FFmt.exponent, bitsOf, Nat.shiftRight_eq_div_pow, show f.eb + f.mb - 1 + 1 - f.mb = f.eb by omega]

theorem exponent_lt : f.exponent c < 2 ^ f.eb := by
  rw [exponent_eq exponent]
  exact Nat.mod_lt _ (Nat.two_pow_pos _)

include word in
theorem code_parts : c = bit (bitOf c f.signPos) <<< f.signPos + (f.exponent c <<< f.mb + c % 2 ^ f.mb) := by
  have high : c / 2 ^ f.mb / 2 ^ f.eb < 2 := by
    rw [Nat.div_div_eq_div_mul, ← Nat.pow_add, Nat.div_lt_iff_lt_mul (Nat.two_pow_pos _), ← Nat.pow_succ']
    exact word.trans_eq (by congr 1; omega)
  have sign : bit (bitOf c f.signPos) = c / 2 ^ f.mb / 2 ^ f.eb := by
    rw [Nat.div_div_eq_div_mul, ← Nat.pow_add, Nat.add_comm] at high ⊢
    rw [bitOf, bitsOf, Nat.shiftRight_eq_div_pow, FFmt.signPos, Nat.add_sub_cancel_left, pow_one]
    generalize c / 2 ^ (f.eb + f.mb) = s at high
    obtain rfl | rfl : s = 0 ∨ s = 1 := by omega
    · rfl
    · rfl
  rw [sign, exponent_eq exponent, Nat.shiftLeft_eq, Nat.shiftLeft_eq, FFmt.signPos]
  have outer := Nat.div_add_mod c (2 ^ f.mb)
  have inner := Nat.div_add_mod (c / 2 ^ f.mb) (2 ^ f.eb)
  calc c = 2 ^ f.mb * (c / 2 ^ f.mb) + c % 2 ^ f.mb := outer.symm
    _ = 2 ^ f.mb * (2 ^ f.eb * (c / 2 ^ f.mb / 2 ^ f.eb) + c / 2 ^ f.mb % 2 ^ f.eb) + c % 2 ^ f.mb := by rw [inner]
    _ = _ := by ring

end

/-- A magnitude on its own grid that does not overflow is its own rounding. -/
theorem packFin_exact {f : FFmt} {r : Rnd} (drawless : ∀ x, r ≠ .stoch x) (neg : Bool) {m : Nat} {e : Int}
    (some : m ≠ 0) (grid : max (gridOf f.mb m e) f.emin = e)
    (fits : cmpMag m e (maxFinite f).1 (maxFinite f).2 ≠ .gt) :
    packFin f r false neg m e false = (encodeMag f neg m e, fl0) := by
  have own : (if gridOf f.mb m e < f.emin then f.emin else gridOf f.mb m e) = e := by
    refine Eq.trans ?_ grid
    split <;> omega
  have rounds : roundAt r neg m e e false = ⟨m, e, false⟩ := by
    unfold roundAt
    rw [if_pos (Int.le_refl e), Int.sub_self]
    rfl
  unfold packFin
  rw [if_neg some]
  dsimp only
  rw [own, rounds]
  have stays : (cmpMag m e (maxFinite f).1 (maxFinite f).2 == .gt) = false := by simpa using fits
  dsimp only
  rw [stays]
  simp only [Bool.false_eq_true, if_false, Bool.and_false]
  rfl

/-- A magnitude at an exponent up to the largest does not overflow. -/
theorem cmpMag_fits {a b : Nat} {ea eb : Int} (low : ea ≤ eb) (small : a ≤ b ∨ (ea < eb ∧ a ≤ 2 * b)) :
    cmpMag a ea b eb ≠ .gt := by
  have size : a ≤ b * 2 ^ (eb - ea).toNat := by
    obtain small | ⟨less, small⟩ := small
    · exact small.trans (Nat.le_mul_of_pos_right b (Nat.two_pow_pos _))
    · obtain ⟨k, size⟩ : ∃ k, (eb - ea).toNat = k + 1 := ⟨(eb - ea).toNat - 1, by omega⟩
      rw [size, Nat.pow_succ', ← Nat.mul_assoc, Nat.mul_comm b 2]
      exact small.trans (Nat.le_mul_of_pos_right _ (Nat.two_pow_pos _))
  rw [cmpMag, if_pos low, Nat.shiftLeft_eq]
  exact Nat.compare_ne_gt.2 size

/-- The largest finite magnitude of a format: its exponent and its significand. -/
theorem maxFinite_shape (f : FFmt) :
    (maxFinite f).2 = (if f.kind = .ieee then ((2 ^ f.eb : Nat) : Int) - 2 else ((2 ^ f.eb : Nat) : Int) - 1) - f.bias - f.mb ∧
    (maxFinite f).1 = (if f.kind = .e4m3 then 2 ^ (f.mb + 1) - 2 else 2 ^ (f.mb + 1) - 1) := by
  unfold maxFinite
  cases f.kind <;> exact ⟨rfl, rfl⟩

theorem encodeMag_subnormal {f : FFmt} {q : Nat} (neg : Bool) (l : Int) (low : q < 2 ^ f.mb) :
    encodeMag f neg q l = bit neg <<< f.signPos + q := by
  have twice : 2 ^ (f.mb + 1) = 2 * 2 ^ f.mb := Nat.pow_succ'
  unfold encodeMag
  rw [if_neg (by omega)]
  dsimp only
  rw [if_pos low]

theorem encodeMag_normal {f : FFmt} {x m : Nat} (neg : Bool) (low : m < 2 ^ f.mb) :
    encodeMag f neg (2 ^ f.mb + m) ((x : Int) - f.bias - f.mb) = bit neg <<< f.signPos + (x <<< f.mb + m) := by
  have twice : 2 ^ (f.mb + 1) = 2 * 2 ^ f.mb := Nat.pow_succ'
  have biased : ((x : Int) - f.bias - f.mb + f.mb + f.bias).toNat = x := by omega
  unfold encodeMag
  rw [if_neg (by omega)]
  dsimp only
  rw [if_neg (by omega), biased, Nat.add_sub_cancel_left]

section
variable {f : FFmt} {r : Rnd} (mantissa : 1 ≤ f.mb) (exponent : 2 ≤ f.eb) (drawless : ∀ x, r ≠ .stoch x) (neg : Bool)
  {m : Nat} (low : m < 2 ^ f.mb)
include mantissa exponent drawless low

/-- A subnormal magnitude is its own rounding. -/
theorem packFin_subnormal : packFin f r false neg m f.emin false = (bit neg <<< f.signPos + m, fl0) := by
  by_cases zero : m = 0
  · rw [packFin, if_pos zero, zero]
    rfl
  · obtain ⟨top, largest⟩ := maxFinite_shape f
    have four : 4 ≤ 2 ^ f.eb := (Nat.pow_le_pow_right (by decide) exponent : 2 ^ 2 ≤ 2 ^ f.eb)
    have two : 2 ≤ 2 ^ f.mb := (Nat.pow_le_pow_right (by decide) mantissa : 2 ^ 1 ≤ 2 ^ f.mb)
    have twice : 2 ^ (f.mb + 1) = 2 * 2 ^ f.mb := Nat.pow_succ'
    have places : Nat.log2 m < f.mb := (Nat.log2_lt zero).2 low
    rw [packFin_exact drawless neg zero, encodeMag_subnormal neg _ low]
    · rw [gridOf]
      omega
    · refine cmpMag_fits ?_ (.inl ?_)
      · rw [top, FFmt.emin]
        split <;> omega
      · rw [largest]
        split <;> omega

omit exponent in
/-- A normal magnitude up to the largest is its own rounding. -/
theorem packFin_normal {x : Nat} (some : x ≠ 0) (high : x < 2 ^ f.eb) (finite : ¬(f.kind = .ieee ∧ x = 2 ^ f.eb - 1))
    (number : ¬(f.kind = .e4m3 ∧ x = 2 ^ f.eb - 1 ∧ m = 2 ^ f.mb - 1)) :
    packFin f r false neg (2 ^ f.mb + m) ((x : Int) - f.bias - f.mb) false =
      (bit neg <<< f.signPos + (x <<< f.mb + m), fl0) := by
  obtain ⟨top, largest⟩ := maxFinite_shape f
  have two : 2 ≤ 2 ^ f.mb := (Nat.pow_le_pow_right (by decide) mantissa : 2 ^ 1 ≤ 2 ^ f.mb)
  have twice : 2 ^ (f.mb + 1) = 2 * 2 ^ f.mb := Nat.pow_succ'
  have places : Nat.log2 (2 ^ f.mb + m) = f.mb := (Nat.log2_eq_iff (by omega)).2 ⟨by omega, by omega⟩
  rw [packFin_exact drawless neg (by omega), encodeMag_normal neg low]
  · rw [gridOf, places, FFmt.emin]
    omega
  · refine cmpMag_fits ?_ ?_
    · rw [top]
      split
      · next ieee =>
        have below : x ≠ 2 ^ f.eb - 1 := fun ones => finite ⟨ieee, ones⟩
        omega
      · omega
    · rw [largest, top]
      split
      · next e4m3 =>
        rw [if_neg (by simp [e4m3])]
        by_cases ones : x = 2 ^ f.eb - 1
        · have body : m ≠ 2 ^ f.mb - 1 := fun all => number ⟨e4m3, ones, all⟩
          omega
        · omega
      · omega

end

/-! ### What a code stands for -/

section
variable {f : FFmt} {c : Nat}

theorem decodeF_infinite (ieee : f.kind = .ieee) (ones : f.exponent c = 2 ^ f.eb - 1) (zero : c % 2 ^ f.mb = 0) :
    decodeF f c = .inf (bitOf c f.signPos) :=
  (if_pos ⟨ieee, beq_iff_eq.2 ones⟩).trans (if_pos zero)

theorem decodeF_ieeeNan (ieee : f.kind = .ieee) (ones : f.exponent c = 2 ^ f.eb - 1) (some : c % 2 ^ f.mb ≠ 0) :
    decodeF f c = .nan (decide (7 ≤ f.mb) && !bitOf c (f.mb - 1)) :=
  (if_pos ⟨ieee, beq_iff_eq.2 ones⟩).trans (if_neg some)

theorem decodeF_e4m3Nan (e4m3 : f.kind = .e4m3) (ones : f.exponent c = 2 ^ f.eb - 1)
    (all : c % 2 ^ f.mb = 2 ^ f.mb - 1) : decodeF f c = .nan false :=
  (if_neg fun h => by simp [e4m3] at h).trans (if_pos ⟨e4m3, beq_iff_eq.2 ones, all⟩)

theorem decodeF_finite (finite : ¬(f.kind = .ieee ∧ f.exponent c = 2 ^ f.eb - 1))
    (number : ¬(f.kind = .e4m3 ∧ f.exponent c = 2 ^ f.eb - 1 ∧ c % 2 ^ f.mb = 2 ^ f.mb - 1)) :
    decodeF f c = if f.exponent c = 0 then .fin (bitOf c f.signPos) (c % 2 ^ f.mb) f.emin
      else .fin (bitOf c f.signPos) (2 ^ f.mb + c % 2 ^ f.mb) ((f.exponent c : Int) - f.bias - f.mb) :=
  (if_neg fun h => finite ⟨h.1, beq_iff_eq.1 h.2⟩).trans
    (if_neg fun h => number ⟨h.1, beq_iff_eq.1 h.2.1, h.2.2⟩)

/-- A code that is no NaN rounds back to itself (R134). -/
theorem packF_decodeF {r : Rnd} (mantissa : 1 ≤ f.mb) (exponent : 2 ≤ f.eb) (word : c < 2 ^ (1 + f.eb + f.mb))
    (number : ∀ sg, decodeF f c ≠ .nan sg) (drawless : ∀ x, r ≠ .stoch x) :
    packF f r false (decodeF f c) false = (c, fl0) := by
  have parts := code_parts exponent word
  have low : c % 2 ^ f.mb < 2 ^ f.mb := Nat.mod_lt _ (Nat.two_pow_pos _)
  by_cases infinite : f.kind = .ieee ∧ f.exponent c = 2 ^ f.eb - 1
  · obtain ⟨ieee, ones⟩ := infinite
    have zero : c % 2 ^ f.mb = 0 := not_not.1 fun some => number _ (decodeF_ieeeNan ieee ones some)
    rw [decodeF_infinite ieee ones zero, packF, ieee]
    rw [ones, zero] at parts
    exact congrArg (·, fl0) parts.symm
  · have finite : ¬(f.kind = .e4m3 ∧ f.exponent c = 2 ^ f.eb - 1 ∧ c % 2 ^ f.mb = 2 ^ f.mb - 1) :=
      fun ⟨e4m3, ones, all⟩ => number _ (decodeF_e4m3Nan e4m3 ones all)
    rw [decodeF_finite infinite finite]
    split
    · next subnormal =>
      rw [subnormal, Nat.zero_shiftLeft, Nat.zero_add] at parts
      exact (packFin_subnormal mantissa exponent drawless _ low).trans (congrArg (·, fl0) parts.symm)
    · next normal =>
      exact (packFin_normal mantissa drawless _ low normal (exponent_lt exponent) infinite finite).trans
        (congrArg (·, fl0) parts.symm)

end

/-- Settles O14: the directions by the places below the grid, the codes by their fields. -/
theorem numberFormats : Obligations.NumberFormats := by
  unfold Obligations.NumberFormats
  refine ⟨fun m e l below => roundAt_directions m below, fun f listed c word number r drawless => ?_⟩
  have wide : ∀ f ∈ [fmtE4M3, fmtE5M2, fmtE3M2, fmtE2M3, fmtE2M1, fmtBF16, fmtFP16, fmtB32, fmtB64],
      1 ≤ f.mb ∧ 2 ≤ f.eb := by decide
  obtain ⟨mantissa, exponent⟩ := wide f listed
  exact packF_decodeF mantissa exponent word number drawless

end Sys2Proof.Machine
end

section
/-! PROOFS. The vector unit: the values of the per-value ops, and the ops that move values (O12, O13). -/

namespace Sys2Proof.Machine

/-! ## Vector registers (R184) -/

theorem vreg_length (d : Die) (r : Nat) : (vreg d r).length = 64 := by
  rw [vreg, List.length_map, tabSlice_length]

theorem vreg_lt (d : Die) (r j : Nat) : (vreg d r).getD j 0 < 2 ^ 32 := by
  by_cases inside : j < (vreg d r).length
  · rw [List.getD_eq_getElem _ _ inside]
    simp only [vreg, List.getElem_map]
    exact BitVec.isLt _
  · rw [List.getD_eq_default _ _ (by omega)]
    exact Nat.two_pow_pos _

/-- A lane of a register written, and every other register. -/
theorem vreg_setVreg (d : Die) (r q : Nat) {ls : List Nat} (whole : ls.length = 64) :
    vreg (setVreg d r ls) q = if q = r then ls.map (· % 2 ^ 32) else vreg d q := by
  refine List.ext_getElem (by split <;> simp [vreg_length, whole]) fun j h _ => ?_
  rw [vreg_length] at h
  have cell : (tabSlice (fun _ => (0 : Word32)) (setVreg d r ls).vregs (64 * q) 64).getD j 0 =
      if q = r then BitVec.ofNat 32 (ls.getD j 0) else tabGet (fun _ => (0 : Word32)) d.vregs (64 * q + j) := by
    rw [tabSlice_getD _ _ _ _ _ _ h, setVreg, tabGet_tabPut, List.length_map, whole]
    by_cases own : q = r
    · rw [if_pos (by omega), if_pos own, show 64 * q + j - 64 * r = j by omega]
      simp [List.getD_eq_getElem?_getD, whole, h]
    · rw [if_neg (by omega), if_neg own]
  rw [List.getD_eq_getElem _ _ (by rw [tabSlice_length]; exact h)] at cell
  simp only [vreg, List.getElem_map, cell]
  split
  · simp [List.getD_eq_getElem?_getD, whole, h]
  · simp only [List.getElem_map]
    rw [← List.getD_eq_getElem _ (0 : Word32) (by rw [tabSlice_length]; exact h), tabSlice_getD _ _ _ _ _ _ h]

/-! ## A range of registers -/

/-- Registers that are written in ascending order, each from what a source of its own number holds, as a fold that
leaves the registers from its own on as they were. -/
theorem vreg_foldl {step : Die → Nat → Die} {out : Nat → List Nat} {d : Die} {vd n : Nat}
    (writes : ∀ d' i, i < n → (∀ r, r < vd ∨ vd + i ≤ r → vreg d' r = vreg d r) →
      ∀ r, vreg (step d' i) r = if r = vd + i then out i else vreg d' r) :
    (∀ i, i < n → vreg ((List.range n).foldl step d) (vd + i) = out i) ∧
    ∀ r, r < vd ∨ vd + n ≤ r → vreg ((List.range n).foldl step d) r = vreg d r := by
  induction n with
  | zero => exact ⟨fun i h => by omega, fun r _ => rfl⟩
  | succ n ih =>
    obtain ⟨before, others⟩ := ih fun d' i h => writes d' i (by omega)
    have last := writes ((List.range n).foldl step d) n (Nat.lt_succ_self n) others
    rw [List.range_succ, List.foldl_append]
    refine ⟨fun i h => (last (vd + i)).trans ?_, fun r away => (last r).trans ?_⟩
    · by_cases own : i = n
      · rw [own, if_pos rfl]
      · rw [if_neg (by omega), before i (by omega)]
    · rw [if_neg (by omega), others r (by omega)]

/-! ## Values as lanes (R184) -/

theorem pairs64_unpair64 (vs : List Nat) : pairs64 ((unpair64 vs).map (· % 2 ^ 32)) = vs.map (· % 2 ^ 64) := by
  induction vs with
  | nil => rfl
  | cons v vs ih =>
    have low : v % 2 ^ 32 % 2 ^ 32 + (v >>> 32 % 2 ^ 32) <<< 32 = v % 2 ^ 64 := by
      rw [Nat.shiftRight_eq_div_pow, Nat.shiftLeft_eq]
      omega
    change (v % 2 ^ 32 % 2 ^ 32 + (v >>> 32 % 2 ^ 32) <<< 32) :: pairs64 ((unpair64 vs).map (· % 2 ^ 32)) = _
    rw [low, ih, List.map_cons]

theorem vvals_vlanes (f64 : Bool) (vs : List Nat) :
    vvals f64 ((vlanes f64 vs).map (· % 2 ^ 32)) = vs.map (· % 2 ^ (if f64 then 64 else 32)) := by
  cases f64
  · rfl
  · exact pairs64_unpair64 vs

theorem vlanes_length {f64 : Bool} {vs : List Nat} (whole : vs.length = if f64 then 32 else 64) :
    (vlanes f64 vs).length = 64 := by
  cases f64
  · exact whole
  · have pairs : (unpair64 vs).length = 2 * vs.length := by
      rw [unpair64, List.length_flatMap]
      change (vs.map fun _ => 2).sum = _
      rw [List.map_const', List.sum_replicate, smul_eq_mul, Nat.mul_comm]
    exact pairs.trans (by rw [whole, if_pos rfl])

/-! ## The per-value ops (R186) -/

/-- What an op makes of one register of each source, with the flags of each value. -/
def vecOut (opcode : Nat) (o : LongOp) (d : Die) (i : Nat) : List (Nat × Fl) :=
  let f := vecF o.x
  let n := if f.f64 then 32 else 64
  let sv := if f.f64 then o.sval.toNat else o.sval.toNat % 2 ^ 32
  let bs := if f.sb then List.replicate n sv else vvals f.f64 (vreg d (f.vb + i))
  tabulate n fun j => vecVal opcode o.x ((vvals f.f64 (vreg d (f.va + i))).getD j 0) (bs.getD j 0)
    ((vvals f.f64 (vreg d (f.vc + i))).getD j 0)

/-- One register of a per-value op. -/
def vecStep (opcode : Nat) (o : LongOp) (d : Die) (i : Nat) : Die :=
  raiseVec ((vecOut opcode o d i).foldl (fun a r => flOr a r.2) fl0)
    (setVreg d ((vecF o.x).vd + i) (vlanes (vecF o.x).f64 ((vecOut opcode o d i).map (·.1))))

theorem runValues_eq (opcode : Nat) (o : LongOp) (d : Die) :
    runValues opcode o d = (List.range ((vecF o.x).len + 1)).foldl (vecStep opcode o) d := rfl

/-- The per-value ops that read `VB`, and those that read `VC`. -/
def readsB (opcode : Nat) : Prop := opcode ∉ [0x25, 0x2C, 0x2D, 0x2E, 0x2F]

def readsC (opcode : Nat) : Prop := opcode ∈ [0x23, 0x2B]

section
variable {opcode : Nat} (low : 0x20 ≤ opcode) (high : opcode ≤ 0x2F)
include low high

theorem va_mem_vecSrcs (f : VecF) : f.va ∈ vecSrcs opcode f := by
  interval_cases opcode <;> simp [vecSrcs]

theorem vb_mem_vecSrcs {f : VecF} (scalar : f.sb = false) (reads : readsB opcode) : f.vb ∈ vecSrcs opcode f := by
  unfold readsB at reads
  interval_cases opcode <;> simp_all [vecSrcs]

theorem vc_mem_vecSrcs {f : VecF} (reads : readsC opcode) : f.vc ∈ vecSrcs opcode f := by
  unfold readsC at reads
  interval_cases opcode <;> simp_all [vecSrcs]

omit low high in
theorem vecVal_ignoresB (reads : ¬readsB opcode) (x : BitVec 96) (a b b' c : Nat) :
    vecVal opcode x a b c = vecVal opcode x a b' c := by
  have listed := not_not.1 reads
  simp only [List.mem_cons, List.not_mem_nil, or_false] at listed
  obtain rfl | rfl | rfl | rfl | rfl := listed <;> rfl

theorem vecVal_ignoresC (reads : ¬readsC opcode) (x : BitVec 96) (a b c c' : Nat) :
    vecVal opcode x a b c = vecVal opcode x a b c' := by
  simp only [readsC, List.mem_cons, List.not_mem_nil, or_false, not_or] at reads
  obtain rfl | rfl | rfl | rfl | rfl | rfl | rfl | rfl | rfl | rfl | rfl | rfl | rfl | rfl : opcode = 0x20 ∨
      opcode = 0x21 ∨ opcode = 0x22 ∨ opcode = 0x24 ∨ opcode = 0x25 ∨ opcode = 0x26 ∨ opcode = 0x27 ∨ opcode = 0x28 ∨
      opcode = 0x29 ∨ opcode = 0x2A ∨ opcode = 0x2C ∨ opcode = 0x2D ∨ opcode = 0x2E ∨ opcode = 0x2F := by omega
  all_goals rfl

/-- An op reads the registers of its source ranges alone. -/
theorem vecOut_congr {o : LongOp} {d d' : Die} {i : Nat}
    (same : ∀ r ∈ vecSrcs opcode (vecF o.x), vreg d' (r + i) = vreg d (r + i)) :
    vecOut opcode o d' i = vecOut opcode o d i := by
  unfold vecOut
  extract_lets f n sv bs' bs
  refine List.map_congr_left fun j _ => ?_
  have second (reads : readsB opcode) : bs' = bs := by
    by_cases scalar : f.sb = true
    · exact (if_pos scalar).trans (if_pos scalar).symm
    · exact (if_neg scalar).trans ((congrArg (vvals f.f64)
        (same f.vb (vb_mem_vecSrcs low high (Bool.eq_false_iff.2 scalar) reads))).trans (if_neg scalar).symm)
  rw [same f.va (va_mem_vecSrcs low high f)]
  generalize (vvals f.f64 (vreg d (f.va + i))).getD j 0 = a
  trans vecVal opcode o.x a (bs.getD j 0) ((vvals f.f64 (vreg d' (f.vc + i))).getD j 0)
  · by_cases reads : readsB opcode
    · rw [second reads]
    · exact vecVal_ignoresB reads ..
  · by_cases reads : readsC opcode
    · rw [same f.vc (vc_mem_vecSrcs low high reads)]
    · exact vecVal_ignoresC low high reads ..

end

theorem vecOut_length (opcode : Nat) (o : LongOp) (d : Die) (i : Nat) :
    ((vecOut opcode o d i).map (·.1)).length = if (vecF o.x).f64 then 32 else 64 := by
  rw [List.length_map, vecOut, tabulate, List.length_map, List.length_range]

theorem vreg_vecStep (opcode : Nat) (o : LongOp) (d : Die) (i r : Nat) : vreg (vecStep opcode o d i) r =
    if r = (vecF o.x).vd + i then
      (vlanes (vecF o.x).f64 ((vecOut opcode o d i).map (·.1))).map (· % 2 ^ 32)
    else vreg d r :=
  vreg_setVreg d _ r (vlanes_length (vecOut_length opcode o d i))

/-- A destination range that coincides with each source or is apart from it (R185). -/
theorem rangesOk_apart {opcode : Nat} {f : VecF} (high : opcode ≤ 0x2F) (ok : rangesOk opcode f = true) :
    ∀ r ∈ vecSrcs opcode f, r = f.vd ∨ r + f.len < f.vd ∨ f.vd + f.len < r := by
  have dst : vecDst opcode = true := by simp [vecDst]; omega
  unfold rangesOk at ok
  simp only [dst, Bool.and_eq_true, Bool.not_true, Bool.false_or, List.all_eq_true, Bool.or_eq_true,
    decide_eq_true_eq] at ok
  intro r mem
  have := ok.2.2 r mem
  omega

/-- The registers of a per-value op: each of the destination from the old sources, and no other. -/
theorem vreg_runValues {opcode : Nat} (low : 0x20 ≤ opcode) (high : opcode ≤ 0x2F) (o : LongOp) (d : Die)
    (ok : rangesOk opcode (vecF o.x) = true) :
    (∀ i, i < (vecF o.x).len + 1 → vreg (runValues opcode o d) ((vecF o.x).vd + i) =
      (vlanes (vecF o.x).f64 ((vecOut opcode o d i).map (·.1))).map (· % 2 ^ 32)) ∧
    ∀ r, r < (vecF o.x).vd ∨ (vecF o.x).vd + ((vecF o.x).len + 1) ≤ r → vreg (runValues opcode o d) r = vreg d r := by
  have apart := rangesOk_apart high ok
  rw [runValues_eq]
  refine vreg_foldl fun d' i inside before r => ?_
  rw [vreg_vecStep, vecOut_congr low high fun r mem => before _ ?_]
  have := apart r mem
  omega

/-- Only vector registers and registers may differ, and of these only `VEC_FLAGS`. -/
def OnlyVector (d d' : Die) : Prop :=
  (∀ k, k ≠ 0x40000 → d'.reg k = d.reg k) ∧ d' = { d with vregs := d'.vregs, regs := d'.regs }

theorem OnlyVector.trans {a b c : Die} (h : OnlyVector a b) (h' : OnlyVector b c) : OnlyVector a c := by
  obtain ⟨regs, same⟩ := h
  obtain ⟨regs', same'⟩ := h'
  refine ⟨fun k other => (regs' k other).trans (regs k other), ?_⟩
  rw [same', same]

theorem onlyVector_vecStep (opcode : Nat) (o : LongOp) (d : Die) (i : Nat) : OnlyVector d (vecStep opcode o d i) :=
  ⟨fun _ other => (Die.reg_setReg ..).trans (if_neg other), rfl⟩

/-- A per-value op raises flags and writes vector registers. -/
theorem onlyVector_runValues (opcode : Nat) (o : LongOp) (d : Die) : OnlyVector d (runValues opcode o d) :=
  List.foldlRecOn (motive := fun d' => OnlyVector d d') (List.range ((vecF o.x).len + 1)) (vecStep opcode o)
    ⟨fun _ _ => rfl, rfl⟩ fun d' same i _ => same.trans (onlyVector_vecStep opcode o d' i)

/-- A value of a register of the destination. -/
theorem vecOut_getD (opcode : Nat) (o : LongOp) (d : Die) (i : Nat) {j : Nat}
    (lane : j < if (vecF o.x).f64 then 32 else 64) :
    ((vecOut opcode o d i).map (·.1)).getD j 0 =
      (vecVal opcode o.x ((vvals (vecF o.x).f64 (vreg d ((vecF o.x).va + i))).getD j 0)
        (if (vecF o.x).sb then (if (vecF o.x).f64 then o.sval.toNat else o.sval.toNat % 2 ^ 32)
          else (vvals (vecF o.x).f64 (vreg d ((vecF o.x).vb + i))).getD j 0)
        ((vvals (vecF o.x).f64 (vreg d ((vecF o.x).vc + i))).getD j 0)).1 := by
  rw [List.getD_eq_getElem _ _ (by rwa [vecOut_length]), List.getElem_map]
  unfold vecOut tabulate
  extract_lets f n sv bs
  rw [List.getElem_map, List.getElem_range]
  have second : bs.getD j 0 = if f.sb then sv else (vvals f.f64 (vreg d (f.vb + i))).getD j 0 := by
    by_cases scalar : f.sb = true
    · rw [if_pos scalar, show bs = List.replicate n sv from if_pos scalar, List.getD_replicate _ lane]
    · rw [if_neg scalar, show bs = vvals f.f64 (vreg d (f.vb + i)) from if_neg scalar]
  rw [second]

/-- Settles O12: the registers in ascending order, each from sources that no earlier one has written. -/
theorem vectorValuesFrame : Obligations.VectorValuesFrame := by
  unfold Obligations.VectorValuesFrame
  intro opcode o d low high f n sv at_ b ok
  obtain ⟨written, others⟩ := vreg_runValues low high o d ok
  obtain ⟨regs, frame⟩ := onlyVector_runValues opcode o d
  refine ⟨fun i j inside lane => ?_, fun r away => others r ?_, regs, frame⟩
  · rw [written i (Nat.lt_succ_of_le inside), vvals_vlanes]
    have cut := List.getD_map (l := (vecOut opcode o d i).map (·.1)) (d := 0) (n := j)
      (· % 2 ^ (if f.f64 then 64 else 32))
    rw [Nat.zero_mod] at cut
    exact cut.trans (congrArg (· % _) (vecOut_getD opcode o d i lane))
  · exact away.imp_right Nat.succ_le_of_lt

/-! ## The ops that move values (R186) -/

/-- Lists of lanes written to registers in ascending order. -/
theorem vreg_setVregs {vd n : Nat} {ls : Nat → List Nat} (whole : ∀ i, i < n → (ls i).length = 64) (d : Die) :
    ∀ i, i < n → vreg ((List.range n).foldl (fun d i => setVreg d (vd + i) (ls i)) d) (vd + i) =
      (ls i).map (· % 2 ^ 32) :=
  (vreg_foldl (d := d) (out := fun i => (ls i).map (· % 2 ^ 32))
    fun d' i inside _ r => vreg_setVreg d' (vd + i) r (whole i inside)).1

theorem getD_map_word (l : List Nat) (j : Nat) : (l.map (· % 2 ^ 32)).getD j 0 = l.getD j 0 % 2 ^ 32 := by
  have cut := List.getD_map (l := l) (d := 0) (n := j) (· % 2 ^ 32)
  rwa [Nat.zero_mod] at cut

/-- A run of 64 of a list of lanes. -/
theorem window_length (g : Nat → Nat) {n i : Nat} (inside : i < n) :
    (((tabulate (64 * n) g).drop (64 * i)).take 64).length = 64 := by
  rw [List.length_take, List.length_drop, tabulate, List.length_map, List.length_range]
  omega

theorem window_getD (g : Nat → Nat) {n i j : Nat} (inside : i < n) (lane : j < 64) :
    (((tabulate (64 * n) g).drop (64 * i)).take 64).getD j 0 = g (64 * i + j) := by
  rw [List.getD_eq_getElem _ _ (by rwa [window_length g inside]), List.getElem_take, List.getElem_drop]
  unfold tabulate
  rw [List.getElem_map, List.getElem_range]

theorem flatMap_getD (l : List Nat) (g : Nat → Bytes) :
    l.flatMap g = (List.range l.length).flatMap fun j => g (l.getD j 0) := by
  have lanes : l = (List.range l.length).map fun j => l.getD j 0 :=
    List.ext_getElem (by simp) fun j h _ => by
      rw [List.getElem_map, List.getElem_range, List.getD_eq_getElem _ _ h]
  conv_lhs => rw [lanes]
  rw [List.flatMap_map]

section
variable {o : LongOp} {d : Die}

theorem runVec_splat (op : o.opcode = 0x34) (single : (vecF o.x).f64 = false) {i j : Nat} (inside : i ≤ (vecF o.x).len)
    (lane : j < 64) : (vreg (runVec o d).2.2 ((vecF o.x).vd + i)).getD j 0 = o.sval.toNat % 2 ^ 32 := by
  have runs : (runVec o d).2.2 = (List.range ((vecF o.x).len + 1)).foldl
      (fun d i => setVreg d ((vecF o.x).vd + i) (List.replicate 64 (o.sval.toNat % 2 ^ 32))) d := by
    unfold runVec
    rw [op]
    change (List.range ((vecF o.x).len + 1)).foldl (fun d i => setVreg d ((vecF o.x).vd + i) (vlanes (vecF o.x).f64
      (List.replicate (if (vecF o.x).f64 then 32 else 64)
        (if (vecF o.x).f64 then o.sval.toNat else o.sval.toNat % 2 ^ 32)))) d = _
    rw [single]
    rfl
  rw [runs, vreg_setVregs (fun _ _ => List.length_replicate) d i (Nat.lt_succ_of_le inside), getD_map_word,
    List.getD_replicate _ lane, Nat.mod_mod]

theorem runVec_get (op : o.opcode = 0x35) (single : (vecF o.x).f64 = false) : (runVec o d).2.1 =
    some (BitVec.ofNat 5 (vecF o.x).sreg, BitVec.ofNat 64 ((vreg d (vecF o.x).va).getD (opField o.x 31 26) 0)) := by
  unfold runVec
  rw [op]
  change some (_, BitVec.ofNat 64 ((vvals (vecF o.x).f64 (vreg d (vecF o.x).va)).getD _ 0)) = _
  rw [single]
  rfl

/-- The lanes of a VLOAD from words that carry no mark. -/
theorem runVload_unmarked (good : spdBad d (256 * o.addr 29 12) (256 * ((vecF o.x).len + 1)) = []) :
    runVload o d = (.ok, (List.range ((vecF o.x).len + 1)).foldl (fun t i => setVreg t ((vecF o.x).vd + i)
      (((tabulate (64 * ((vecF o.x).len + 1)) fun i =>
        natAt (tabSlice zeroByte d.spd (256 * o.addr 29 12) (256 * ((vecF o.x).len + 1))) (4 * i) 4).drop
          (64 * i)).take 64))
      (spdGrant 3 (portWords (256 * o.addr 29 12) (256 * ((vecF o.x).len + 1))) d)) := by
  rw [runVload]
  dsimp only
  rw [spdRead_unmarked 3 good]
  simp only [List.isEmpty_nil, List.contains_nil, Bool.false_eq_true, if_false, if_true]

theorem runVec_load (op : o.opcode = 0x32) : runVec o d = ((runVload o d).1, none, (runVload o d).2) := by
  unfold runVec
  rw [op]
  rfl

theorem runVec_store (op : o.opcode = 0x33) : (runVec o d).2.2 = runVstore o d := by
  unfold runVec
  rw [op]
  rfl

/-- A lane that a VLOAD writes. -/
theorem runVload_lane (good : spdBad d (256 * o.addr 29 12) (256 * ((vecF o.x).len + 1)) = []) {i j : Nat}
    (inside : i ≤ (vecF o.x).len) (lane : j < 64) : (vreg (runVload o d).2 ((vecF o.x).vd + i)).getD j 0 =
      leNat (tabSlice zeroByte d.spd (256 * (o.addr 29 12 + i) + 4 * j) 4) := by
  have listed : i < (vecF o.x).len + 1 := Nat.lt_succ_of_le inside
  rw [runVload_unmarked good]
  dsimp only
  rw [vreg_setVregs (fun i h => window_length _ h) _ i listed, getD_map_word,
    window_getD _ listed lane, Nat.mod_eq_of_lt ((natAt_lt _ _ 4).trans_eq (by decide)), natAt,
      sliceB_tabSlice _ _ _ _ _ _ (by omega)]
  congr 2
  omega

/-- The bytes of a VSTORE. -/
def storeBytes (o : LongOp) (d : Die) : Bytes :=
  (List.range ((vecF o.x).len + 1)).flatMap fun i => (vreg d ((vecF o.x).vd + i)).flatMap (leBytes 4)

theorem storeBytes_register (i : Nat) :
    ((vreg d ((vecF o.x).vd + i)).flatMap (leBytes 4)).length = 256 := by
  rw [flatMap_getD, length_flatMap_range (k := 4) fun _ _ => leBytes_length .., vreg_length]

theorem storeBytes_length : (storeBytes o d).length = 256 * ((vecF o.x).len + 1) :=
  length_flatMap_range fun i _ => storeBytes_register i

theorem storeBytes_lane {i j : Nat} (inside : i ≤ (vecF o.x).len) (lane : j < 64) :
    sliceB (storeBytes o d) (256 * i + 4 * j) 4 = leBytes 4 ((vreg d ((vecF o.x).vd + i)).getD j 0) := by
  rw [← sliceB_sliceB (n := 256) _ (by omega), storeBytes,
    sliceB_flatMap_range (fun i _ => storeBytes_register i) (Nat.lt_succ_of_le inside), flatMap_getD, vreg_length,
    sliceB_flatMap_range (fun _ _ => leBytes_length ..) lane]

theorem runVstore_spd : (runVstore o d).spd = tabPut zeroByte d.spd (256 * o.addr 29 12) (storeBytes o d) := by
  have stores := congrArg (fun x => x.2.1) (spdWrite_stores 3 (256 * o.addr 29 12) (storeBytes o d) d)
  refine stores.trans (if_neg ?_)
  rw [storeBytes_length]
  omega

/-- The lane that a VSTORE leaves in the scratchpad. -/
theorem runVstore_lane {i j : Nat} (inside : i ≤ (vecF o.x).len) (lane : j < 64) :
    leNat (tabSlice zeroByte (runVstore o d).spd (256 * (o.addr 29 12 + i) + 4 * j) 4) =
      (vreg d ((vecF o.x).vd + i)).getD j 0 := by
  have place : 256 * (o.addr 29 12 + i) + 4 * j = 256 * o.addr 29 12 + (256 * i + 4 * j) := by omega
  rw [runVstore_spd, place, tabSlice_tabPut_inside _ _ (by rw [storeBytes_length]; omega), storeBytes_lane inside lane,
    leNat_leBytes]
  exact Nat.mod_eq_of_lt (vreg_lt ..)

end

/-- Settles O13, op by op: a lane of a register is a word of the bytes beside it. -/
theorem vectorMovesValues : Obligations.VectorMovesValues := by
  unfold Obligations.VectorMovesValues
  intro o d f range
  refine ⟨fun op single i j inside lane => runVec_splat op single inside lane, fun op single => runVec_get op single,
    fun op good => ?_, fun op i j inside lane => ?_, fun op a away => ?_⟩
  · rw [runVec_load op]
    exact ⟨by rw [runVload_unmarked good], fun i j inside lane => runVload_lane good inside lane⟩
  · rw [runVec_store op]
    exact runVstore_lane inside lane
  · rw [runVec_store op, runVstore_spd]
    refine tabGet_tabPut_outside _ ?_
    rw [storeBytes_length, ← Nat.mul_add]
    exact away

end Sys2Proof.Machine
end
